-- ==== Sys2Proof/Word.lean ====
section
/-! DEFINITION. Word.lean: the byte, the word types and the unit numbers of the D32, with the plainest arithmetic on
octet strings (R4, R5: bit 0 is the least significant; every multi-byte field is least significant byte first). -/

namespace Sys2Proof

/-- One octet. -/
abbrev Byte := BitVec 8

/-- An octet string: a payload, a record, an object value. -/
abbrev Bytes := List (BitVec 8)

/-- A facet, vector unit or station number 0-31 (R24, R221). -/
abbrev FacetId := Fin 32

/-- A die pair, EIC or HBM3E stack number 0-7 (R24). -/
abbrev PairId := Fin 8

/-- A command-stream engine: 0-31 facet sequencers, 32-63 vector units (the codes 00h-3Fh of R220). -/
abbrev EngineId := Fin 64

/-- A Kangeiz port: 0 is A, 1 is B. -/
abbrev RingPort := Fin 2

/-- A peer port P0-P3. -/
abbrev PeerPort := Fin 4

/-- An optical port with eye-safety logic: 0-1 the Kangeiz ports, 2-5 the peer ports P0-P3 (R389, R450). -/
abbrev EyePort := Fin 6

/-- A parameter transfer number 0-7 (R401). -/
abbrev Xfer := Fin 8

/-- The value of an octet string, least significant byte first (R5). -/
def leNat : Bytes → Nat
  | [] => 0
  | b :: bs => b.toNat + 256 * leNat bs

/-- The `n` octets of `v`, least significant byte first (R5); bits above them are dropped. -/
def leBytes : Nat → Nat → Bytes
  | 0, _ => []
  | n + 1, v => BitVec.ofNat 8 v :: leBytes n (v / 256)

/-- The unsigned field of `n` octets at offset `off`. -/
def fieldAt (bs : Bytes) (off n : Nat) : Nat := leNat ((bs.drop off).take n)

/-- Bits [hi:lo] of a number (R4). -/
def bitsOf (v hi lo : Nat) : Nat := (v / 2 ^ lo) % 2 ^ (hi + 1 - lo)

/-- Bit `i` of a number. -/
def bitOf (v i : Nat) : Bool := v.testBit i

/-- `v` with bit `i` set to `b`. -/
def withBit (v i : Nat) (b : Bool) : Nat :=
  if v.testBit i == b then v else if b then v + 2 ^ i else v - 2 ^ i

/-- The two's complement reading of the low `w` bits of a number (R8). -/
def signedOf (w v : Nat) : Int :=
  let u := v % 2 ^ w
  if u < 2 ^ (w - 1) then (u : Int) else (u : Int) - (2 ^ w : Nat)

/-- The low `w` bits of an integer, two's complement (R8). -/
def unsignedOf (w : Nat) (i : Int) : Nat := (i % ((2 ^ w : Nat) : Int)).toNat

/-- Round a quotient to nearest even: `num / den` for a positive `den` (R8). -/
def rneDiv (num : Int) (den : Nat) : Int :=
  let q := num / (den : Int)
  let r := num % (den : Int)
  if 2 * r < den then q
  else if 2 * r > den then q + 1
  else if q % 2 = 0 then q else q + 1

/-- Ceiling division of naturals. -/
def ceilDiv (a b : Nat) : Nat := (a + b - 1) / b

end Sys2Proof
end

