-- ==== Sys2Proof/Syntax.lean ====
section
/-! DEFINITION. Syntax.lean: the commands of the D32 block, one constructor of `Instr` for each row of
spec/opcode_table.json, with the operands that the row's own rule gives it. A command that reports a physical
condition carries what the reporting unit measured. -/

namespace Sys2Proof

/-- A Kangeiz frame as it stands on a port (R395): the 32-byte header's fields, the payload, the CRC-32, and whether its FEC
holds. -/
structure Frame where
  type : Byte
  flags : Byte
  dest : Byte
  src : Byte
  hops : Byte
  path : Byte
  length : Nat
  seq : BitVec 32
  ringId : BitVec 32
  arg : Bytes
  payload : Bytes
  fecOk : Bool := true
  crc : BitVec 32 := 0
  deriving DecidableEq, Repr

/-- The header of a peer frame (R455) less TYPE, which the row gives. -/
structure PeerHdr where
  flags : Byte
  srcOrd : Byte
  destOrd : Byte
  hops : Byte
  channel : Byte
  seq : BitVec 32
  ackSeq : BitVec 32
  ringId : BitVec 32
  creditField : BitVec 16
  fecOk : Bool := true
  /-- The frame's CRC-32 as received, over its header and payload. -/
  crc : BitVec 32 := 0
  /-- The reserved bytes of its ARG, in their order, as far as they were sent; bits [15:13] of STREAM where ARG names one (R456). -/
  rest : Bytes := []
  streamRest : BitVec 3 := 0
  deriving DecidableEq, Repr

/-- The fields of a CTX_CMD word (R215) other than OP, which the row gives. -/
structure CtxArgs where
  context : BitVec 12
  slot : Bool
  source : BitVec 3
  copyId : BitVec 32
  deriving DecidableEq, Repr

/-- A scheduling class (R268). -/
inductive Cls
  | slot
  | stream
  | fill
  deriving DecidableEq, Repr, Inhabited

/-- An accumulator mode (R112). -/
inductive Mode
  | integer
  | scaled
  | wide
  deriving DecidableEq, Repr

/-- A stream descriptor (R229); `eic` is the EIC that holds it. -/
structure StreamDesc where
  eic : Nat
  stream : Nat
  task : Nat
  cls : Cls
  producer : Nat
  multicast : Bool
  escape : Bool
  poolBase : Nat
  poolBlocks : Nat
  escapeBlocks : Nat
  maxBuffer : Nat
  lagBudget : Nat
  catchupBlocks : Nat
  catchupJig : Nat
  receivers : List (Nat × Nat)
  /-- The stream's data has a copy in HBM3E, as the task graph says (R249); no field of the descriptor. -/
  hbmCopy : Bool := true
  /-- The stream carries the INPUT of the task's request, as it came on the Kangeiz ports (R220); no field of the descriptor. -/
  input : Bool := false
  deriving DecidableEq, Repr

/-- One priced phase of a task graph (R271), in the terms of the pricing table. -/
inductive PhaseKind
  /-- The runs on one plane: ΣB symbols, at least 123. -/
  | plane (runSymbols : Nat)
  /-- The load of the first plane of a chain, or an operand homed SHELF: 123 symbols. -/
  | planeLoad
  /-- The last accepted code written: 32 symbols. -/
  | written
  /-- HBM3E traffic: emissions of `bytes` bytes at a share of the assured rate. `share` 0 read, 1 write, 2 remote. -/
  | hbm (share emissions bytes : Nat)
  /-- A stored T1 or I2 tile, capped at 1.024 TB/s. -/
  | storedTile (share bytes : Nat)
  /-- A handle becomes visible: 64 symbols. -/
  | handleVisible
  /-- The root drain of a tile of a mode, `bytes` bytes at 512 GB/s after 128 symbols. -/
  | drain (mode : Mode) (bytes : Nat)
  /-- A merge of elements. -/
  | merge (mode : Mode) (elements : Nat)
  /-- A reduction within a pair. -/
  | reducePair (mode : Mode) (elements : Nat)
  /-- A reduction across pairs. -/
  | reduceFabric (mode : Mode) (elements : Nat)
  /-- A reduction across devices over `hops` hops whose span delays add to `spanNs` nanoseconds, out of a port of this device or into
  it. -/
  | reduceGang (mode : Mode) (elements hops spanNs : Nat) (port : Fin 4) (inward : Bool)
  /-- An operand homed PEER, or a stream to a peer receiver: `hops` hops counted over the route, `bytes` bytes, out of a port of this
  device or into it. -/
  | peer (hops spanNs bytes : Nat) (port : Fin 4) (inward : Bool)
  /-- A vector operation on `elements` elements: its opcode and its type, FP32 or BF16 (R169). -/
  | vector (elements opcode : Nat) (bf16 : Bool)
  deriving DecidableEq, Repr

/-- A phase with the engine it occupies (none for a pure latency) and the phases it waits for, which have lower indices. -/
structure Phase where
  kind : PhaseKind
  engine : Option Nat
  preds : List Nat
  deriving DecidableEq, Repr

/-- The key/value pages of a graph's context on this device (R307): its layers, the elements of one position's keys or values
in one layer, their format, and the stacks that the pages lie on. -/
structure KvShape where
  layers : Nat
  width : Nat
  format : Nat
  onStacks : List Nat
  deriving DecidableEq, Repr, Inhabited

/-- The commands that contribute to one integer-mode output tile, as the task graph names them (R120): the tile by its operand, its
row tile, its first slot and its vectors at the root drain, and each command with its engine, in the form in which it is
repeated, restricted to the tile's vectors. -/
structure TileRepeat where
  operand : Nat
  rowTile : Nat
  slot : Nat
  vectors : Nat
  cmds : List (EngineId × BitVec 128)
  deriving DecidableEq, Repr

/-- What the control cores read from a task graph when they admit one task (R278). The manual fixes no format of a
task graph; these are the facts its admission checks use. -/
structure TaskGraph where
  /-- The journal sequence number of the request the task belongs to. -/
  jsn : Nat
  /-- The task number the scheduler assigns (R148). -/
  task : Nat
  cls : Cls
  context : Nat
  /-- The copy the task must run on when the journal record names one (a replay, R490). -/
  copy : Nat
  /-- Lanes that contribute to one output element (R118). -/
  kLanes : Nat
  bothI8 : Bool
  streams : List StreamDesc
  /-- Edges of the credit-dependency graph that this task declares, between pools (eic, stream) (R244). -/
  edges : List ((Nat × Nat) × (Nat × Nat))
  /-- True when an operand of the task is homed NODE (R192). -/
  homedNode : Bool
  phases : List Phase
  /-- The facets, vector units and fetch engines the task runs on (R220 codes). -/
  engines : List Nat
  /-- The repeat of each integer-mode output tile (R120). -/
  tiles : List TileRepeat := []
  kv : KvShape
  /-- The weight blocks the task reads (R213). -/
  blocks : List Nat
  /-- The same graph at the homes of the copy in slot A, and in slot B, as R281 prices them for a SWITCH. -/
  altA : List Phase
  altB : List Phase
  /-- Checkpoints (R282): the value of a completion token and the phase whose end it reports. -/
  checkpoints : List (Nat × Nat)
  /-- The sessions that one batch of the graph may hold (R312). -/
  batchMax : Nat
  /-- The buffers that make up the output of a request other than a generation (R31, R297); 0 stands for one. -/
  outputs : Nat
  /-- For the owner's part of a gang task (R462): each other ordinal of the task, the stamp by which its part must complete
  (a counter value) and the reference of its part's task graph. -/
  parts : List (Nat × Nat × Nat)
  deriving DecidableEq, Repr, Inhabited

/-- What the records of a jig's stored tiles say of themselves (R101), as the task graph gives it: the operand identifier,
the row tile of the jig's first tile, the chunks in one row tile, and the matrix's rows and lanes. -/
structure TileName where
  operand : Nat
  rowTile : Nat
  chunks : Nat
  rows : Nat
  lanes : Nat
  deriving DecidableEq, Repr

/-- What the data of a jig is, as the scheduler knows it (log entry 25): weights of an operand of the task's copy, a matrix
of `rows` rows and `lanes` elements of K, whose items lie from address `base` in the order of R195, or, for a remote home,
from offset 0; key/value pages of the session that the task's request runs in; or other task data. The last two name the
stored tiles that they hold. -/
inductive JigData
  | weights (operand base rows lanes : Nat)
  | pages (name : TileName)
  | other (name : TileName)
  deriving DecidableEq, Repr

/-- The returned power of a feed (R333): its ratio to the feed power and its rise within 10 µs, in dB as FP32. -/
structure ReturnPower where
  ratioDb : BitVec 32
  riseDb : BitVec 32
  deriving DecidableEq, Repr

/-- Two successive error readings of a ring's loop, and its heater code (R336). -/
structure LoopReading where
  error0 : BitVec 10
  error1 : BitVec 10
  code : BitVec 10
  deriving DecidableEq, Repr

/-- The tones that an identity scan found, with their levels, and the heater code at which the loop captured (R340). -/
structure ScanReading where
  levels : List (Fin 64 × Int)
  code : BitVec 10
  deriving DecidableEq, Repr

/-- The rings that a relock acquired, with their heater codes, and those that its step 5 recovered, with the line that each was on
(R343). -/
structure RelockRings where
  acquired : List (Fin 520 × Fin 128 × BitVec 10)
  recovered : List (Fin 520 × Fin 128 × Option (Fin 64))
  deriving DecidableEq, Repr

/-- What a start-up calibration found (R349): the rows that failed twice, the heater codes of the rings that swept, and the codes of
the row check by pass and logical row. -/
structure StartupFindings where
  failedRows : List (Fin 520)
  heaters : List (Fin 520 × Fin 128 × BitVec 10)
  codes : List (Fin 12 × Fin 516 × Int)
  deriving DecidableEq, Repr

/-- Why a task is aborted; the causes whose defining rule forbids replay are marked in `AbortCause.noReplay`
(R478). -/
inductive AbortCause
  /-- A plane record refused (R53). -/
  | planeRefused
  /-- A conversion refused (R109). -/
  | conversionRefused
  /-- A slot program error (R116). -/
  | slotProgram
  /-- Saturation unresolved (R121). -/
  | saturation
  /-- A malformed command (R166). -/
  | cmdMalformed
  /-- A non-finite vector input (R175). -/
  | nonFinite
  /-- A jig fault (R235). -/
  | jigFault
  /-- A malformed activation tile (R103). -/
  | actMalformed
  /-- An uncorrectable read (R365). -/
  | uncorrectable
  /-- A stall abort (R246). -/
  | stall
  /-- The retry budget was spent (R70). -/
  | retryBudget
  /-- A wide suspect set, or an untrusted check (R66). -/
  | wideSuspect
  /-- A facet degraded (R69) or became HELD (R345). -/
  | facetLost
  /-- A strict TIME_WAIT found its stamp past (R161). -/
  | lateWait
  /-- A certificate failed (R283). -/
  | certificate
  /-- A gang abort (R465). -/
  | gang
  /-- Quiesce, dip, power or unit loss (R431, R498, R503). -/
  | withdrawn
  /-- A copy that no slot holds (R208). -/
  | copyMissing
  deriving DecidableEq, Repr

/-- A board rail 0-40 (R511) or an integrated domain of a facet (R512). -/
inductive Supply
  | rail (r : Fin 41)
  | digital (f : FacetId)
  | analogue (f : FacetId)
  deriving DecidableEq, Repr

/-- The memories of R379. -/
inductive MemKind
  | hbm
  | shelf
  | staging
  | accumulator
  | vectorStore
  deriving DecidableEq, Repr

/-- The outcome of reading one code word (R364). -/
inductive ReadOutcome
  | clean
  /-- Corrected, with the corrected symbol's index. -/
  | corrected (symbol : Fin 72)
  /-- The second read decoded. -/
  | reread
  /-- Confirmed uncorrectable. -/
  | uncorrectable
  deriving DecidableEq, Repr

/-- An analogue output (R550). -/
inductive Output
  | external (k : Fin 16)
  | region (f : FacetId) (r : Fin 16)
  | ring (f : FacetId) (row : Fin 520) (lane : Fin 128)
  deriving DecidableEq, Repr

/-- The triggers of a relock (R342, R361), as far as a command reports them. -/
inductive ScanResult
  | confirmed
  | wrongLine (line : Fin 64)
  | unidentified
  deriving DecidableEq, Repr

/-- The commands of the block: one constructor for each row of spec/opcode_table.json. -/
inductive Instr
  -- parameter transfers and the dictionary
  | paramWrite (x : Xfer) (index : BitVec 16) (sub : BitVec 8) (total : Nat) (value : Bytes)
  | rcRead (x : Xfer) (index : BitVec 16) (sub : BitVec 8)
  | paramAbort (x : Xfer)
  | paramSeg (x : Xfer) (offset total : Nat) (payload : Bytes)
  | xferTimeout (x : Xfer)
  -- node commands, written to 1001h.01
  | configure (x : Xfer)
  | serve (x : Xfer)
  | quiesce (x : Xfer)
  | quiesceNow (x : Xfer)
  | inspect (x : Xfer)
  | safe (x : Xfer)
  | restart (x : Xfer)
  | quiesceComplete
  | quiesceForced
  | expertEnable (x : Xfer) (v : Byte)
  | factoryDefaults (x : Xfer) (v : Byte)
  | catSelect (x : Xfer) (v : BitVec 32)
  -- the Kangeiz ring
  | ringFrameReceive (port : RingPort) (frame : Frame)
  | ack (ackedSeq : BitVec 32) (status : Byte)
  | retxTimeout (seq : BitVec 32)
  | svcReq (seq : BitVec 32) (payload : Bytes)
  | segmentTimeout (requestId : BitVec 64)
  | cyclic (map : Fin 16) (stamp : BitVec 64) (payload : Bytes)
  | cyclicFire (map : Fin 16)
  | cyclicApply (map : Fin 16)
  | eventSend
  | time (dir : Fin 2) (wrapped : Bool) (payload : Bytes) (frac : BitVec 16)
  | probe (dir : Fin 2) (payload : Bytes) (frac : BitVec 16)
  | weightBlock (seq : BitVec 32) (model : BitVec 32) (stage : Byte) (copyId block : BitVec 32) (payload : Bytes)
  | rollCall (dir : Fin 2)
  | assign (seq : BitVec 32) (toOwn : Bool) (serial : BitVec 64) (nodeId : Byte) (ringId : BitVec 32)
  | state (command : Byte) (broadcast : Bool) (targets : BitVec 64)
  | reset (seq : BitVec 32) (serial : BitVec 64) (kind : Byte)
  | heartbeat
  | node0Silent
  | linkUp (port : RingPort) (missing : Option (Fin 4))
  | laneFail (port : RingPort) (lane : Fin 4)
  | laneRestore (x : Xfer) (port : RingPort) (v : Byte)
  | lossOfLight (port : EyePort)
  | lightReturn (port : EyePort)
  | eyeProbe (port : EyePort)
  -- peer ports and the gang
  | peerLinkTrained (p : PeerPort) (missing : Option (Fin 8))
  | hello (p : PeerPort) (h : PeerHdr) (ringId : BitVec 32) (ordinal port : Byte) (serial : BitVec 64)
  | peerLaneFail (p : PeerPort) (lane : Fin 8)
  | peerLaneRestore (x : Xfer) (p : PeerPort) (v : Byte)
  | linkAck (p : PeerPort) (h : PeerHdr)
  | peerResendTimeout (p : PeerPort)
  | credit (p : PeerPort) (h : PeerHdr) (returns : List (BitVec 16))
  | data (p : PeerPort) (h : PeerHdr) (stream : BitVec 13) (receiver tag : Byte) (block : BitVec 16) (payload : Bytes)
  | streamCredit (p : PeerPort) (h : PeerHdr) (stream : BitVec 13) (receiver : Byte) (count : BitVec 16)
  | read (p : PeerPort) (h : PeerHdr) (payload : Bytes)
  | batch (p : PeerPort) (h : PeerHdr) (gangTask : BitVec 32) (graph : TaskGraph) (model : BitVec 32) (stage : Byte)
      (copyId : BitVec 32) (partBound : BitVec 64)
  | grant (p : PeerPort) (h : PeerHdr) (gangTask : BitVec 32) (level : Byte)
  | peerReduce (p : PeerPort) (h : PeerHdr) (gangTask : BitVec 32) (level mode : Byte) (payload : Bytes)
  | repeatTile (p : PeerPort) (h : PeerHdr) (gangTask : BitVec 32) (scale : Byte) (payload : Bytes)
  | abort (p : PeerPort) (h : PeerHdr) (gangTask : BitVec 32) (cause : Byte)
  | partBoundExpiry (gangTask : BitVec 32)
  | journal (p : PeerPort) (h : PeerHdr) (position : BitVec 32) (payload : Bytes)
  | journalAck (p : PeerPort) (h : PeerHdr) (position : BitVec 32) (status : Byte)
  | mirrorTimeout
  | peerWeightBlock (p : PeerPort) (h : PeerHdr) (model : BitVec 32) (stage : Byte) (block copyId : BitVec 32)
      (payload : Bytes)
  | blockReq (p : PeerPort) (h : PeerHdr) (model : BitVec 32) (stage : Byte) (count : BitVec 16)
      (copyId first : BitVec 32)
  | blockStallRequest (context : BitVec 12) (slot : Bool)
  | buddyWrite (x : Xfer) (v : Byte)
  | routeWrite (x : Xfer) (v : Bytes)
  | standInWrite (x : Xfer) (v : BitVec 64)
  -- contexts and weight copies
  | register (x : Xfer) (a : CtxArgs)
  | deregister (x : Xfer) (a : CtxArgs)
  | build (x : Xfer) (a : CtxArgs)
  | switch (x : Xfer) (a : CtxArgs)
  | discard (x : Xfer) (a : CtxArgs)
  | repair (x : Xfer) (a : CtxArgs)
  | abandon (x : Xfer) (a : CtxArgs)
  | store (x : Xfer) (a : CtxArgs)
  | unstore (x : Xfer) (a : CtxArgs)
  | ctxDesc (x : Xfer) (v : Bytes)
  | ctxSelect (x : Xfer) (v : BitVec 16)
  | placeSelect (x : Xfer) (v : BitVec 32)
  | buildVerifyComplete (context : BitVec 12) (slot : Bool)
  | buildStall (context : BitVec 12) (slot : Bool)
  | repairTimeout (context : BitVec 12) (slot : Bool)
  | batchIssue (context : BitVec 12) (batch : Nat) (tasks : List Nat)
  | batchEnd (batch : Nat)
  -- services and sessions
  | cancel (x : Xfer)
  | close (x : Xfer)
  | sessionSelect (x : Xfer) (tag : BitVec 64)
  | tokenRelease (jsn : Nat) (token : BitVec 32) (inexact : Bool)
  -- scheduling and frame time
  | taskAdmission (graph : TaskGraph)
  | taskAbort (task : BitVec 16) (cause : AbortCause)
  | frameStart
  | frameInEdge (frac : BitVec 16) (valid : Bool)
  | ppsInEdge (frac : BitVec 16) (valid : Bool)
  | timeHoldover
  | timeReset (x : Xfer) (v : Byte)
  | tableSelect (x : Xfer) (v : BitVec 32)
  -- engine command streams
  | commandEnqueue (e : EngineId) (prio : Bool) (w : BitVec 128)
  | bind (e : EngineId) (prio : Bool)
  | preload (f : FacetId) (prio : Bool)
  | flip (f : FacetId) (prio : Bool)
  | flipZero (f : FacetId) (prio : Bool)
  | pass (f : FacetId) (prio : Bool)
  | drain (f : FacetId) (prio : Bool)
  | drainMax (f : FacetId) (prio : Bool)
  | drainMin (f : FacetId) (prio : Bool)
  | merge (f : FacetId) (prio : Bool)
  | reduceSend (f : FacetId) (prio : Bool)
  | reduceGather (f : FacetId) (prio : Bool)
  | tree (f : FacetId) (prio : Bool)
  | fence (e : EngineId) (prio : Bool)
  | fenceRelease (e : EngineId) (prio : Bool)
  | timeWait (e : EngineId) (prio : Bool)
  | timeWaitRelease (e : EngineId) (prio : Bool)
  | fillPreemption (f : FacetId)
  -- facet events
  | shadowLoadComplete (f : FacetId)
  | planeFlip (f : FacetId)
  | passVerdict (f : FacetId) (errors : List (Nat × Int))
  | sweepComplete (f : FacetId)
  | confirmationVerdict (f : FacetId) (errors : List (Nat × Int))
  | swapReloadComplete (f : FacetId)
  | codeWritten (f : FacetId)
  | drainComplete (f : FacetId)
  | mergeComplete (f : FacetId)
  | reduceDelivered (f : FacetId)
  | peek (x : Xfer) (v : BitVec 64)
  -- vector operations
  | vload (f : FacetId) (prio : Bool)
  | vstore (f : FacetId) (prio : Bool)
  | vsumcvt (f : FacetId) (prio : Bool)
  | vadd (f : FacetId) (prio : Bool)
  | vmul (f : FacetId) (prio : Bool)
  | vfma (f : FacetId) (prio : Bool)
  | vmax (f : FacetId) (prio : Bool)
  | vmin (f : FacetId) (prio : Bool)
  | vscale (f : FacetId) (prio : Bool)
  | vexp (f : FacetId) (prio : Bool)
  | vrsqrt (f : FacetId) (prio : Bool)
  | vrecip (f : FacetId) (prio : Bool)
  | vtanh (f : FacetId) (prio : Bool)
  | vsigmoid (f : FacetId) (prio : Bool)
  | vgelu (f : FacetId) (prio : Bool)
  | vsilu (f : FacetId) (prio : Bool)
  | vsoftmax (f : FacetId) (prio : Bool)
  | vrmsnorm (f : FacetId) (prio : Bool)
  | vlayernorm (f : FacetId) (prio : Bool)
  | vrotary (f : FacetId) (prio : Bool)
  | vredsum (f : FacetId) (prio : Bool)
  | vredmax (f : FacetId) (prio : Bool)
  | vdot (f : FacetId) (prio : Bool)
  | vwsum (f : FacetId) (prio : Bool)
  | vtopk (f : FacetId) (prio : Bool)
  | vsample (f : FacetId) (prio : Bool)
  | vquant (f : FacetId) (prio : Bool)
  | vquantw (f : FacetId) (prio : Bool)
  -- streams
  | jigStart (engine : Fin 9) (jig : BitVec 8) (eic : PairId) (stream : BitVec 10) (entries : List (BitVec 64))
      (what : JigData)
  | jigEmission (engine : Fin 9) (jig : BitVec 8) (errors : List (Nat × ReadOutcome))
  | planeConvertComplete (n : PairId)
  | handlePush (n : PairId) (stream : BitVec 10)
  | bufferRelease (station : FacetId) (queue : Fin 32)
  | escapeGrant (n : PairId) (stream : BitVec 10)
  | stallAbort (task : BitVec 16)
  | streamSelect (x : Xfer) (v : BitVec 16)
  -- light supply, locking and calibration
  | inputEnable (x : Xfer) (v : Byte)
  | interlockOpen (i : Fin 2)
  | interlockClosed (i : Fin 2)
  | returnPowerTrip (i : Fin 2) (feed : Fin 8) (seen : ReturnPower)
  | feedOverPower (i : Fin 2) (feed : Fin 8) (mw : BitVec 32)
  | feedValid (i : Fin 2) (mw : Vector (BitVec 32) 8)
  | feedLow (i : Fin 2) (feed : Fin 8) (mw : BitVec 32)
  | sourceMap (x : Xfer) (v : BitVec 64)
  | sourceFailover (bus : Fin 64) (headroomDb : BitVec 32)
  | lossOfLock (f : FacetId) (ring : Fin 520 × Fin 128) (seen : LoopReading)
  | identityScan (f : FacetId) (row : Fin 520) (lane : Fin 128) (seen : ScanReading)
  | relockComplete (f : FacetId) (micros rounds : Nat) (found : RelockRings)
  | rowCheckComplete (f : FacetId) (codes : List (Fin 12 × Fin 516 × Int))
  | thermalStop (f : FacetId) (region : Fin 16) (celsius : BitVec 32)
  | regionSaturated (f : FacetId) (region : Fin 16)
  | startupCalibration (f : FacetId) (failed : Option (Fin 2)) (found : StartupFindings)
  | rollingCalStart (f : FacetId)
  | standInReload (f : FacetId)
  | calibrationComplete (f : FacetId) (failedStep : Option (Fin 6)) (spareNonZero : Bool)
      (codes : Vector (BitVec 10) 128)
  | calOverdue (f : FacetId)
  | ringSelect (x : Xfer) (v : BitVec 32)
  -- memory maintenance
  | unitRetireStart (n : PairId) (unit : Nat)
  | unitRetired (n : PairId)
  | patrolScrub (mem : MemKind) (unit : Fin 32) (address : Nat) (outcome : ReadOutcome)
  -- journal, power and recovery
  | journalRelocate (count : Nat)
  | powerFail
  | powerReturn
  | settle (x : Xfer)
  | adopt (x : Xfer)
  | supplyDip (supply : Supply)
  | dipEnd (supply : Supply) (micros : Nat) (lost : List (FacetId × Fin 520 × Fin 128))
  | longDip (supply : Supply)
  | resetLevelCrossing (supply : Supply)
  | supervisorMismatch
  -- rails and temperature
  | railTable (x : Xfer) (v : Bytes)
  | railGood (rail : Fin 41) (pmbusFailures : Nat)
  | railFault (rail : Fin 41) (volts : BitVec 32)
  | overvoltage (supply : Supply)
  | throttleEnforced (group : Fin 6) (unit : Fin 8)
  | throttleReleased (group : Fin 6) (unit : Fin 8)
  | sensorSelect (x : Xfer) (v : BitVec 16)
  -- converters and outputs
  | conversionComplete (c : Fin 4) (channel : Byte) (code : Int) (overload : Bool)
  | urgent (x : Xfer) (v : BitVec 16)
  | calZero (x : Xfer) (codes : Vector Int 16)
  | calFullScale (x : Xfer) (codes : Vector Int 16)
  | calClear (x : Xfer)
  | aoutCode (x : Xfer) (k : Fin 16) (v : BitVec 16)
  | deglitchHoldEnd (o : Output)
  | span (x : Xfer) (k : Fin 16) (v : Byte)
  | spanStep (k : Fin 16)
  | trigger (x : Xfer) (v : Bytes)
  | waveSample (o : Output)
  | trimSave
  | lifeDataSave
  -- boot and security
  | boot (selfCheckOk : Bool) (testsOk : Bool) (failedShelfLines : List (PairId × Nat)) (facetsOk : BitVec 32)
  | sealWrite
  | bootTimeout
  | nonce (x : Xfer) (v : Bytes)
  | reportSigned
  | imageData (x : Xfer) (v : Bytes)
  | imageStaged (flashOk : Bool)
  | commit (x : Xfer) (v : Byte)
  | resetN
  | refclkLoss
  | refclkReturn
  | helloResend (p : PeerPort)
  | hbmTrainingDone (n : PairId) (trained : Bool) (lanesRepaired : Nat)
  | stackTemperatureRead (n : PairId) (celsius : BitVec 32)
  deriving DecidableEq, Repr

end Sys2Proof
end

