-- ==== Sys2Proof/Decode.lean ====
section
/-! DEFINITION. Decode.lean: the block's commands carry no words of their own: spec/opcode_table.json gives no row any bits,
so no word spells a command. -/

namespace Sys2Proof

/-- The command that a word spells by the table's bits: none, since no row of the table has bits. -/
def decodeTableWord (_ _ : Nat) : Option Instr := none

end Sys2Proof
end

