-- ==== Sys2Proof/Config.lean ====
section
/-! DEFINITION. Config.lean: what one device fixes and the manual does not state, and the free values. Every constant
here is opaque: nothing can prove a value of it. -/

namespace Sys2Proof.Config

/-- The region in which a ring lies (R352): facet, physical row, lane. -/
opaque ringRegion : Nat → Nat → Nat → Fin 16

/-- The factory values of 0000h.06 to 0000h.08 (R36): serial number, boot ROM version. -/
opaque serial : BitVec 64
opaque bootRomVer : BitVec 32

/-- The offset in ulp, less 2, of the elementwise vector functions that R170 bounds to 2 ulp: operation, operand. -/
opaque ulpOffset : Nat → Nat → Fin 5

/-- What VROTARY gives for the last element of a row of odd length, which has no partner (R169; log entry 127): a fixed function of
that element and of its element of row B. -/
opaque rotateUnpaired : Nat → Nat → BitVec 32

/-- The sign of the larger and of the smaller of two zeros of unlike sign (R169; log entry 77). -/
opaque maxOfZeros : Bool
opaque minOfZeros : Bool

/-- Free values: the k-th draw of a Boolean and of a number, for outcomes the manual leaves open (log entry 4). -/
opaque freeBool : Nat → Bool
opaque freeNat : Nat → Nat

/-- The task graph that a reference in a BATCH frame names (R456, R462): the manual gives graphs no form (log entry 143). -/
opaque partGraph : Nat → TaskGraph

/-- Whether the k-th save is refused by the flash (R439). -/
opaque flashRefuses : Nat → Bool

/-- The index that the gather list of a jig with a remote home holds (R234): the manual gives such a jig no stack for its list
(log entry 104). Port, address of the list, place in it. -/
opaque gatherIndex : Nat → Nat → Nat → Nat

/-- The stack that holds a block of an image: MODEL, STAGE, copy ID, block index (R198; log entry 109). -/
opaque imageStack : Nat → Nat → Nat → Nat → Fin 8

/-- Bytes of a bank header of the persistent store (R438): a sequence number and its CRC, in a header whose size the
manual does not give. -/
opaque bankHeader : Nat

/-- The factory waveform memory and table of 9120h and the feed-forward gains of 7300h.06 (R347, R554). -/
opaque waveMemory : Bytes
opaque waveTable : Bytes
opaque ffGain : Bytes

/-- The identity certificate and public modulus of the key store (R566). -/
opaque identityCert : Bytes
opaque identityPublic : Bytes

/-- The factory neighbours of an on-die or fast sensor (R522), and what a code of a channel stands for: the temperature of a
sensor, given its coefficients (R538), and the reading of a rail or of another channel with fixed scaling (R540). -/
opaque neighbours : Nat → List Nat
opaque celsius : Nat → Int → Bytes → BitVec 32
opaque reading : Nat → Int → BitVec 32

/-- The compensation that the factory coefficients give an item at a temperature (R529): 1024 * kind + sensor, FP32. -/
opaque compensation : Nat → Nat → Nat

/-- The key store's root key hash, the root of the boot ROM's checks, as far as the manual fixes no value (R566, R570), and
the private-key operation of the identity key (R580): the signature over a report. -/
opaque rootKeyHash : Bytes
opaque identitySign : Bytes → Bytes

/-- The SHA-512 of the boot ROM (M0 of R579), and the strap of the spread clock (R604). -/
opaque bootRomHash : Bytes
opaque sscStrap : Bool

/-- The key store region of SYS memory: base and bytes (R576). -/
opaque keyStore : Nat × Nat

/-- The octets that M2 hashes (R579): the protection set-up as written and the debug-allowed bit, in a form that the manual
does not give. -/
opaque sealInput : Bytes → Bool → Bytes

/-- The code of a channel under its factory coefficients: channel, gain, raw code (R549); and the code that the factory
transfer table gives for a heater: output key, drive code (R557). -/
opaque factoryCode : Nat → Nat → Int → Int
opaque heaterTransfer : Nat → Nat → Int

end Sys2Proof.Config
end

