-- ==== Sys2Proof/Machine/Float.lean ====
section
/-! DEFINITION. Float.lean: IEEE 754 binary32 and bfloat16 arithmetic of the vector units (R170, R171), on bit patterns:
every operation forms the exact value and rounds once to nearest even. The transcendental functions are evaluated far
beyond FP32 precision, rounded, and moved by the configuration's offset of at most 2 ulp (R170). -/

namespace Sys2Proof.Machine

/-- A decoded floating-point value: `fin neg m e` is (-1)^neg * m * 2^e. -/
inductive Fl
  | nan
  | inf (neg : Bool)
  | fin (neg : Bool) (m : Nat) (e : Int)
  deriving DecidableEq, Repr

/-- The vector status flags of R171, as the bits of VEC_FLAGS (R180). -/
def flagINV : Nat := 1
def flagOVF : Nat := 2
def flagDIV0 : Nat := 4
def flagNANIN : Nat := 8
def flagSAT : Nat := 16

/-- The canonical quiet NaN (R170). -/
def nan32 : Nat := 0x7FC00000

def inf32 (neg : Bool) : Nat := if neg then 0xFF800000 else 0x7F800000

/-- Decoding of a binary32 pattern. -/
def fl32 (b : Nat) : Fl :=
  let neg := b.testBit 31
  let ex := bitsOf b 30 23
  let ma := b % 2 ^ 23
  if ex = 255 then (if ma = 0 then .inf neg else .nan)
  else if ex = 0 then .fin neg ma (-149)
  else .fin neg (ma + 2 ^ 23) ((ex : Int) - 150)

/-- Decoding of a bfloat16 pattern: the upper half of a binary32 (R170). -/
def flBf16 (b : Nat) : Fl := fl32 (b % 65536 * 65536)

/-- Floor of the base-2 logarithm of a positive rational `num / den`. -/
def ratLog2 (num den : Nat) : Int :=
  let l : Int := (Nat.log2 num : Int) - (Nat.log2 den : Int)
  -- 2^l <= num/den < 2^(l+1), or one below
  let le (k : Int) : Bool := if 0 ≤ k then den * 2 ^ k.toNat ≤ num else den ≤ num * 2 ^ (-k).toNat
  if le (l + 1) then l + 1 else if le l then l else l - 1

/-- Round half to even of a natural quotient. -/
def rneNat (num den : Nat) : Nat :=
  let q := num / den
  let r := num % den
  if 2 * r < den then q else if den < 2 * r then q + 1 else if q % 2 = 0 then q else q + 1

/-- The magnitude `num / den * 2^e` rounded to nearest even in a format with `p` significand bits, subnormal unit
2^emin and infinity pattern `infinity`; the pattern without sign, and whether a finite value became infinite. -/
def roundMag (p : Nat) (emin : Int) (infinity : Nat) (num den : Nat) (e : Int) : Nat × Bool :=
  if num = 0 then (0, false) else
  let l := ratLog2 num den + e
  let q := max (l - ((p : Int) - 1)) emin
  let sh := e - q
  let r := if 0 ≤ sh then rneNat (num * 2 ^ sh.toNat) den else rneNat num (den * 2 ^ (-sh).toNat)
  let b := (q - emin).toNat * 2 ^ (p - 1) + r
  if infinity ≤ b then (infinity, true) else (b, false)

/-- A signed value `num / den * 2^e` rounded to binary32; with the OVF flag. -/
def round32 (neg : Bool) (num den : Nat) (e : Int) : Nat × Nat :=
  let (b, o) := roundMag 24 (-149) 0x7F800000 num den e
  ((if neg then 2 ^ 31 else 0) + b, if o then flagOVF else 0)

/-- A binary32 pattern rounded to a bfloat16 pattern, to nearest even (R170), with the OVF flag. -/
def toBf16 (b : Nat) : Nat × Nat :=
  match fl32 b with
  | .nan => (0x7FC0, 0)
  | .inf n => (if n then 0xFF80 else 0x7F80, 0)
  | .fin n m e =>
    let (r, o) := roundMag 8 (-133) 0x7F80 m 1 e
    ((if n then 2 ^ 15 else 0) + r, if o then flagOVF else 0)

/-- NAN_IN for one input: a NaN or infinity (R171). -/
def nanIn (b : Nat) : Nat :=
  match fl32 b with
  | .fin _ _ _ => 0
  | _ => flagNANIN

/-- A signed magnitude as an integer at exponent `e`. -/
def sMag (neg : Bool) (m : Nat) : Int := if neg then -(m : Int) else m

/-- The exact sum of two finite values rounded once; an exact zero is +0 unless both are negative zeros. -/
def addFin (na : Bool) (ma : Nat) (ea : Int) (nb : Bool) (mb : Nat) (eb : Int) : Nat × Nat :=
  let e := min ea eb
  let v := sMag na ma * 2 ^ (ea - e).toNat + sMag nb mb * 2 ^ (eb - e).toNat
  if v = 0 then (if na && nb then 2 ^ 31 else 0, 0)
  else round32 (decide (v < 0)) v.natAbs 1 e

/-- FP32 addition. -/
def fadd (a b : Nat) : Nat × Nat :=
  let w := nanIn a ||| nanIn b
  match fl32 a, fl32 b with
  | .nan, _ => (nan32, w)
  | _, .nan => (nan32, w)
  | .inf x, .inf y => if x = y then (inf32 x, w) else (nan32, w ||| flagINV)
  | .inf x, _ => (inf32 x, w)
  | _, .inf y => (inf32 y, w)
  | .fin na ma ea, .fin nb mb eb => addFin na ma ea nb mb eb

/-- FP32 multiplication. -/
def fmul (a b : Nat) : Nat × Nat :=
  let w := nanIn a ||| nanIn b
  match fl32 a, fl32 b with
  | .nan, _ => (nan32, w)
  | _, .nan => (nan32, w)
  | .inf x, .inf y => (inf32 (x != y), w)
  | .inf x, .fin y m _ => if m = 0 then (nan32, w ||| flagINV) else (inf32 (x != y), w)
  | .fin x m _, .inf y => if m = 0 then (nan32, w ||| flagINV) else (inf32 (x != y), w)
  | .fin na ma ea, .fin nb mb eb => round32 (na != nb) (ma * mb) 1 (ea + eb)

/-- FP32 fused multiply-add A * B + C, rounded once. -/
def ffma (a b c : Nat) : Nat × Nat :=
  let w := nanIn a ||| nanIn b ||| nanIn c
  match fl32 a, fl32 b, fl32 c with
  | .fin na ma ea, .fin nb mb eb, .fin nc mc ec => addFin (na != nb) (ma * mb) (ea + eb) nc mc ec
  | .fin _ _ _, .fin _ _ _, .inf z => (inf32 z, w)
  | .nan, _, _ => (nan32, w)
  | _, .nan, _ => (nan32, w)
  | _, _, .nan => (nan32, w)
  | x, y, z =>
    let zero := match x, y with
      | .fin _ 0 _, _ => true
      | _, .fin _ 0 _ => true
      | _, _ => false
    let sgn : Fl → Bool := fun v => match v with
      | .nan => false
      | .inf n => n
      | .fin n _ _ => n
    if zero then (nan32, w ||| flagINV)
    else match z with
      | .inf s => if s = (sgn x != sgn y) then (inf32 s, w) else (nan32, w ||| flagINV)
      | _ => (inf32 (sgn x != sgn y), w)

/-- FP32 division of exact values, used by VSOFTMAX and the means: correctly rounded. -/
def fdivNat (a : Nat) (n : Nat) : Nat × Nat :=
  match fl32 a with
  | .nan => (nan32, flagNANIN)
  | .inf x => (inf32 x, flagNANIN)
  | .fin s m e => round32 s m n e

/-- FP32 reciprocal. -/
def frecip (a : Nat) : Nat × Nat :=
  match fl32 a with
  | .nan => (nan32, flagNANIN)
  | .inf x => (if x then 2 ^ 31 else 0, flagNANIN)
  | .fin s m e => if m = 0 then (inf32 s, flagDIV0) else round32 s 1 m (-e)

/-- Integer square root by bits, `n` result bits. -/
def isqrtBits : Nat → Nat → Nat → Nat
  | 0, _, r => r
  | n + 1, x, r => let t := r + 2 ^ n; isqrtBits n x (if t * t ≤ x then t else r)

/-- FP32 reciprocal square root, correctly rounded. -/
def frsqrt (a : Nat) : Nat × Nat :=
  match fl32 a with
  | .nan => (nan32, flagNANIN)
  | .inf x => if x then (nan32, flagNANIN ||| flagINV) else (0, flagNANIN)
  | .fin s m e =>
    if m = 0 then (inf32 s, flagDIV0)
    else if s then (nan32, flagINV)
    else
      let (m, e) := if e % 2 = 0 then (m, e) else (2 * m, e - 1)
      let x := 2 ^ 128 / m
      let y := isqrtBits 65 x 0
      let sticky := if y * y * m = 2 ^ 128 then 0 else 1
      round32 false (2 * y + sticky) 1 (-65 - e / 2)

/-- Total order of the values that are not NaN, as a pair comparison: `fle a b` when a <= b (zeros equal). -/
def fle (a b : Nat) : Bool :=
  match fl32 a, fl32 b with
  | .nan, _ => false
  | _, .nan => false
  | .inf true, _ => true
  | _, .inf false => true
  | .inf false, _ => false
  | _, .inf true => false
  | .fin na ma ea, .fin nb mb eb =>
    let e := min ea eb
    sMag na ma * 2 ^ (ea - e).toNat ≤ sMag nb mb * 2 ^ (eb - e).toNat

def isNan (a : Nat) : Bool := fl32 a == .nan

/-- Of two equal numbers the first, but of two zeros of unlike sign one whose sign the manual does not state (log entry
77). -/
def pickEqual (zero : Bool) (a b : Nat) : Nat := if a = b then a else if zero then 2 ^ 31 else 0

/-- max of R169: a NaN loses to a number; of two NaNs the canonical one. -/
def fmax (a b : Nat) : Nat :=
  if isNan a then (if isNan b then nan32 else b)
  else if isNan b then a
  else if fle b a then (if fle a b then pickEqual Config.maxOfZeros a b else a) else b

def fmin (a b : Nat) : Nat :=
  if isNan a then (if isNan b then nan32 else b)
  else if isNan b then a
  else if fle a b then (if fle b a then pickEqual Config.minOfZeros a b else a) else b

/-! ### Transcendental functions -/

/-- ln 2 scaled by 2^160. -/
def ln2Fix : Nat := 1013035739299659071135698605846798551586536899366

/-- Terms of the exponential series in fixed point 2^-120: acc + t + t*r/k + ... for k to k + n - 1. -/
def expSeries : Nat → Nat → Nat → Nat → Nat → Nat
  | 0, _, _, _, acc => acc
  | n + 1, k, r, t, acc => let t' := t * r / 2 ^ 120 / k; expSeries n (k + 1) r t' (acc + t')

/-- e^(num/den) as (m, e) for m * 2^e with about 120 significant bits; the argument is first limited to +-1024. -/
def expBig (num : Int) (den : Nat) : Nat × Int :=
  let lim : Int := 1024 * den
  let num := max (-lim) (min lim num)
  let z : Int := num * 2 ^ 160 / (den : Int)
  let k := z / (ln2Fix : Int)
  let r := (z - k * ln2Fix).toNat / 2 ^ 40
  (expSeries 40 1 r (2 ^ 120) (2 ^ 120), k - 120)

/-- A finite magnitude pattern lies within 2 ulp of num / den * 2^e (R170). -/
def within (pattern num den : Nat) (e : Int) : Bool :=
  match fl32 pattern with
  | .fin _ m q =>
    let ulp := max (ratLog2 num den + e - 23) (-149)
    let low := min (min q e) ulp
    let got := m * den * 2 ^ (q - low).toNat
    let want := num * 2 ^ (e - low).toNat
    let tol := 2 * den * 2 ^ (ulp - low).toNat
    decide (got ≤ want + tol) && decide (want ≤ got + tol)
  | _ => false

/-- The value num / den * 2^e of a sign rounded to binary32 and moved by the configuration's offset for that operation and
operand, -2 to +2 ulp, as far as it then lies within 2 ulp of the exact value (R170). It never crosses zero, and an infinite
result does not move. -/
def within2 (op a : Nat) (neg : Bool) (num den : Nat) (e : Int) : Nat × Nat :=
  let r := round32 neg num den e
  let sgn := r.1 / 2 ^ 31 * 2 ^ 31
  let mag : Nat := r.1 % 2 ^ 31
  let moved : Nat := (min ((mag : Int) + (((Config.ulpOffset op a).val : Int) - 2)) 0x7F7FFFFF).toNat
  (sgn + (if mag < 0x7F800000 && num != 0 && within moved num den e then moved else mag), r.2)

/-- The exact rational (num, den) of a finite value. -/
def flRat (neg : Bool) (m : Nat) (e : Int) : Int × Nat :=
  if 0 ≤ e then (sMag neg m * 2 ^ e.toNat, 1) else (sMag neg m, 2 ^ (-e).toNat)

/-- e^A (R169, opcode 49h). -/
def fexp (op a : Nat) : Nat × Nat :=
  match fl32 a with
  | .nan => (nan32, flagNANIN)
  | .inf x => (if x then 0 else inf32 false, flagNANIN)
  | .fin s m e =>
    let (n, d) := flRat s m e
    let (m', e') := expBig n d
    within2 op a false m' 1 e'

/-- The logistic function of a rational argument as a positive (num, den, e): num / den * 2^e. -/
def sigmoidBig (num : Int) (den : Nat) : Nat × Nat × Int :=
  if 0 ≤ num then
    -- 1 / (1 + e^-z)
    let (m, e) := expBig (-num) den
    let one := 2 ^ (-e).toNat
    (one, one + m, 0)
  else
    let (m, e) := expBig num den
    let one := 2 ^ (-e).toNat
    (m, one + m, 0)

/-- 1 / (1 + e^-A). -/
def fsigmoid (op a : Nat) : Nat × Nat :=
  match fl32 a with
  | .nan => (nan32, flagNANIN)
  | .inf x => (if x then 0 else 0x3F800000, flagNANIN)
  | .fin s m e =>
    let (n, d) := flRat s m e
    let (p, q, x) := sigmoidBig n d
    within2 op a false p q x

/-- tanh A: by its odd series near zero, else (1 - e^-2|A|) / (1 + e^-2|A|). -/
def ftanh (op a : Nat) : Nat × Nat :=
  match fl32 a with
  | .nan => (nan32, flagNANIN)
  | .inf x => (if x then 0xBF800000 else 0x3F800000, flagNANIN)
  | .fin s m e =>
    let (n, d) := flRat false m e
    if n * 1024 < d then
        -- x - x^3/3 + 2x^5/15
        let n := n.toNat
        within2 op a s (n * (15 * d ^ 4 - 5 * n ^ 2 * d ^ 2 + 2 * n ^ 4)) (15 * d ^ 5) 0
      else
        let (m', e') := expBig (-2 * n) d
        let one := 2 ^ (-e').toNat
        within2 op a s (one - m') (one + m') 0

/-- A times the logistic function of a rational argument. -/
def mulSigmoid (op a : Nat) (s : Bool) (m : Nat) (e : Int) (num : Int) (den : Nat) : Nat × Nat :=
  let (p, q, x) := sigmoidBig num den
  within2 op a s (m * p) q (e + x)

/-- A / (1 + e^-A). Of minus infinity the manual states no result: -0, the limit (DESIGN CHOICE, log entry 102). -/
def fsilu (op a : Nat) : Nat × Nat :=
  match fl32 a with
  | .nan => (nan32, flagNANIN)
  | .inf x => (if x then 2 ^ 31 else inf32 false, flagNANIN)
  | .fin s m e => let (n, d) := flRat s m e; mulSigmoid op a s m e n d

/-- 0.5 A (1 + tanh(0.7978846 (A + 0.044715 A^3))), which is A times the logistic function of twice the argument. Of
minus infinity -0, the limit (DESIGN CHOICE, log entry 102). -/
def fgelu (op a : Nat) : Nat × Nat :=
  match fl32 a with
  | .nan => (nan32, flagNANIN)
  | .inf x => (if x then 2 ^ 31 else inf32 false, flagNANIN)
  | .fin s m e =>
    let (n, d) := flRat s m e
    -- 2 * 7978846/10^7 * (n/d + 44715/10^6 * n^3/d^3)
    mulSigmoid op a s m e (2 * 7978846 * (n * 1000000 * (d : Int) ^ 2 + 44715 * n ^ 3)) (10 ^ 13 * d ^ 3)

/-- The balanced pairwise tree of R170, one level. -/
def pairLevel {α : Type} (op : α → α → α) : List α → List α
  | x :: y :: l => op x y :: pairLevel op l
  | l => l

/-- The balanced pairwise tree of R170 over a list, level by level; `fuel` levels suffice for 2^fuel values. -/
def pairTree {α : Type} (op : α → α → α) : Nat → List α → List α
  | 0, l => l
  | n + 1, l => if l.length ≤ 1 then l else pairTree op n (pairLevel op l)

/-- FP32 sum of a list in the balanced tree of R170, with flags; a NaN is canonical. The sum of no values is +0. -/
def fsum (l : List Nat) : Nat × Nat :=
  match pairTree (fun (x y : Nat × Nat) => let r := fadd x.1 y.1; (r.1, x.2 ||| y.2 ||| r.2)) 17 (l.map fun v => (v, 0)) with
  | r :: _ => (if isNan r.1 then nan32 else r.1, r.2)
  | [] => (0, 0)

end Sys2Proof.Machine
end

