-- ==== Sys2Proof/Machine/Format.lean ====
section
/-! DEFINITION. Format.lean: the eight number formats, balanced-ternary and base-4 decomposition, alignment, stored
chunk rows, plane records and activation tiles (R81-R109), as functions of octet strings. -/

namespace Sys2Proof.Machine

/-! ### The formats (R81) -/

/-- Scaled formats (R82): MF4, MF8A, MF8B, BF16. -/
def fmtScaled (c : Nat) : Bool := 4 ≤ c && c ≤ 7

/-- Trit count n. -/
def fmtTrits : Nat → Nat
  | 0 => 1
  | 1 => 2
  | 2 => 3
  | 3 => 6
  | 4 => 3
  | 5 => 8
  | 6 => 8
  | 7 => 11
  | _ => 0

/-- Digit count of an activation format; 0 where it is none. -/
def fmtDigits : Nat → Nat
  | 1 => 1
  | 2 => 2
  | 3 => 4
  | 4 => 3
  | 5 => 7
  | 6 => 7
  | 7 => 9
  | _ => 0

/-- Activation offset. -/
def fmtOffset : Nat → Nat
  | 1 => 2
  | 2 => 8
  | 3 => 128
  | 4 => 12
  | 5 => 4095
  | 6 => 4095
  | 7 => 65535
  | _ => 0

/-- Largest unsigned u. -/
def fmtUmax : Nat → Nat
  | 1 => 3
  | 2 => 15
  | 3 => 255
  | 4 => 24
  | 5 => 8190
  | 6 => 8190
  | 7 => 131070
  | _ => 0

/-- Container width of an aligned activation tile in bits (R103). -/
def fmtContainer : Nat → Nat
  | 1 => 2
  | 2 => 4
  | 3 => 8
  | 4 => 8
  | 5 => 16
  | 6 => 16
  | 7 => 32
  | _ => 0

/-- Magnitude width N of a floating format by role (R81): MF8 weights 11, MF8 activations 12, BF16 16. -/
def fmtN (c : Nat) (weight : Bool) : Nat := if c = 7 then 16 else if weight then 11 else 12

/-- Bytes of a stored chunk row (R97). -/
def fmtRowBytes : Nat → Nat
  | 0 => 32
  | 1 => 32
  | 2 => 64
  | 3 => 128
  | 4 => 68
  | 5 => 132
  | 6 => 132
  | 7 => 256
  | _ => 0

/-- Element bits of an integer format as stored (R97). -/
def fmtStoredBits : Nat → Nat
  | 0 => 2
  | 1 => 2
  | 2 => 4
  | _ => 8

/-! ### Trits and digits -/

/-- The n trits of an aligned weight, lowest first (R83). -/
def tritsOf : Nat → Int → List Int
  | 0, _ => []
  | n + 1, w =>
    let r := w % 3
    let t := if r = 2 then -1 else r
    t :: tritsOf n ((w - t) / 3)

/-- Digit m of an unsigned activation (R85). -/
def digitOf (u m : Nat) : Nat := u / 4 ^ m % 4

/-- The sum of R45 over the lanes of one row. -/
def dot : List Nat → List Int → Int
  | d :: ds, t :: ts => (d : Int) * t + dot ds ts
  | _, _ => 0

/-- Girdle weight c(r) of pattern 1 (R59). -/
def girdleWeight (r : Nat) : Int :=
  if ((List.range 9).filter fun i => r.testBit i).length % 2 = 0 then 1 else 2

/-- The representative of an integer modulo 9 in -4 to +4, as two balanced-ternary digits (low, high) (R60). -/
def girdlePair (v : Int) : Int × Int :=
  let r := v % 9
  let r := if r > 4 then r - 9 else r
  let m := r % 3
  let lo := if m = 2 then -1 else m
  (lo, (r - lo) / 3)

/-! ### Alignment (R90-R95) -/

/-- The source value of an OCP element code, as sign, magnitude and exponent, scale excluded; none when it is
non-finite. MF4 gives the doubled integer at exponent 0. -/
def elemValue (c code : Nat) : Option (Bool × Nat × Int) :=
  match c with
  | 4 =>
    let mags := [0, 1, 2, 3, 4, 6, 8, 12]
    some (code.testBit 3, mags.getD (code % 8) 0, 0)
  | 5 =>
    let e := bitsOf code 6 3
    let m := code % 8
    if e = 15 ∧ m = 7 then none
    else if e = 0 then some (code.testBit 7, m, -9) else some (code.testBit 7, m + 8, (e : Int) - 10)
  | 6 =>
    let e := bitsOf code 6 2
    let m := code % 4
    if e = 31 then none
    else if e = 0 then some (code.testBit 7, m, -16) else some (code.testBit 7, m + 4, (e : Int) - 17)
  | _ =>
    match flBf16 code with
    | .fin n m e => some (n, m, e)
    | _ => none

/-- The result of aligning a chunk of 128 elements: the integers, the chunk exponent, whether any element was rounded,
whether the exponent was clamped at -128. -/
structure Aligned where
  ints : List Int
  exp : Int
  rounded : Bool
  clamped : Bool
  deriving DecidableEq, Repr

/-- Alignment of an MF4 chunk (R91): doubled integers and their blocks' scale fields. -/
def alignMf4 (ds : List (Int × Nat)) : Except Nat Aligned :=
  let xmax : Nat := ds.foldl (fun a d => max a d.2) 0
  if ds.any (fun d => d.2 = 255) then .error 1
  else if (xmax : Int) - 128 > 127 then .error 2
  else
    .ok { ints := ds.map fun d => rneDiv d.1 (2 ^ (xmax - d.2)), exp := (xmax : Int) - 128,
          rounded := ds.any fun d => d.1 % 2 ^ (xmax - d.2) ≠ 0, clamped := false }

/-- Alignment of exact values m * 2^e (R92, R93) at magnitude width N. -/
def alignFloat (n : Nat) (vs : List (Bool × Nat × Int)) : Except Nat Aligned :=
  let lmax := vs.foldl (fun (a : Option Int) v =>
    if v.2.1 = 0 then a else
      let l := (Nat.log2 v.2.1 : Int) + v.2.2
      match a with
      | none => some l
      | some b => some (max b l)) none
  match lmax with
  | none => .ok { ints := vs.map fun _ => 0, exp := -128, rounded := false, clamped := false }
  | some l =>
    let e0 := l - ((n : Int) - 1)
    let e := max e0 (-128)
    if e > 127 then .error 2
    else
      let scale := fun (v : Bool × Nat × Int) =>
        let sh := v.2.2 - e
        let i := sMag v.1 v.2.1
        if 0 ≤ sh then (i * 2 ^ sh.toNat, false)
        else (rneDiv i (2 ^ (-sh).toNat), i % 2 ^ (-sh).toNat ≠ 0)
      .ok { ints := vs.map fun v => (scale v).1, exp := e, rounded := vs.any fun v => (scale v).2,
            clamped := e0 < -128 }

/-- Element `i` of packed fields of `w` bits (w divides 8). -/
def packedAt (bs : Bytes) (w i : Nat) : Nat :=
  ((bs.getD (i * w / 8) 0).toNat / 2 ^ (i * w % 8)) % 2 ^ w

/-- The codes of a stored chunk row (R97), with their block scales (127 where the format has none). -/
def storedCodes (c : Nat) (row : Bytes) : List (Nat × Nat) :=
  (List.range 128).map fun i =>
    match c with
    | 4 => (packedAt (row.drop 4) 4 i, (row.getD (i / 32) 0).toNat)
    | 5 => ((row.getD (4 + i) 0).toNat, (row.getD (i / 32) 0).toNat)
    | 6 => ((row.getD (4 + i) 0).toNat, (row.getD (i / 32) 0).toNat)
    | 7 => (fieldAt row (2 * i) 2, 127)
    | _ => (packedAt row (fmtStoredBits c) i, 127)

/-- A stored chunk row read and aligned for the weight role; causes of R111: 1 non-finite, 2 exponent above 127,
3 T1 code 10b. -/
def alignStored (c : Nat) (row : Bytes) : Except Nat Aligned :=
  let codes := storedCodes c row
  if fmtScaled c then
    if codes.any (fun x => x.2 = 255) then .error 1 else
    let vals := codes.map fun x => (elemValue c x.1).map fun v => (v, x.2)
    if vals.any Option.isNone then .error 1 else
    let vals := vals.filterMap id
    if c = 4 then alignMf4 (vals.map fun v => (sMag v.1.1 v.1.2.1, v.2))
    else alignFloat (fmtN c true) (vals.map fun v =>
      (v.1.1, v.1.2.1, v.1.2.2 + (if c = 7 then 0 else (v.2 : Int) - 127)))
  else if c = 0 && codes.any (fun x => x.1 = 2) then .error 3
  else .ok { ints := codes.map fun x => signedOf (fmtStoredBits c) x.1, exp := 0, rounded := false, clamped := false }

/-! ### Plane records (R98-R102) -/

def recordBytes : Nat := 15360

/-- Five trits per byte (R99). -/
def packTrits : List Int → Bytes
  | a :: b :: c :: d :: e :: l =>
    BitVec.ofInt 8 ((a + 1) + 3 * (b + 1) + 9 * (c + 1) + 27 * (d + 1) + 81 * (e + 1)) :: packTrits l
  | _ => []

/-- Trit `i` of a record (R99). -/
def tritAt (bs : Bytes) (i : Nat) : Int := (((bs.getD (i / 5) 121#8).toNat / 3 ^ (i % 5)) % 3 : Nat) - 1

/-- The 128 trits of a record row. -/
def recTrits (bs : Bytes) (row : Nat) : List Int :=
  let part := (bs.drop (128 * row / 5)).take 27
  (List.range 128).map fun j => tritAt part (128 * row % 5 + j)

def recSum (bs : Bytes) (row : Nat) : Int := signedOf 16 (fieldAt bs (13312 + 2 * row) 2)
def recExp (bs : Bytes) (row : Nat) : Int := signedOf 8 (fieldAt bs (14352 + row) 1)
def recField (bs : Bytes) (off n : Nat) : Nat := fieldAt bs (14872 + off) n

/-- The identity that a record must carry (R102). -/
structure RecId where
  context : Nat
  copy : Nat
  operand : Nat
  format : Nat
  rowTile : Nat
  chunk : Nat
  trit : Nat
  deriving DecidableEq, Repr

/-- The checks of R53 and R102 on a record. -/
def recordOk (girdle : Nat) (id : RecId) (bs : Bytes) : Bool :=
  let rows := recField bs 24 2
  let lanes := recField bs 26 2
  let fmt := recField bs 21 1
  let flags := recField bs 23 1
  let trit := recField bs 20 1
  bs.length == recordBytes
  && (bs.take 13312).all (fun b => b.toNat ≤ 242)
  && recField bs 0 2 == 1 && recField bs 2 2 == girdle
  && fmt ≤ 7 && recField bs 22 1 == fmtTrits fmt && trit < fmtTrits fmt
  && flags.testBit 0 == (trit + 1 == fmtTrits fmt) && flags.testBit 1 == fmtScaled fmt && flags < 8
  && recField bs 4 4 == id.context && recField bs 8 4 == id.copy && recField bs 28 4 == id.operand
  && recField bs 12 4 == id.rowTile && recField bs 16 4 == id.chunk && trit == id.trit && fmt == id.format
  && 1 ≤ rows && rows ≤ 512 && 1 ≤ lanes && lanes ≤ 128
  && (List.range 516).all (fun r =>
      let ts := recTrits bs r
      recSum bs r == ts.foldl (· + ·) 0
      && (ts.drop lanes).all (· == 0)
      && (r < rows || 512 ≤ r || ts.all (· == 0)))
  && (List.range 4).all (fun r => (recTrits bs (516 + r)).all (· == 0))
  && (List.range 520).all (fun r => recExp bs r == 0 || (r < 512 && fmtScaled fmt))
  && (bs.drop (14872 + 32)).all (· == 0#8)

/-- The girdle trits of one lane (R60): G0, G1, G2, G3 from the lane's 512 compute trits. -/
def girdleTrits (ws : List Int) : List Int :=
  let s := ws.foldl (· + ·) 0
  let c := (ws.zipIdx.map fun w => girdleWeight w.2 * w.1).foldl (· + ·) 0
  let a := girdlePair s
  let b := girdlePair c
  [a.1, a.2, b.1, b.2]

/-- The girdle recomputation of R199 on a record. -/
def girdleOk (bs : Bytes) : Bool :=
  let rows := (List.range 516).map fun r => recTrits bs r
  (List.range 128).all fun j =>
    let col := rows.map fun ts => ts.getD j 0
    girdleTrits (col.take 512) == col.drop 512

/-- A plane record built from 512 rows of trits and exponents (R98-R101). `rowsV` and `lanesV` are ROWS_VALID and LANES_VALID;
`flag2`: converted on the device. -/
def buildRecord (girdle : Nat) (id : RecId) (rowsV lanesV : Nat) (flag2 : Bool) (rows : List (List Int)) (exps : List Int) : Bytes :=
  let gird := (List.range 128).map fun j => girdleTrits (rows.map fun ts => ts.getD j 0)
  let gRows := (List.range 4).map fun g => gird.map fun l => l.getD g 0
  let all : List (List Int) := rows ++ gRows
  let zeros := List.replicate 512 (0 : Int)
  let sums : List Int := all.map fun ts => ts.foldl (fun a b => a + b) 0
  let n := fmtTrits id.format
  packTrits (all.flatten ++ zeros)
  ++ ((sums ++ [0, 0, 0, 0]).map fun v => leBytes 2 (unsignedOf 16 v)).flatten
  ++ ((exps ++ [0, 0, 0, 0, 0, 0, 0, 0]).map fun v => BitVec.ofInt 8 v)
  ++ leBytes 2 1 ++ leBytes 2 girdle ++ leBytes 4 id.context ++ leBytes 4 id.copy ++ leBytes 4 id.rowTile
  ++ leBytes 4 id.chunk ++ leBytes 1 id.trit ++ leBytes 1 id.format ++ leBytes 1 n
  ++ leBytes 1 ((if id.trit + 1 = n then 1 else 0) + (if fmtScaled id.format then 2 else 0) + (if flag2 then 4 else 0))
  ++ leBytes 2 rowsV ++ leBytes 2 lanesV ++ leBytes 4 id.operand ++ List.replicate 456 0#8

/-- What the plane converter makes of a stored tile (R105-R107, R109): the n records in trit order, the chunk rows in
which alignment rounded and those whose exponent was clamped (R110); or the cause of the refusal. Of several causes that of the
first row is told (R111 does not say which; DESIGN CHOICE, log entry 100). -/
def convertTile (girdle : Nat) (id : RecId) (rowsV lanesV : Nat) (tile : Bytes) : Except Nat (List Bytes × Nat × Nat) :=
  let sz := fmtRowBytes id.format
  let rows := (List.range 512).map fun r => alignStored id.format ((tile.drop (r * sz)).take sz)
  let bad := rows.filterMap fun r => match r with
    | .error c => some c
    | .ok _ => none
  match bad with
  | c :: _ => .error c
  | [] =>
    let rows := rows.filterMap Except.toOption
    let n := fmtTrits id.format
    let trits := rows.map fun r => r.ints.map (tritsOf n)
    let exps := rows.map fun r => r.exp
    .ok ((List.range n).map (fun k =>
        buildRecord girdle { id with trit := k } rowsV lanesV true (trits.map fun ts => ts.map fun t => t.getD k 0) exps),
      (rows.filter fun r => r.rounded).length, (rows.filter fun r => r.clamped).length)

/-! ### Activation tiles (R103, R104) -/

/-- The length in bytes of an aligned tile of V vectors, padding included. -/
def tileBytes (c v : Nat) : Nat :=
  ceilDiv (v * 128 * fmtContainer c / 8 + (if fmtScaled c then v else 0)) 64 * 64

/-- The container of vector v, lane j. -/
def tileU (c : Nat) (tile : Bytes) (v j : Nat) : Nat :=
  let w := fmtContainer c
  let i := v * 128 + j
  if w < 8 then packedAt tile w i else fieldAt tile (i * w / 8) (w / 8)

/-- The chunk exponent of vector v; 0 for an integer format. -/
def tileExp (c : Nat) (tile : Bytes) (tileVecs v : Nat) : Int :=
  if fmtScaled c then signedOf 8 (fieldAt tile (tileVecs * 128 * fmtContainer c / 8 + v) 1) else 0

/-- The 128 containers of vector v. -/
def tileVec (c : Nat) (tile : Bytes) (v : Nat) : List Nat := (List.range 128).map fun j => tileU c tile v j

/-- A vector of an aligned tile meets R103: every container within u's range, and lanes beyond the operand's length
hold the value 0, that is u = offset. -/
def tileVecOk (c lanes : Nat) (us : List Nat) : Bool :=
  us.all (fun u => u ≤ fmtUmax c) && (us.drop lanes).all (fun u => u == fmtOffset c)

/-- The unsigned value carried in a repeat at scale step s (R120): RNE(a / 2^s) + off. -/
def scaledU (c s u : Nat) : Nat :=
  let off := fmtOffset c
  (rneDiv ((u : Int) - off) (2 ^ s) + (off : Int)).toNat

/-- Containers packed into bytes, least significant first. -/
def packContainers (w : Nat) (us : List Nat) : Bytes :=
  if w < 8 then
    (List.range (us.length * w / 8)).map fun i =>
      BitVec.ofNat 8 ((List.range (8 / w)).foldl (fun a j => a + us.getD (i * (8 / w) + j) 0 * 2 ^ (j * w)) 0)
  else (us.map fun u => leBytes (w / 8) u).flatten

/-- An aligned activation tile from V vectors of 128 aligned integers with their exponents (R103). -/
def buildTile (c : Nat) (vecs : List (List Int × Int)) : Bytes :=
  let us := (vecs.map fun v => v.1.map fun (a : Int) => (a + fmtOffset c).toNat).flatten
  let body := packContainers (fmtContainer c) us ++ (if fmtScaled c then vecs.map fun v => BitVec.ofInt 8 v.2 else [])
  body ++ List.replicate (tileBytes c vecs.length - body.length) 0#8

end Sys2Proof.Machine
end

