-- ==== Sys2Proof/Machine/Accum.lean ====
section
/-! DEFINITION. Accum.lean: the values of accumulator elements, their slots, merges, winners and output forms (R112,
R117, R122-R133), as functions of packed slot contents. -/

namespace Sys2Proof.Machine

/-- Slots per element (R112). -/
def modeSlots : Mode → Nat
  | .integer => 1
  | .scaled => 2
  | .wide => 4

/-- The value of an element: (-1)^neg * mag * 2^exp, with its inexact flag (R122, R127); integer elements have exp 0
and inexact false. -/
structure Elem where
  neg : Bool
  mag : Nat
  exp : Int
  inexact : Bool
  deriving DecidableEq, Repr

/-- The signed integer of an element at its exponent. -/
def Elem.int (v : Elem) : Int := sMag v.neg v.mag

/-- An element from a signed integer; a zero has SIGN 0. -/
def Elem.ofInt (i e : Int) (inexact : Bool) : Elem :=
  { neg := decide (i < 0), mag := i.natAbs, exp := e, inexact := inexact }

/-- Width of MAG. -/
def magBits : Mode → Nat
  | .wide => 128
  | _ => 64

/-- The element packed least significant slot first (R112, R122, R127). -/
def Elem.pack (m : Mode) (v : Elem) : Nat :=
  match m with
  | .integer => unsignedOf 40 v.int
  | _ =>
    let w := magBits m
    v.mag % 2 ^ w + (if v.neg then 2 ^ w else 0) + unsignedOf 10 v.exp * 2 ^ (w + 1)
      + (if v.inexact then 2 ^ (w + 11) else 0)

/-- The reading of packed slots. -/
def Elem.unpack (m : Mode) (n : Nat) : Elem :=
  match m with
  | .integer => Elem.ofInt (signedOf 40 n) 0 false
  | _ =>
    let w := magBits m
    { neg := n.testBit w, mag := n % 2 ^ w, exp := signedOf 10 (n / 2 ^ (w + 1)), inexact := n.testBit (w + 11) }

/-- A first-flag pass writes its term at exponent e (R117, R123). -/
def elemStart (m : Mode) (e term : Int) : Elem :=
  match m with
  | .integer => Elem.ofInt term 0 false
  | _ => Elem.ofInt term e false

/-- A later pass adds its term at the element's exponent. -/
def elemAdd (m : Mode) (v : Elem) (term : Int) : Elem :=
  match m with
  | .integer => Elem.unpack .integer (unsignedOf 40 (v.int + term))
  | _ => Elem.ofInt (v.int + term) v.exp v.inexact

/-- The exponent of the leading bit of a non-zero element (R124). -/
def Elem.lead (v : Elem) : Int := (Nat.log2 v.mag : Int) + v.exp

/-- The merge of two elements (R124, R127): an exact add in integer mode; else the exact sum rounded once, to nearest
even, at the window LSB 2^(Lm - 62) (wide: 2^(Lm - 126)). Where both have MAG 0 the rule names either: B (DESIGN CHOICE, log
entry 101). -/
def elemMerge (m : Mode) (a b : Elem) : Elem :=
  match m with
  | .integer => elemAdd .integer a b.int
  | _ =>
    if a.mag = 0 then b else if b.mag = 0 then a else
    let lsb := max a.lead b.lead - ((magBits m : Int) - 2)
    let e := min a.exp b.exp
    let s := a.int * 2 ^ (a.exp - e).toNat + b.int * 2 ^ (b.exp - e).toNat
    let sh := lsb - e
    if sh ≤ 0 then Elem.ofInt (s * 2 ^ (-sh).toNat) lsb (a.inexact || b.inexact)
    else Elem.ofInt (rneDiv s (2 ^ sh.toNat)) lsb (a.inexact || b.inexact || decide (s % 2 ^ sh.toNat ≠ 0))

/-- Exact comparison of two element values, a < b (R132). -/
def Elem.lt (a b : Elem) : Bool :=
  let e := min a.exp b.exp
  a.int * 2 ^ (a.exp - e).toNat < b.int * 2 ^ (b.exp - e).toNat

/-- A winner: a value and the index of its row (R132). -/
structure Winner where
  value : Elem
  index : Nat
  deriving DecidableEq, Repr

/-- The better of two winners; of equal values the lower index wins (R132). -/
def Winner.best (isMax : Bool) (a b : Winner) : Winner :=
  let better := if isMax then Elem.lt b.value a.value else Elem.lt a.value b.value
  let worse := if isMax then Elem.lt a.value b.value else Elem.lt b.value a.value
  if better then a else if worse then b else if a.index ≤ b.index then a else b

/-! ### Output forms (R129-R131) -/

/-- Whether a drain form (0 S32, 1 X40, 2 W64) is allowed for a mode (R129). -/
def formAllowed (m : Mode) (form : Nat) : Bool :=
  match m with
  | .integer => form == 0
  | .scaled => form == 1
  | .wide => form == 1 || form == 2

/-- RNE(value / 2^q) for an element. -/
def Elem.at (v : Elem) (q : Int) : Int :=
  let sh := v.exp - q
  if 0 ≤ sh then v.int * 2 ^ sh.toNat else rneDiv v.int (2 ^ (-sh).toNat)

/-- The element rounded to `p` magnitude bits: M with |M| in [2^(p-1), 2^p) and its exponent q (R131). -/
def Elem.normal (p : Nat) (v : Elem) : Int × Int :=
  let q := v.lead - ((p : Int) - 1)
  let m := v.at q
  if m.natAbs = 2 ^ p then (if m < 0 then -(2 ^ (p - 1) : Int) else 2 ^ (p - 1), q + 1) else (m, q)

/-- The X40 base of a tile (R131). -/
def x40Base (vs : List Elem) : Int :=
  let qs := (vs.filter fun v => v.mag ≠ 0).map fun v => (v.normal 31).2
  match qs with
  | [] => 0
  | q :: qs => qs.foldl max q - 127

/-- One X40 element at a base: five bytes and whether the low clamp acted. -/
def x40Elem (base : Int) (v : Elem) : Bytes × Bool :=
  if v.mag = 0 then (leBytes 4 0 ++ [BitVec.ofInt 8 (-128)], false) else
  let (m, q) := v.normal 31
  if q < base - 128 then (leBytes 4 (unsignedOf 32 (v.at (base - 128))) ++ [BitVec.ofInt 8 (-128)], true)
  else (leBytes 4 (unsignedOf 32 m) ++ [BitVec.ofInt 8 (q - base)], false)

/-- One W64 element: sixteen bytes. -/
def w64Elem (v : Elem) : Bytes :=
  let (m, e) := if v.mag = 0 then (0, 0) else v.normal 63
  leBytes 8 (unsignedOf 64 m) ++ leBytes 2 (unsignedOf 16 e) ++ leBytes 1 (if v.inexact then 1 else 0)
    ++ List.replicate 5 0#8

/-- One element in a form; the second component is the low clamp. -/
def formElem (form : Nat) (base : Int) (v : Elem) : Bytes × Bool :=
  match form with
  | 0 => (leBytes 4 (unsignedOf 32 v.int), false)
  | 1 => x40Elem base v
  | _ => (w64Elem v, false)

/-- Header fields of a sum tile that come from the command and its binding (R130, R159). -/
structure TileHead where
  form : Nat
  winners : Bool
  scaleTag : Nat
  repeated : Bool
  rows : Nat
  vectors : Nat
  context : Nat
  copy : Nat
  operand : Nat
  rowTile : Nat
  deriving DecidableEq, Repr

/-- Bytes of one element of a form. -/
def formBytes (form : Nat) (winners : Bool) : Nat :=
  (match form with
    | 0 => 4
    | 1 => 5
    | _ => 16) + (if winners then 4 else 0)

/-- A drained sum or winner tile (R130, R131): the header, the elements with vector 0 first and rows upward, zero
padding to a multiple of 64. -/
def sumTile (h : TileHead) (elems : List (Elem × Nat)) : Bytes :=
  let base := if h.form = 1 then x40Base (elems.map fun e => e.1) else 0
  let enc := elems.map fun e =>
    let (b, c) := formElem h.form base e.1
    (b ++ (if h.winners then leBytes 4 e.2 else []), c)
  let flags := (if elems.any (fun e => e.1.inexact) then 1 else 0) + (if h.repeated then 2 else 0)
    + (if enc.any (fun e => e.2) then 4 else 0)
  let body := leBytes 1 (h.form + if h.winners then 3 else 0) ++ leBytes 1 h.scaleTag ++ leBytes 1 flags ++ leBytes 1 0
    ++ leBytes 2 h.rows ++ leBytes 2 h.vectors ++ leBytes 2 (unsignedOf 16 base) ++ leBytes 2 0
    ++ leBytes 4 h.context ++ leBytes 4 h.copy ++ leBytes 4 h.operand ++ leBytes 4 h.rowTile
    ++ List.replicate 36 0#8 ++ (enc.map fun e => e.1).flatten
  body ++ List.replicate (ceilDiv body.length 64 * 64 - body.length) 0#8

/-- The length of that tile in bytes. -/
def sumTileBytes (form : Nat) (winners : Bool) (rows vectors : Nat) : Nat :=
  ceilDiv (64 + rows * vectors * formBytes form winners) 64 * 64

/-- The scale step s of R120: the least s >= 1 for which every value fits S32 after 2^s; 0 where all fit already. -/
def satStep (vs : List Int) : Nat :=
  let fits := fun (s : Nat) => vs.all fun v => -(2 ^ (31 + s) : Int) ≤ v && v ≤ (2 ^ (31 + s) : Int) - 1
  if fits 0 then 0 else
  ((List.range 16).map (· + 1)).find? fits |>.getD 16

end Sys2Proof.Machine
end

