-- ==== Sys2Proof/Machine/State.lean ====
section
/-! DEFINITION. State.lean: the state of the D32 block as plain data, its faults and refusals, and the state right after
power-up. Numbers that the manual treats as words are naturals below their width; octet strings are lists of bytes. -/

namespace Sys2Proof.Machine

/-! ## Values, frames and what the device sends -/

/-- The value of one object subindex (R10): a number (B, U8 to U64; S32 and F32 as their 32-bit patterns, S64 as its
64-bit pattern) or an octet string (TEXT, BLOB). -/
inductive Val
  | num (n : Nat)
  | bytes (b : Bytes)
  deriving DecidableEq, Repr

/-- A peer frame (R455): the header fields and its payload, RECORD included in `record`. -/
structure PeerFrame where
  type : Byte
  flags : Byte
  srcOrd : Nat
  destOrd : Nat
  hops : Nat
  channel : Nat
  seq : Nat
  ackSeq : Nat
  ringId : Nat
  creditField : Nat
  record : Bytes
  payload : Bytes
  /-- The CRC-32 with which it was sent. -/
  crc : BitVec 32 := 0
  /-- The input port whose buffer the frame holds until it leaves (R458); none for an own frame. -/
  via : Option PeerPort := none
  /-- The buffer that its acknowledgement releases (R226): EIC, stream, serial number, receiver; for the last frame of a stream's
  block buffer. -/
  frees : Option (Nat × Nat × Nat × Nat) := none
  deriving DecidableEq, Repr

/-- What the block sends to the outside or to its scheduler, in the order in which it is sent. -/
inductive Out
  /-- A frame out of a Kangeiz port (R392). -/
  | ring (port : RingPort) (f : Frame)
  /-- A frame out of a peer port (R455). -/
  | peer (port : PeerPort) (f : PeerFrame)
  /-- A 2 ms probe pulse of a SHUT port (R389, R450). -/
  | pulse (port : EyePort)
  /-- The completion token of a FENCE with SIGNAL (R160): engine, task, token value. -/
  | token (engine : EngineId) (task value : Nat)
  /-- The failed lane of a port, signalled to the far end in the alignment markers (R388, R449). -/
  | laneFailed (port : EyePort) (lane : Nat)
  deriving DecidableEq, Repr

/-- One event record of R407 less NUMBER's bit 31, which the queue gives. -/
structure EventRec where
  code : Nat
  unit : Nat
  number : Nat
  stamp : Nat
  data : Bytes
  /-- The model's clock when it was queued. -/
  queuedAt : Nat
  deriving DecidableEq, Repr

/-- One event queue of R407: its records, how many it has numbered, the NUMBER last queued (0 none), and the records lost since
its space last ran out, with the number of the first. -/
structure EventQueue where
  recs : List EventRec
  next : Nat
  last : Nat
  dropped : Nat
  firstLost : Nat
  deriving DecidableEq, Repr

/-- The two event queues of R407, that of SYS and LNK's own. -/
structure Events where
  sys : EventQueue
  lnk : EventQueue
  deriving DecidableEq, Repr

/-! ## Node -/

/-- The node states (R19, R428). -/
inductive NodeState
  | sealed
  | configuring
  | serving
  | quiesced
  | inspect
  | safe
  deriving DecidableEq, Repr

/-- The state code of R428. -/
def NodeState.code : NodeState → Nat
  | .sealed => 0
  | .configuring => 1
  | .serving => 2
  | .quiesced => 3
  | .inspect => 4
  | .safe => 5

/-! ## The Kangeiz ring -/

/-- A confirmed frame that waits for its acknowledgement (R399). -/
structure TxFrame where
  frame : Frame
  sentAt : Nat
  resends : Nat
  deriving DecidableEq, Repr

/-- A segmented write in progress (R402). -/
structure XferIn where
  index : Nat
  sub : Nat
  total : Nat
  data : Bytes
  since : Nat
  deriving DecidableEq, Repr

/-- A buffer whose frames to the control node wait for their acknowledgements (R226, R411): the request, the buffer in its stream,
its receiver, and the segments of the output that carry it. -/
structure OutBuf where
  requestId : Nat
  eic : Nat
  stream : Nat
  buf : Nat
  receiver : Nat
  first : Nat
  last : Nat
  deriving DecidableEq, Repr

/-- The first bit of an unwrapped PROBE as timestamped (R409): its number, its arrival, and its arrival less its CORRECTION,
in parts of a tick (`finePerTick`). -/
structure ProbeSeen where
  id : Nat
  came : Int
  at_ : Int
  deriving DecidableEq, Repr

/-- A waiting frame of a receive map (R406). -/
structure CyclicWait where
  map : Nat
  stamp : Nat
  payload : Bytes
  deriving DecidableEq, Repr

/-- One optical port with eye-safety logic (R389, R450). `lit`: light is being received. -/
structure Eye where
  txOn : Bool
  lit : Bool
  shutAt : Nat
  lastPulse : Nat
  deriving DecidableEq, Repr

/-- The segments of a request received so far (R295). -/
structure SegIn where
  requestId : Nat
  header : Bytes
  bad : Bool
  got : Nat
  data : Bytes
  since : Nat
  deriving DecidableEq, Repr

/-- The link controller's state of the Kangeiz ring (R386-R413). -/
structure Ring where
  /-- Confirmation toward node 0 (R397, R399). -/
  txNext : Nat
  txSync : Bool
  unacked : List TxFrame
  waiting : List Frame
  /-- Next SEQ expected from node 0; none while no base is held (R399). -/
  rxNext : Option Nat
  /-- The same for frames to 126, which an unassigned device takes (R390, R397). -/
  rxNextAll : Option Nat
  rxHeld : List Frame
  xfers : Vector (Option XferIn) 8
  segs : List SegIn
  cyclic : List CyclicWait
  probes : Vector (Option ProbeSeen) 2
  /-- The valid probe pairs (R409): a probe's number and t1 - t0 in the same parts. -/
  pairs : List (Nat × Int)
  /-- The frame of the counter in which FOREIGN_RING was last raised. -/
  foreignFrame : Option Nat
  /-- Model clock at the last frame consumed from node 0 (R412). -/
  node0At : Nat
  node0Silent : Bool
  heartbeatAt : Nat
  outBufs : List OutBuf
  /-- The latest segmented read of each transfer number: number, index, subindex (R402). -/
  reads : List (Nat × Nat × Nat)
  /-- KIND of a remote reset whose event is still to be raised (R413); 0 none. -/
  remoteReset : Nat
  deriving DecidableEq, Repr

/-! ## The persistent store -/

/-- The persistent store in on-package flash (R438-R442): the latest saved value of each entry, records whose entries
the firmware finds changed, the bytes used in the active bank, the bank sequence number, and whether a bank with a valid header
exists (no command changes that). -/
structure Persist where
  values : List (Nat × Val)
  /-- Context registrations (R185): number, MODEL, STAGE, deregistration accepted. -/
  regs : List (Nat × Nat × Nat × Bool)
  used : Nat
  bankSeq : Nat
  usable : Bool
  deriving DecidableEq, Repr
/-! ## Rings, locking and calibration -/

/-- A ring as its loop holds it (R335-R341, R360): the loop state's code of R337 and, during a supply dip, that before the dip;
the identity of the last measurement (0 not measured, 1 confirmed, 2 wrong-line, 3 unidentified), the line then identified, and the
recovery rounds of R341 made. Its heater code is that of its output. -/
structure RingLoop where
  loop : Nat
  before : Nat
  ident : Nat
  line : Nat
  rounds : Nat
  deriving DecidableEq, Repr

/-- A relock in progress (R342-R344): its trigger mask of 7015h, the clock at its start, the planes of the row check
repeated after a row was retired, and whether an acquisition was needed; the syndromes and the stamp of the symbol with the
wide suspect set that it follows (R69, R80), 0 and the stamp of its start for another trigger. -/
structure Relock where
  triggers : Nat
  since : Nat
  checkRepeated : Bool
  /-- The row check of step 7 has passed. -/
  checked : Bool
  acquires : Bool
  synd : Nat
  symAt : Nat
  deriving DecidableEq, Repr

/-- The rolling calibration in progress (R350-R353): its row, its stand-in, the clock at its start, whether the map's
change has reached the rings, whether a shadow load through the changed map has begun, whether the first try failed, and
whether only the map's return is still to come. -/
structure CalRun where
  row : Nat
  standIn : Option Nat
  since : Nat
  inEffect : Bool
  armed : Bool
  failedOnce : Bool
  returning : Bool
  deriving DecidableEq, Repr

/-- The locking and calibration side of one facet. -/
structure Optic where
  /-- Every ring that `rings` does not list: key 128 * physical row + lane. -/
  base : RingLoop
  rings : List (Nat × RingLoop)
  relock : Option Relock
  /-- Failed relocks since the facet became HELD. -/
  heldFails : Nat
  cal : Option CalRun
  /-- The physical row calibrated last. -/
  calLast : Nat
  calStart : Nat
  /-- Second of each row's last calibration, and that of the rows not listed. -/
  calAt : List (Nat × Nat)
  calBase : Nat
  /-- Idle spares whose last cycle failed (R353). -/
  spareFails : List Nat
  calPaused : Bool
  overdueRaised : Bool
  /-- Overdue rows are being calibrated in place (R354). -/
  inPlace : Bool
  inPlaceRepeated : Bool
  deriving DecidableEq, Repr

/-! ## Facets -/

/-- The role of a physical row (R51, R79). -/
inductive Role
  | inUse
  | idleSpare
  | standingIn
  | retired
  | unfit
  deriving DecidableEq, Repr

/-- One entry of the row map (R79). `logical` is 3FFh for none. -/
structure RowEntry where
  logical : Nat
  role : Role
  cal : Bool
  deriving DecidableEq, Repr

/-- What names a plane (R150, R154): its source and the fields expected in its record. -/
structure PlaneId where
  kind : Nat
  src : Nat
  context : Nat
  copy : Nat
  operand : Nat
  format : Nat
  rowTile : Nat
  chunk : Nat
  trit : Nat
  zero : Bool
  deriving DecidableEq, Repr

/-- A handle in a dowel queue (R224), with the stream and buffer it belongs to. -/
structure QItem where
  handle : Nat
  eic : Nat
  stream : Nat
  buf : Nat
  deriving DecidableEq, Repr

/-- A buffer whose handle has been popped and whose blocks stay pinned until release (R226, R228). -/
structure Hold where
  station : Nat
  queue : Nat
  eic : Nat
  stream : Nat
  buf : Nat
  deriving DecidableEq, Repr

/-- A plane in the rings or in the shadow states (R46). `bytes` is its record; empty for the all-zero plane. -/
structure Plane where
  id : PlaneId
  bytes : Bytes
  hold : Option Hold
  prio : Bool
  task : Nat
  deriving DecidableEq, Repr

/-- The shadow states (R54): the plane being loaded, and whether its load is complete. -/
structure Shadow where
  plane : Plane
  loaded : Bool
  deriving DecidableEq, Repr

/-- The run of one PASS command (R153), kept until each of its symbols has an accepted verdict. -/
structure Run where
  serial : Nat
  prio : Bool
  task : Nat
  plane : PlaneId
  tile : Bytes
  aFormat : Nat
  wFormat : Nat
  tileVecs : Nat
  digit : Nat
  next : Nat
  stop : Nat
  slotNext : Nat
  first : Bool
  last : Bool
  mode : Mode
  merge : Bool
  mergeDst : Nat
  count : Nat
  slotBase : Nat
  budget : Nat
  hold : Option Hold
  /-- The queue and its handle that it pops at its first symbol (R153). -/
  popQ : Option (Nat × QItem)
  /-- Scale step s of a repeat under R120. -/
  scale : Nat
  deriving DecidableEq, Repr

/-- A symbol in the retry buffer (R63). `num` is its place in the order of issue (R71, R74). `bad` holds the logical rows whose
code in the last attempt differed from the sum of R45, with that code, and `phys` the physical rows that carried them then. -/
structure Sym where
  run : Nat
  num : Nat
  digits : List Nat
  plane : PlaneId
  slot : Nat
  first : Bool
  last : Bool
  mode : Mode
  trit : Nat
  digit : Nat
  offset : Nat
  ea : Int
  attempt : Nat
  bad : List (Nat × Int)
  phys : List (Nat × Nat)
  stamp : Nat
  task : Nat
  deriving DecidableEq, Repr

/-- A confirmation attempt (R67): its symbol, the suspect logical rows, and whether it has been issued; a stop of the facet's
passes discards its codes, and it is issued once more afterwards (R74). -/
structure Confirm where
  sym : Sym
  rows : List Nat
  issued : Bool
  deriving DecidableEq, Repr

/-- A scaled code on its way through the adder tree (R117, R123): one term and one chunk exponent for each of the 512
logical compute rows; an empty list stands for zeros. -/
structure CodeWrite where
  slot : Nat
  mode : Mode
  first : Bool
  last : Bool
  task : Nat
  terms : List Int
  exps : List Int
  deriving DecidableEq, Repr

/-- The states of a slot index (R114). -/
inductive SlotState
  | free
  | opened
  | complete
  | invalid
  deriving DecidableEq, Repr

/-- What the facet keeps for the element at a slot index (R114, R149). `owner` is FFFFh for none. `closing`: a pass with the
last flag has been issued and not yet written (R115). `part`: one slot left over from an element of which another pass took
some slots. `rowTile`: the row tile of the pass that started it, for the events of R145. -/
structure SlotMeta where
  state : SlotState
  mode : Mode
  inTree : Nat
  owner : Nat
  closing : Bool
  part : Bool
  rowTile : Nat
  deriving DecidableEq, Repr

/-- A TREE declaration (R156). -/
structure TreeDecl where
  task : Nat
  pos : Nat
  posMask : Nat
  ordMask : Nat
  deriving DecidableEq, Repr

/-- Elements or winners received from the holder of a child subtree (R158, R133): the sending facet, or 32 plus the sending
ordinal, and the queue of its task; the scale step at which they were formed, which winners carry
as their tag (R120, R132); for elements from another device, whether the frame
that ended the transfer has come. -/
structure Inbound where
  src : Nat
  prio : Bool
  tag : Nat
  closed : Bool
  task : Nat
  level : Nat
  mode : Mode
  count : Nat
  winners : Bool
  /-- Element i of row r stands at 512 * i + r as its g slots packed least significant first; winners: value, then index. -/
  values : List Nat
  deriving DecidableEq, Repr

/-- A drain that has begun (R159). Its holders are those that TREE gave when it began (R156): `children`, each level with the
holder of its child subtree, `ins`, the winners of children that it has taken, and `parent`, the holder to which it sends, with
that holder's facet where the device's tree named it. -/
structure DrainJob where
  prio : Bool
  task : Nat
  context : Nat
  copy : Nat
  operand : Nat
  op : Nat
  form : Nat
  slotBase : Nat
  vectors : Nat
  row : Nat
  rows : Nat
  outQ : Nat
  outTag : Nat
  rowTile : Nat
  indexBase : Nat
  dest : Bool
  gather : Nat
  free : Bool
  /-- Repeats made and the scale step in force (R120). -/
  repeats : Nat
  scale : Nat
  since : Nat
  /-- The elements that a repeat has still to write anew before the drain goes on (R120). -/
  stale : List Nat
  children : List (Nat × Nat)
  ins : List Inbound
  parent : Option (Nat × Option Nat)
  /-- The buffer that it has written and that waits for its push (R227): EIC, stream, serial number. -/
  pushing : Option (Nat × Nat × Nat)
  deriving DecidableEq, Repr

/-- A merge in commanded order (R125, R155, R157): COUNT elements, B into A. `run`: the run with MERGE whose elements it
merges; none for a MERGE command, which has begun. `operand` is that of the binding it began under (R145), `scale` the step of
the repeat it belongs to (R120), else 0. -/
structure MergeJob where
  prio : Bool
  task : Nat
  operand : Nat
  scale : Nat
  aBase : Nat
  bBase : Nat
  count : Nat
  run : Option Nat
  deriving DecidableEq, Repr

/-- A reduce that has begun (R158): a gather with the transfer it has taken; a send (`got` none) with the holder that TREE gave
when it began, by position or ordinal, and that holder's facet where the device's tree named it. `scale` is the step of the
repeat it belongs to (R120), else 0. -/
structure ReduceJob where
  prio : Bool
  task : Nat
  got : Option Inbound
  level : Nat
  slotBase : Nat
  count : Nat
  scale : Nat
  peer : Nat
  dest : Option Nat
  deriving DecidableEq, Repr

/-- Lock states of a facet (R346). -/
inductive LockState
  | dark
  | starting
  | locked
  | relocking
  | checking
  | held
  deriving DecidableEq, Repr

/-- The state code of R346. -/
def LockState.code : LockState → Nat
  | .dark => 0
  | .starting => 1
  | .locked => 2
  | .relocking => 3
  | .checking => 4
  | .held => 5
/-- One facet: optical state, sequencer state and accumulator memory. -/
structure Facet where
  /-- Row map as its exceptions from the factory map of R51, ascending physical row. -/
  rowMap : List (Nat × RowEntry)
  /-- The maps that the loads of the planes in the rings and in the shadow went through (R52), in the same form. -/
  ringMap : List (Nat × RowEntry)
  shadowMap : List (Nat × RowEntry)
  active : Plane
  shadow : Option Shadow
  /-- A FLIP or PASS asks for the shadow plane at the next boundary R152 allows. -/
  flipWanted : Bool
  /-- The queue whose FLIP asks for it; none for a PASS (R162). -/
  flipAsk : Option Bool
  runs : List Run
  /-- Symbols issued and not yet judged, oldest first. -/
  inflight : List Sym
  /-- Symbols due for a sweep (R71); the head is the one in progress. -/
  sweeps : List Sym
  /-- The confirmation attempt of a symbol (R67). -/
  confirm : Option Confirm
  /-- A swap reload is in progress (R67). -/
  swapping : Bool
  /-- The next first verdict is that of the run's first symbol after a swap reload (R69). -/
  afterSwap : Bool
  /-- Transient mismatches per physical row with their times in seconds (R68). -/
  transients : List (Nat × Nat)
  /-- Physical rows due for a swap under R68. -/
  dueSwap : List Nat
  /-- Times in seconds of suspect sets of three or more rows (R69). -/
  wideSets : List Nat
  /-- Non-zero codes of idle spares: physical row and frame number (R55). -/
  spareHits : List (Nat × Nat)
  writes : List CodeWrite
  /-- Accumulator slots: key row * 2048 + slot, the 40-bit word (R112); unlisted slots hold 0. -/
  acc : List (Nat × Nat)
  /-- Slot indices other than FREE, integer, empty, unowned (R114). -/
  slots : List (Nat × SlotMeta)
  drains : List DrainJob
  merges : List MergeJob
  reduces : List ReduceJob
  inbound : List Inbound
  trees : List TreeDecl
  nextRun : Nat
  nextSym : Nat
  /-- Planes remembered for reload under R164: the fill queue's plane and its pending preload. -/
  fillPlane : Option Plane
  fillPending : Option Plane
  /-- Planes displaced by a swap reload or a restoration, the next to be loaded first (R67, R74). -/
  displaced : List Plane
  /-- The plane flipped out last is in the rings again for the re-issue of its symbols; the newer one follows (R74). -/
  restoring : Bool
  /-- The plane flipped out last, while symbols on it may still be unjudged (R74). -/
  flippedOut : Option Plane
  preempted : Bool
  lock : LockState
  /-- A supply dip of one of the facet's rails is in progress (R497). -/
  dipping : Bool
  /-- Symbols to re-issue after a stop, in order (R74). -/
  reissue : List Sym
  degraded : Bool
  /-- Symbols and ticks charged against the frame allowance of the present frame, and the frame (R274, R282). -/
  chargeFrame : Nat
  charge : Nat
  chargeTicks : Nat
  /-- The model clock since which the rings idle for the load in the shadow (R178). -/
  idleSince : Option Nat
  /-- Symbols of stream and fill class issued under an enforced cap in the interval of 1,024 ticks named first (R525). -/
  capUse : Nat × Nat
  optic : Optic
  deriving DecidableEq, Repr

/-! ## Engines and stations -/

/-- The binding of one queue (R148). -/
structure Binding where
  context : Nat
  copy : Nat
  operand : Nat
  wFormat : Nat
  aFormat : Nat
  task : Nat
  deriving DecidableEq, Repr

/-- One command queue of an engine (R146). `popped` counts the commands that have left it (queue positions). -/
structure CmdQueue where
  cmds : List (BitVec 128)
  binding : Option Binding
  popped : Nat
  /-- True while commands without a binding are being discarded and CMD_MALFORMED has been raised (R148). -/
  unbound : Bool
  /-- The model clock at which the head was first found waiting (R138, R161). -/
  waitAt : Option Nat
  /-- The ticks that the drain at the head waited under R138, once that wait is over (R143). -/
  drainWait : Option Nat
  /-- The aborted task whose commands are discarded up to the next BIND with a different TASK (R165). -/
  discard : Option Nat
  /-- The run of the PASS at the head, which leaves the queue with the run's last symbol (R153, R162). -/
  running : Option Nat
  /-- For the commands of a repeat under R120: the task and the scale step. -/
  repeats : Option (Nat × Nat)
  /-- The buffer that the VSTORE at the head has written and that waits for its push (R227): EIC, stream, serial number. -/
  pushing : Option (Nat × Nat × Nat)
  deriving DecidableEq, Repr

/-- A facet sequencer's or a vector unit's command side: its two queues, and the commands of repeats that the scheduler has
written for them, each repeat with a binding of its own (R120; log entry 96). -/
structure Engine where
  prio : CmdQueue
  fill : CmdQueue
  prioReps : List CmdQueue
  fillReps : List CmdQueue
  deriving DecidableEq, Repr

/-- A biscuit entry in use (R239). -/
structure Biscuit where
  eic : Nat
  stream : Nat
  data : Bytes
  deriving DecidableEq, Repr

/-- Station f: 32 dowel queues and 16 biscuit entries (R221, R239). -/
structure Station where
  queues : Vector (List QItem) 32
  biscuits : Vector (Option Biscuit) 16
  deriving DecidableEq, Repr

/-- A buffer that exists in a stream's pool (R230). `refs` counts the receivers that have yet to release it. `data` is
kept while the buffer is not yet pushed or is a biscuit; the blocks themselves are in staging. -/
structure Buf where
  serial : Nat
  tag : Nat
  first : Nat
  blocks : Nat
  bytes : Nat
  escape : Bool
  refs : Nat
  deriving DecidableEq, Repr

/-- A buffer written completely that waits for its push (R227). -/
structure ReadyBuf where
  buf : Nat
  tag : Nat
  biscuit : Option Bytes
  /-- OUT_KIND of R297 for a buffer that is sent as an output. -/
  kind : Nat
  /-- The receivers that have a biscuit already (R240). -/
  given : List Nat
  deriving DecidableEq, Repr

/-- A receiver of a stream: engine code, queue, still in the group, blocks pushed to it and not released (R248). -/
structure Receiver where
  engine : Nat
  queue : Nat
  inGroup : Bool
  lag : Nat
  /-- For a receiver on another device: the stream credits held (R459), the buffers still to be sent, and those whose
  last frame waits for its acknowledgement (R226). -/
  window : Nat
  unsent : List Nat
  sent : List Nat
  deriving DecidableEq, Repr

/-- A stream in being (R222, R229). -/
structure Stream where
  desc : StreamDesc
  receivers : List Receiver
  nextBlock : Nat
  nextSerial : Nat
  bufs : List Buf
  ready : List ReadyBuf
  /-- The model clock since which its producer waits for credits with every block held (R245), and whether it waits for credits at
  all (R246). -/
  starvedAt : Option Nat
  wants : Bool
  /-- The source whose DATA frames fill it, for a stream produced by the remote fetch engine (R459): its ordinal, plus 64 times the
  RECEIVER that its frames name. -/
  source : Option Nat
  /-- The blocks of a buffer from that source of which not all have arrived. -/
  incoming : Bytes
  /-- Buffers from that source, tag and bytes, that wait for a run of free blocks (R230, R459). -/
  arrived : List (Nat × Bytes)
  /-- An escape grant is outstanding or waits to be used (R245). -/
  granted : Bool
  /-- A catch-up stream, whose pool is part of its group's region: the group's stream number and the receiver's index there (R250). -/
  inner : Option (Nat × Nat)
  deriving DecidableEq, Repr

/-- A jig run (R232-R234): the jig's number and entries, its stream, the open buffer. -/
structure JigRun where
  engine : Nat
  jig : Nat
  eic : Nat
  stream : Nat
  entries : List Nat
  /-- The next emission in loop order (R234). -/
  next : Nat
  tag : Nat
  /-- Emissions made into (or out of) the open buffer, and its bytes. -/
  emitted : Nat
  openBuf : Option Nat
  data : Bytes
  /-- A stored tile of this jig is in the plane converter. -/
  converting : Bool
  /-- What the data is (log entry 25). -/
  what : JigData
  /-- Bytes of the emission in progress still to come from a remote home, and those that have come. -/
  reading : Nat
  got : Bytes
  /-- The buffer that a store jig writes from. -/
  hold : Option Hold
  /-- Records of the first stored tile that a catch-up jig does not repeat. -/
  skip : Nat
  /-- Its loops have ended. -/
  ended : Bool
  /-- A catch-up jig of R250. -/
  catchup : Bool
  /-- The serial number of its first buffer in its stream. -/
  firstSerial : Nat
  deriving DecidableEq, Repr

/-- A stored tile inside the plane converter of a pair (R107), with the stream of its jig, and, once converted, the
records whose buffers have still to be written. -/
structure ConvertJob where
  eic : Nat
  stream : Nat
  task : Nat
  skip : Nat
  made : Bool
  records : List Bytes
  context : Nat
  copy : Nat
  operand : Nat
  rowTile : Nat
  chunk : Nat
  /-- ROWS_VALID and LANES_VALID of its records (R101). -/
  rows : Nat
  lanes : Nat
  /-- Its records are offered to the shelf cache (R191). -/
  cached : Bool
  format : Nat
  tile : Bytes
  deriving DecidableEq, Repr
/-! ## The journal -/

/-- A journal entry (R482, R483). `torn` marks an entry whose CRC fails. -/
structure JEntry where
  kind : Nat
  flags : Nat
  count : Nat
  jsn : Nat
  payload : Bytes
  torn : Bool
  deriving DecidableEq, Repr

/-- One part of the MRAM (R481): its live entries by position, ascending, and the head position. -/
structure JPart where
  entries : List (Nat × JEntry)
  head : Nat
  deriving DecidableEq, Repr

/-- The journal (R481-R495). -/
structure Journal where
  own : JPart
  mirror : JPart
  nextJsn : Nat
  /-- JSNs of incomplete records found at the last start and not yet settled (R495). -/
  unsettled : List Nat
  settled : Bool
  highRaised : Bool
  /-- The done window of R301, oldest first: REQUEST_ID and final RESULT. -/
  done : List (Nat × Nat)
  /-- Highest REQUEST_ID journalled (R494); none before the first. -/
  highest : Option Nat
  deriving DecidableEq, Repr
/-! ## Contexts and weight copies -/

/-- The states of a context (R184). -/
inductive CtxState
  | unregistered
  | registered
  | serving
  | closing
  deriving DecidableEq, Repr

/-- The state code of R184. -/
def CtxState.code : CtxState → Nat
  | .unregistered => 0
  | .registered => 1
  | .serving => 2
  | .closing => 3

/-- The states of a copy slot (R187). -/
inductive CopyState
  | empty
  | building
  | stopped
  | verifying
  | complete
  | current
  | draining
  deriving DecidableEq, Repr

/-- The state code of R187; `stopped` is PARTIAL. -/
def CopyState.code : CopyState → Nat
  | .empty => 0
  | .building => 1
  | .stopped => 2
  | .verifying => 3
  | .complete => 4
  | .current => 5
  | .draining => 6

/-- A pinned record (R190). -/
structure Pin where
  pair : Nat
  operand : Nat
  rowTile : Nat
  chunk : Nat
  trit : Nat
  place : Nat
  deriving DecidableEq, Repr

/-- One copy slot (R186-R213). `blocks` is the image as far as it has been received, by block index. -/
structure CopySlot where
  state : CopyState
  copyId : Nat
  damaged : List Nat
  batches : Nat
  /-- The BUILD's source and descriptor (R197, R215), and the library copies that blocks were taken from (R202). -/
  source : Nat
  desc : Bytes
  fromLib : List Nat
  blocks : List (Nat × Bytes)
  total : Nat
  gainAt : Nat
  pins : List Pin
  spilled : Nat
  hbmUsed : Nat
  /-- Where its HBM3E allotment lies on every stack: addresses and lengths (R368). -/
  extents : List (Nat × Nat)
  /-- Blocks that a REPAIR still waits for (R213), and the clock since which damage is unrepaired. -/
  repairing : List Nat
  damagedAt : Nat
  /-- The upstream peer port of a REPAIR with source 1. -/
  repairPort : Option Nat
  /-- The clock at which a missing block was last asked for (R466). -/
  askedAt : Nat
  deriving DecidableEq, Repr

/-- The place of an accepted BUILD in a weight pipeline (R201): its slot and copy ID, the port that its blocks come from (none
for the control node), the ports they go on to. It outlasts a failure of the build (log entry 110). -/
structure Pipe where
  slot : Bool
  copy : Nat
  up : Option Nat
  down : Nat
  deriving DecidableEq, Repr

/-- One context (R182-R207). `pendingTo` is the slot of a pending SWITCH, with its NOT_BEFORE. -/
structure Ctx where
  state : CtxState
  model : Nat
  stage : Nat
  slotA : CopySlot
  slotB : CopySlot
  pendingTo : Option Bool
  notBefore : Option Nat
  pipes : List Pipe
  deriving DecidableEq, Repr

/-- An entry of the HBM3E library (R202), or a STORE in progress while `total` is 0 or blocks are missing. -/
structure LibEntry where
  model : Nat
  stage : Nat
  copyId : Nat
  blocks : List (Nat × Bytes)
  total : Nat
  source : Nat
  desc : Bytes
  deriving DecidableEq, Repr

/-- A batch (R204): its context, the copy it is bound to, its tasks. -/
structure Batch where
  num : Nat
  context : Nat
  copy : Nat
  tasks : List Nat
  deriving DecidableEq, Repr

/-! ## Services -/

/-- The states of a session that is not FREE (R304). -/
inductive SessState
  | active
  | idle
  | evicted
  deriving DecidableEq, Repr

/-- The state code of R304. -/
def SessState.code : SessState → Nat
  | .active => 1
  | .idle => 2
  | .evicted => 3

/-- A session (R303-R311). `lineage` gives for each range's first position the copy that made its keys and values. -/
structure Session where
  num : Nat
  tag : Nat
  context : Nat
  seed : Nat
  state : SessState
  history : List Nat
  lineage : List (Nat × Nat)
  pages : Nat
  /-- The stacks that its pages lie on (R307). -/
  onStacks : List Nat
  lastAt : Nat
  closing : Bool
  /-- JSN of its session record (R483); none while it has none. -/
  record : Option Nat
  deriving DecidableEq, Repr

/-- Where a request stands. -/
inductive ReqPhase
  /-- Waits for admission (R277), or its session (R306). -/
  | waiting
  /-- Its task is admitted and runs. -/
  | running
  /-- Waits in the journal for a copy, a damaged block's repair, a context, or SETTLE (R211, R213, R495, R501). -/
  | held
  deriving DecidableEq, Repr

/-- An incomplete request as the control cores keep it; rebuilt from the journal at a start (R494). -/
structure Request where
  jsn : Nat
  id : Nat
  tag : Nat
  header : Bytes
  input : Bytes
  context : Nat
  model : Nat
  stage : Nat
  session : Option Nat
  phase : ReqPhase
  tokens : List Nat
  /-- Tokens regenerated so far while a replay compares (R302); none when not replaying. -/
  replayed : Option Nat
  wasReplayed : Bool
  /-- Its replay has been admitted, which set the base of its target (R296). -/
  rebased : Bool
  acked : Option Nat
  startPos : Nat
  copies : List (Nat × Nat)
  prefilled : Option (Nat × Nat × Nat)
  notReplayable : Bool
  adopted : Bool
  mirrored : Bool
  commitStamp : Nat
  targetBase : Nat
  pages : Nat
  cancel : Bool
  sentAcked : Bool
  /-- SEQ of its last segment while JOURNALLED is owed (R400, R468). -/
  ackOwed : Option Nat
  /-- The clock since which it waits for a damaged block (R213). -/
  damagedAt : Option Nat
  /-- Read back from the journal; its replay has yet to rebuild its session's pages (R491). -/
  rebuilt : Bool
  deriving DecidableEq, Repr

/-! ## Scheduling -/

/-- A reservation (R269): frame on the counter, engine code, class, task, first symbol, length, KIND. -/
structure Reservation where
  frame : Nat
  engine : Nat
  cls : Nat
  task : Nat
  start : Nat
  length : Nat
  kind : Nat
  deriving DecidableEq, Repr

/-- One piece of a task's priced work as it is placed (R272, R282): the phase, the engine that it occupies (none for a latency), its
KIND, and its first and last symbol on the frame-time counter. -/
structure PlacedItem where
  phase : Nat
  engine : Option Nat
  kind : Nat
  begins : Nat
  ends : Nat
  deriving DecidableEq, Repr

/-- An admitted task (R278). Stamps are counter values; `bound` is its deadline or target, `cert` its certificate. -/
structure Task where
  num : Nat
  jsn : Nat
  cls : Cls
  context : Nat
  copy : Nat
  graph : TaskGraph
  order : Nat
  start : Nat
  cert : Nat
  bound : Nat
  /-- Vector status flags (R171), and those that each vector unit set, by engine code (R181). -/
  vflags : Nat
  unitFlags : List (Nat × Nat)
  /-- The model clock at its last progress (R246). -/
  progressAt : Nat
  /-- GANG_TASK of a gang task (R462), with the other ordinals; none otherwise. -/
  gang : Option (Nat × List Nat)
  /-- The ordinal whose leaf of the gang's tree it is: the device's own, or one that it stands in for (R135, R454). -/
  ordinal : Nat
  inexact : Bool
  /-- The worst-case stamps of its checkpoints, by token value (R282). -/
  checks : List (Nat × Nat)
  /-- Its priced work, and the facets of its critical path, a list of those in parallel for each position in series (R275). -/
  items : List PlacedItem
  path : List (List Nat)
  /-- The buffers of its output so far: OUT_KIND and data (R31, R297). -/
  output : List (Nat × Bytes)
  /-- What its sampling operations gave: opcode, IMM and the indices of the rows (R312). -/
  sampled : List (Nat × Nat × List Nat)
  deriving DecidableEq, Repr

/-! ## Peer ports and the gang -/

/-- One peer port (R447-R458). LINK_STATE is its object. -/
structure Peer where
  txNext : Nat
  rxNext : Nat
  unacked : List (PeerFrame × Nat)
  /-- Frames that wait for a credit, by channel, and the credits held at the far end (channel, hop class, count). -/
  waiting : List PeerFrame
  credits : List (Nat × Nat)
  helloAt : Nat
  progressAt : Nat
  deriving DecidableEq, Repr

/-- The gang side of the device (R451-R470). -/
structure Gang where
  /-- Ordinals whose removal from STAND_IN is pending (R454). -/
  leaving : List Nat
  /-- Mirror records sent and not acknowledged: position, clock (R467-R469). -/
  mirrorSent : List (Nat × Nat)
  /-- The next JOURNAL frame carries RESYNC. -/
  resync : Bool
  /-- Last position of the resync; ESTABLISHED once it is acknowledged. -/
  resyncLast : Option Nat
  /-- A SETTLE or adoption has ended mirroring from this ordinal (R501). -/
  refuseFrom : Option Nat
  /-- Grants received and not used, and gathers that have granted: task number, level (R463). -/
  grants : List (Nat × Nat)
  /-- With the scale step of the repeat that each of these gathers belongs to (R120), else 0. -/
  granted : List (Nat × Nat × Nat)
  nextGang : Nat
  /-- Weight blocks asked for from downstream that this device does not hold yet (R466): ordinal, MODEL, STAGE, copy ID, block. -/
  owed : List (Nat × Nat × Nat × Nat × Nat)
  deriving DecidableEq, Repr
/-! ## Light supply -/

/-- The states of a light input (R326). -/
inductive InputState
  | disabled
  | opened
  | waiting
  | ready
  | low
  | tripped
  deriving DecidableEq, Repr

/-- The state code of R326. -/
def InputState.code : InputState → Nat
  | .disabled => 0
  | .opened => 1
  | .waiting => 2
  | .ready => 3
  | .low => 4
  | .tripped => 5

/-- One light input (R326). `closed`: its loop has been closed continuously for 1 s. `weak`: feeds below 7000h.06. -/
structure LightInput where
  state : InputState
  closed : Bool
  weak : Nat
  deriving DecidableEq, Repr

/-- The light supply (R324-R334). `amps`: the path amplifiers on in LC0 and LC1, bit 2f + b. `changing`: facets that a
write of SOURCE_MAP has still to change. `dead`: paths whose amplifier could not reach its set point, bit 64 * LC + bus. -/
structure Light where
  inputs : Vector LightInput 2
  amps : Vector Nat 2
  dead : Nat
  changing : List Nat
  headroomRaised : Bool
  headroomAt : Option Nat
  deriving DecidableEq, Repr

/-! ## Memory maintenance -/

/-- Error counts and repairs of the memories (R366-R378). -/
structure Maint where
  /-- Seconds of the corrections within the window: key stack * 2^20 + unit, pair * 2^20 + line. -/
  hbmHits : List (Nat × List Nat)
  shelfHits : List (Nat × List Nat)
  /-- The retirement in progress of each stack: unit and spare; the units that wait; the seconds of the last ones. -/
  retiring : Vector (Option (Nat × Nat)) 8
  waiting : Vector (List Nat) 8
  retiredAt : Vector (List Nat) 8
  exhausted : Vector Bool 8
  /-- The repair list and the lines that spare rows carry; both survive every reset. -/
  repairList : Vector (List Nat) 8
  repaired : Vector (List Nat) 8
  /-- Code words that hold an error, by their address among all memories, with the outcome of their next read (R364); ascending. -/
  errs : List (Nat × ReadOutcome)
  /-- The position of the scrub in each shelf and accumulator memory (R377). -/
  scrubShelf : Vector Nat 8
  scrubAcc : Vector Nat 32
  /-- The layout in force, the bytes of the library and of the key/value pool; none before the device first enters Serving (R368). -/
  layout : Option (Nat × Nat)
  deriving DecidableEq, Repr

/-! ## Power and temperature -/

/-- A unit at its throttle level (R525): group, unit, the frame start of enforcement (a counter value), enforced, and
the frames spent below the level less hysteresis. -/
structure Throttle where
  group : Nat
  unit : Nat
  enforceAt : Nat
  enforced : Bool
  cool : Nat
  deriving DecidableEq, Repr

/-- Rails, domains, dips, sensors and throttling (R511-R528). -/
structure Power where
  /-- The step of R515 in progress; 0 none. -/
  seqStep : Nat
  /-- Facet domains switched off, as facet masks. -/
  digOff : Nat
  anaOff : Nat
  /-- Facets whose stack or heater rail was lost: out of service until the next reset (R498, R504). -/
  lost : Nat
  /-- Dips in progress: supply number (rail r; 64 + f digital, 96 + f analogue domain) and clock at its start. -/
  dips : List (Nat × Nat)
  /-- Supplies whose dip has reached DIP_FILL_LIMIT. -/
  long : List Nat
  /-- Readings: sensor number (600 + n for stack n) and FP32 value; `deviant` counts frames outside tolerance. -/
  temps : List (Nat × Nat)
  deviant : List (Nat × Nat)
  /-- Sum (FP32) and number of a sensor's readings since the frame start, and the averages over the last frame (R522). -/
  sums : List (Nat × Nat × Nat)
  avgs : List (Nat × Nat)
  replaced : List Nat
  /-- Units (64 * group + unit) above their warning level, and successive critical readings. -/
  warned : List Nat
  critical : List (Nat × Nat)
  throttles : List Throttle
  /-- Slot caps of opened frames: (frame, facet) and percent. -/
  slotCaps : List ((Nat × Nat) × Nat)
  /-- LCs turned off at their critical level. -/
  lcHot : Nat
  /-- Compensation over temperature (R529): for each item the governing temperature of its last update and its correction. -/
  comp : List (Nat × Nat × Nat)
  powerOver : Bool
  /-- The step of R515 that the critical action turns off next, 0 none, and the clock of the step before (R516). -/
  offStep : Nat
  offAt : Nat
  /-- The power-fail sequence runs; PWRFAIL_N is low; the sequence's event is owed at the next start. -/
  failing : Bool
  failLow : Bool
  failOwed : Bool
  deriving DecidableEq, Repr

/-- The hours of R39 not yet in life data, in ticks, and the clock of the last save. -/
structure Life where
  powered : Nat
  serving : Nat
  light : Nat
  savedAt : Nat
  deriving DecidableEq, Repr

/-! ## Converters and analogue outputs -/

/-- The latest result of a channel (R544) with the frame starts since its conversion ended. -/
structure ChanResult where
  code : Int
  flags : Nat
  conv : Nat
  age : Nat
  deriving DecidableEq, Repr

/-- An urgent request (R546). -/
structure UrgentReq where
  channel : Nat
  gain : Nat
  short : Bool
  own : Bool
  deriving DecidableEq, Repr

/-- One monitoring converter (R542-R548). -/
structure Conv where
  /-- The sequence table, period and mode in force in this loop. -/
  table : Bytes
  period : Nat
  lowPower : Bool
  entry : Nat
  /-- Conversions of the entry that are done. -/
  step : Nat
  /-- The test conversion after LAST is due. -/
  testing : Bool
  urgent : List UrgentReq
  urgentRunning : Bool
  testFails : Nat
  failed : Bool
  /-- Entries whose last result lay outside their window. -/
  outside : List Nat
  stopped : Bool
  deriving DecidableEq, Repr

/-- One analogue output (R551): the connected code, the code held by the deglitcher, the latest code of a freeze, and the
model clock at the last change of the connected code (R557). -/
structure OutState where
  code : Nat
  hold : Option Nat
  kept : Option Nat
  changedAt : Nat
  deriving DecidableEq, Repr

/-- The span of an external output and its change (R556): the span in force, the step 1-3 in progress (0 none), the new
span; whether the output is in service, and its mismatching read-backs in succession. -/
structure ExtOut where
  span : Nat
  step : Nat
  toSpan : Nat
  service : Bool
  misreads : Nat
  deriving DecidableEq, Repr

/-- A pending or running playback (R555): output key, waveform, SCALE as FP32, its start on the counter, the next sample
and loop. -/
structure Playback where
  out : Nat
  wave : Nat
  scale : Nat
  start : Nat
  next : Nat
  loop : Nat
  running : Bool
  /-- A pending feed-forward wave of the reserved duty (R347). -/
  ahead : Bool
  deriving DecidableEq, Repr

/-- A heater trim image (R553): pair, set point, codes by output key, stamp. -/
structure TrimImage where
  pair : Nat
  setpoint : Nat
  codes : List (Nat × Nat)
  stamp : Nat
  whole : Bool
  deriving DecidableEq, Repr

/-- Converters and outputs. Output keys: 0-15 external; 16 + 16f + r region heaters; 1024 + 128 * (520f + row) + lane
ring heaters; an unlisted output is at mid-scale. -/
structure Analog where
  convs : Vector Conv 4
  results : List (Nat × ChanResult)
  /-- The offset of a CAL_CMD 1: CAL_SELECT and the sum of its 16 codes. -/
  zeroed : Option (Nat × Int)
  outs : List (Nat × OutState)
  exts : Vector ExtOut 16
  plays : List Playback
  heaterMisreads : List (Nat × Nat)
  /-- The heater of each EIC's automatic read-back that comes next (R557). -/
  autoHeater : Vector Nat 8
  trims : List TrimImage
  trimAt : Nat
  deriving DecidableEq, Repr

/-! ## Boot and images -/

/-- Boot, images and attestation (R565-R584). -/
structure BootSt where
  /-- Images in slot 0, slot 1 and the LNK buffer; none when empty or invalid. -/
  images : Vector (Option Bytes) 3
  /-- The candidate whose boot code runs: source, came from BOOT_NEXT, whether it is a fallback. -/
  candidate : Option (Nat × Bool × Bool)
  /-- The running image. -/
  running : Bytes
  /-- The model clock at boot step 1. -/
  startedAt : Nat
  staging : Option (Nat × Bytes)
  signing : Option Bytes
  deriving DecidableEq, Repr

/-! ## The machine -/

/-- The state of the D32 block. `objs` is the home of every scalar and octet string that the dictionary holds and that
no typed field holds; the views of typed fields are computed on read (`Machine/Views.lean`). -/
structure State where
  /-- Commands waiting, first in, first out. -/
  pending : List Instr
  /-- What has been sent, oldest first. -/
  out : List Out
  /-- Objects that differ from their default (R419-R427), ascending index and subindex: key 256 * index + sub. -/
  objs : List (Nat × Val)
  /-- The frame-time counter in ticks, modulo its full period (R16-R18). -/
  now : Nat
  /-- The model's own clock: ticks since power-up, never set or held. -/
  up : Nat
  refclk : Bool
  /-- SYS is held in reset or halted: during a reset, after the power-fail sequence, without REFCLK (R404, R493). -/
  sysHeld : Bool
  node : NodeState
  ring : Ring
  events : Events
  store : Persist
  journal : Journal
  facets : Vector Facet 32
  engines : Vector Engine 64
  /-- JSN of the request and identity of each record refused under R53, its source left out, for a second refusal by its
  replay. -/
  refused : List (Nat × PlaneId)
  stations : Vector Station 32
  streams : List Stream
  jigs : List JigRun
  /-- Jig tables (R232): key 256 * fetch engine + jig, entries. -/
  jigTable : List (Nat × List Nat)
  converts : Vector (List ConvertJob) 8
  /-- Contexts that are not UNREGISTERED, by number. -/
  contexts : List (Nat × Ctx)
  library : List LibEntry
  /-- The pending descriptor of 5010h.02 (R215). -/
  ctxDesc : Option Bytes
  /-- 5040h (R211): MODEL, STAGE, copy ID, journal order. -/
  needed : List (Nat × Nat × Nat)
  /-- Shelf caches (R191): per pair, cached records least recently used first: identity key and place. -/
  cache : Vector (List (PlaneId × Nat)) 8
  batches : List Batch
  sessions : List Session
  requests : List Request
  tasks : List Task
  nextOrder : Nat
  tables : List Reservation
  /-- ADMISSION_BUSY, SESSION_TABLE_FULL and KV_SHORT have been raised and not re-armed (R280, R305, R309). -/
  busyRaised : Bool
  fullRaised : Bool
  kvRaised : Bool
  /-- The entries of a least or greatest value that hold one recorded since their last read (R612). -/
  held : List Nat
  /-- For each quantity that the manual gives no model of, the model clock of its last sample, and the clock of the last
  reset (log entry 4). -/
  sampled : List (Nat × Nat)
  sampledFrom : Nat
  /-- A set of the counter is allowed from the next valid time frame (R264). -/
  setArmed : Bool
  /-- The model clock at the last check, and whether the last check lay outside tolerance, with its offset (R263). -/
  checkAt : Nat
  outside : Option Nat
  /-- The model clock at the last FRAME_IN edge (R598). -/
  frameInAt : Option Nat
  peers : Vector Peer 4
  gang : Gang
  eyes : Vector Eye 6
  light : Light
  maint : Maint
  power : Power
  life : Life
  analog : Analog
  boot : BootSt
  /-- A quiesce is in progress (R431): 0 none, 1 QUIESCE, 2 QUIESCE_NOW or forced, and its start. -/
  quiesce : Nat
  quiesceAt : Nat
  /-- The byte memories (R362-R376), one canonical list; an unlisted byte reads as 0. -/
  mem : List Host.Cell
  /-- The model's counter of free values drawn. -/
  free : Nat
  deriving DecidableEq, Repr

/-! ## Faults and refusals -/

/-- Why a command stops the machine. -/
inductive Fault
  /-- Raised by the meaning of PATROL_SCRUB and UNIT_RETIRE_START for an address, a symbol or a unit number that the memory does not
  have. Safe: the command cannot occur on the hardware. -/
  | illFormed
  deriving DecidableEq, Repr

/-- Why the model turns a command away. -/
inductive Refusal
  /-- Raised by `exec` for a command whose meaning the model does not hold. Safe: nothing is claimed of it. -/
  | notModelled (mnemonic : String)
  deriving DecidableEq, Repr

/-! ## The state right after reset -/

/-- The all-zero plane (R52). -/
def PlaneId.zeros : PlaneId :=
  { kind := 0, src := 0, context := 0, copy := 0, operand := 0, format := 0, rowTile := 0, chunk := 0, trit := 0,
    zero := true }

def Plane.zeros : Plane := { id := PlaneId.zeros, bytes := [], hold := none, prio := false, task := 0xFFFF }

/-- A ring at its safe value with its loop open (R335, R337). -/
def RingLoop.off : RingLoop := { loop := 0, before := 0, ident := 0, line := 0, rounds := 0 }

def Optic.start : Optic :=
  { base := RingLoop.off, rings := [], relock := none, heldFails := 0, cal := none, calLast := 519, calStart := 0,
    calAt := [], calBase := 0, spareFails := [], calPaused := false, overdueRaised := false, inPlace := false,
    inPlaceRepeated := false }

/-- A facet before its start-up calibration (R346, R349). -/
def Facet.start : Facet :=
  { rowMap := [], ringMap := [], shadowMap := [], active := Plane.zeros, shadow := none, flipWanted := false, flipAsk := none, runs := [], inflight := [],
    sweeps := [], confirm := none, swapping := false, afterSwap := false, transients := [],
    dueSwap := [], wideSets := [], spareHits := [], writes := [], acc := [], slots := [], drains := [], merges := [],
    reduces := [], inbound := [], trees := [], nextRun := 0, nextSym := 0, fillPlane := none, fillPending := none,
    displaced := [], restoring := false, flippedOut := none, preempted := false, lock := .starting,
    dipping := false, reissue := [], degraded := false, chargeFrame := 0, charge := 0,
    chargeTicks := 0, idleSince := none, capUse := (0, 0), optic := Optic.start }

def CmdQueue.start : CmdQueue :=
  { cmds := [], binding := none, popped := 0, unbound := false, waitAt := none, drainWait := none, discard := none,
    running := none, repeats := none, pushing := none }

def Engine.start : Engine := { prio := CmdQueue.start, fill := CmdQueue.start, prioReps := [], fillReps := [] }

def Station.start : Station := { queues := Vector.replicate 32 [], biscuits := Vector.replicate 16 none }

def Ring.start : Ring :=
  { txNext := 0, txSync := true, unacked := [], waiting := [], rxNext := none, rxNextAll := none,
    rxHeld := [],
    xfers := Vector.replicate 8 none, segs := [], cyclic := [], probes := Vector.replicate 2 none, pairs := [],
    foreignFrame := none, node0At := 0, node0Silent := false, heartbeatAt := 0, outBufs := [], reads := [], remoteReset := 0 }

def EventQueue.start : EventQueue := { recs := [], next := 0, last := 0, dropped := 0, firstLost := 0 }

def Events.start : Events := { sys := EventQueue.start, lnk := EventQueue.start }

def Persist.empty : Persist := { values := [], regs := [], used := 0, bankSeq := 0, usable := true }

def JPart.empty : JPart := { entries := [], head := 0 }

def Journal.empty : Journal :=
  { own := JPart.empty, mirror := JPart.empty, nextJsn := 0, unsettled := [], settled := false, highRaised := false,
    done := [], highest := none }

def Peer.start : Peer :=
  { txNext := 0, rxNext := 0, unacked := [], waiting := [], credits := [], helloAt := 0, progressAt := 0 }

def Gang.start : Gang :=
  { leaving := [], mirrorSent := [], resync := false, resyncLast := none, refuseFrom := none,
    grants := [], granted := [], nextGang := 0, owed := [] }

def Eye.start : Eye := { txOn := true, lit := true, shutAt := 0, lastPulse := 0 }

def Light.start : Light :=
  { inputs := Vector.replicate 2 { state := .disabled, closed := false, weak := 0xFF }, amps := Vector.replicate 2 0, dead := 0,
    changing := [], headroomRaised := false, headroomAt := none }

def Maint.start : Maint :=
  { hbmHits := [], shelfHits := [], retiring := Vector.replicate 8 none, waiting := Vector.replicate 8 [],
    retiredAt := Vector.replicate 8 [], exhausted := Vector.replicate 8 false, repairList := Vector.replicate 8 [],
    repaired := Vector.replicate 8 [], errs := [], scrubShelf := Vector.replicate 8 0,
    scrubAcc := Vector.replicate 32 0, layout := none }

def Power.start : Power :=
  { seqStep := 0, digOff := 0, anaOff := 0, lost := 0, dips := [], long := [], temps := [], deviant := [], sums := [], avgs := [], replaced := [],
    warned := [], critical := [], throttles := [], slotCaps := [], lcHot := 0, comp := [], powerOver := false, offStep := 0, offAt := 0, failing := false,
    failLow := false, failOwed := false }

def Life.start : Life := { powered := 0, serving := 0, light := 0, savedAt := 0 }

/-- A converter on its factory table (R542): `table` is empty for the factory table. -/
def Conv.start : Conv :=
  { table := [], period := 0, lowPower := false, entry := 0, step := 0, testing := false, urgent := [],
    urgentRunning := false, testFails := 0, failed := false, outside := [], stopped := false }

def ExtOut.start : ExtOut := { span := 1, step := 0, toSpan := 1, service := false, misreads := 0 }

def Analog.start : Analog :=
  { convs := #v[Conv.start, Conv.start, Conv.start, { Conv.start with period := 3 }], results := [], zeroed := none, outs := [],
    exts := Vector.replicate 16 ExtOut.start, plays := [], heaterMisreads := [], autoHeater := Vector.replicate 8 0, trims := [], trimAt := 0 }

def BootSt.start : BootSt :=
  { images := Vector.replicate 3 none, candidate := none, running := [], startedAt := 0, staging := none,
    signing := none }

/-- The machine right after the first release of RESET_N (R429, R600): Sealed, every object at its default, empty
memories, no request, no copy. -/
def State.reset : State :=
  { pending := [], out := [], objs := [], now := 0, up := 0, refclk := true, sysHeld := false, node := .sealed,
    ring := Ring.start, events := Events.start, store := Persist.empty, journal := Journal.empty,
    facets := Vector.replicate 32 Facet.start, engines := Vector.replicate 64 Engine.start, refused := [],
    stations := Vector.replicate 32 Station.start, streams := [], jigs := [], jigTable := [], converts := Vector.replicate 8 [],
    contexts := [], library := [], ctxDesc := none, needed := [], cache := Vector.replicate 8 [], batches := [],
    sessions := [], requests := [], tasks := [], nextOrder := 0, tables := [], busyRaised := false,
    fullRaised := false, kvRaised := false, held := [], sampled := [], sampledFrom := 0, setArmed := true, checkAt := 0, outside := none, frameInAt := none,
    peers := Vector.replicate 4 Peer.start, gang := Gang.start, eyes := Vector.replicate 6 Eye.start,
    light := Light.start, maint := Maint.start, power := Power.start, life := Life.start, analog := Analog.start, boot := BootSt.start,
    quiesce := 0, quiesceAt := 0, mem := [], free := 0 }

end Sys2Proof.Machine
end

