-- ==== Sys2Proof/Machine/Dictionary.lean ====
section
/-! DEFINITION. Dictionary.lean: the object dictionary (R10-R15, R419-R427): one line for each row of the manual's
object tables, by the high digit of the index. -/

namespace Sys2Proof.Machine

/-- The object types of R10. -/
inductive Ty
  | b
  | u8
  | u16
  | u32
  | u64
  | s32
  | s64
  | f32
  | text
  | blob
  deriving DecidableEq, Repr

/-- The access codes of R11; `bootOnly` is SEAL. -/
inductive Acc
  | ro
  | rw
  | wo
  | rc
  | cw
  | bootOnly
  deriving DecidableEq, Repr

/-- One row of an object table: base index, members of the family, subindex, type, access, level E, marked P, default
(none where the manual gives no constant). -/
structure ObjDef where
  base : Nat
  count : Nat
  sub : Nat
  ty : Ty
  acc : Acc
  expert : Bool
  persist : Bool
  dflt : Option Val
  deriving DecidableEq, Repr

/-- Objects 0000h-0FFFh, part 1. -/
def dict0_0 : List ObjDef := [
  ⟨0x0000, 1, 0x01, .text, .ro, false, false, some (.bytes [76, 117, 97, 114, 101, 107])⟩, -- VENDOR
  ⟨0x0000, 1, 0x02, .text, .ro, false, false, some (.bytes [68, 118, 111, 114, 115, 105, 115])⟩, -- FAMILY
  ⟨0x0000, 1, 0x03, .text, .ro, false, false, some (.bytes [68, 51, 50])⟩, -- PART
  ⟨0x0000, 1, 0x04, .text, .ro, false, false, some (.bytes [76, 68, 86, 45, 68, 51, 50, 45, 49, 52, 48, 48, 45, 76, 67])⟩, -- ORDER_NO
  ⟨0x0000, 1, 0x05, .text, .ro, false, false, some (.bytes [65, 49])⟩, -- STEPPING
  ⟨0x0000, 1, 0x06, .u64, .ro, false, false, none⟩, -- SERIAL
  ⟨0x0000, 1, 0x07, .u32, .ro, false, false, none⟩, -- BOOT_ROM_VER
  ⟨0x0000, 1, 0x08, .u32, .ro, false, false, none⟩, -- FW_VER
  ⟨0x0010, 1, 0x01, .u8, .ro, false, false, some (.num 32)⟩, -- FACETS
  ⟨0x0010, 1, 0x02, .u8, .ro, false, false, some (.num 4)⟩, -- FACETS_PER_PAIR
  ⟨0x0010, 1, 0x03, .u16, .ro, false, false, some (.num 128)⟩, -- LANES
  ⟨0x0010, 1, 0x04, .u8, .ro, false, false, some (.num 2)⟩, -- BUSES
  ⟨0x0010, 1, 0x05, .u16, .ro, false, false, some (.num 512)⟩, -- COMPUTE_ROWS
  ⟨0x0010, 1, 0x06, .u8, .ro, false, false, some (.num 4)⟩, -- GIRDLE_ROWS
  ⟨0x0010, 1, 0x07, .u8, .ro, false, false, some (.num 4)⟩, -- SPARE_ROWS
  ⟨0x0010, 1, 0x08, .u32, .ro, false, false, some (.num 16000)⟩, -- SYMBOL_RATE
  ⟨0x0010, 1, 0x09, .u32, .ro, false, false, some (.num 192000)⟩, -- COMB_FIRST
  ⟨0x0010, 1, 0x0A, .u16, .ro, false, false, some (.num 50)⟩, -- COMB_SPACING
  ⟨0x0010, 1, 0x0B, .u16, .ro, false, false, some (.num 2048)⟩, -- SLOTS
  ⟨0x0010, 1, 0x0C, .u8, .ro, false, false, some (.num 40)⟩, -- SLOT_BITS
  ⟨0x0010, 1, 0x0D, .u16, .ro, false, false, some (.num 15360)⟩, -- PLANE_RECORD
  ⟨0x0010, 1, 0x0E, .u64, .ro, false, false, some (.num 1073741824)⟩, -- SHELF
  ⟨0x0010, 1, 0x0F, .u8, .ro, false, false, some (.num 8)⟩, -- HBM_STACKS
  ⟨0x0010, 1, 0x10, .u64, .ro, false, false, some (.num 36000000000)⟩, -- HBM_STACK_BYTES
  ⟨0x0010, 1, 0x11, .u16, .ro, false, false, some (.num 9600)⟩, -- HBM_PIN_RATE
  ⟨0x0010, 1, 0x12, .u16, .ro, false, false, some (.num 1024)⟩, -- VECTOR_LANES
  ⟨0x0010, 1, 0x13, .u16, .ro, false, false, some (.num 2000)⟩, -- EIC_CLOCK
  ⟨0x0010, 1, 0x14, .u16, .ro, false, false, some (.num 4096)⟩, -- CONTEXTS
  ⟨0x0010, 1, 0x15, .u32, .ro, false, false, some (.num 65536)⟩, -- SESSIONS
  ⟨0x0010, 1, 0x16, .u32, .ro, false, false, some (.num 67108864)⟩, -- JOURNAL
  ⟨0x0010, 1, 0x17, .u8, .ro, false, false, some (.num 2)⟩, -- KANGEIZ_PORTS
  ⟨0x0010, 1, 0x18, .u8, .ro, false, false, some (.num 4)⟩, -- PEER_PORTS
  ⟨0x0020, 1, 0x01, .u32, .ro, false, false, some (.num 0x00000000)⟩, -- FACETS_UP
  ⟨0x0020, 1, 0x02, .u8, .ro, false, false, some (.num 0x00)⟩, -- PAIRS_UP
  ⟨0x0020, 1, 0x03, .u8, .ro, false, false, some (.num 0x00)⟩, -- STACKS_UP
  ⟨0x0020, 1, 0x04, .u8, .ro, false, false, some (.num 0x00)⟩, -- LC_UP
  ⟨0x0020, 1, 0x05, .u8, .ro, false, false, some (.num 0x00)⟩, -- PORTS_UP
  ⟨0x0020, 1, 0x06, .u32, .ro, false, false, some (.num 0x00000000)⟩, -- VECTORS_UP
  ⟨0x0030, 1, 0x01, .u32, .ro, false, true, some (.num 0)⟩, -- POWERED_HOURS
  ⟨0x0030, 1, 0x02, .u32, .ro, false, true, some (.num 0)⟩] -- SERVING_HOURS

/-- Objects 0000h-0FFFh, part 2. -/
def dict0_1 : List ObjDef := [
  ⟨0x0030, 1, 0x03, .u32, .ro, false, true, some (.num 0)⟩, -- POWER_CYCLES
  ⟨0x0030, 1, 0x04, .f32, .ro, false, true, some (.num 0x00000000)⟩, -- MAX_EIC_TEMP
  ⟨0x0030, 1, 0x05, .u32, .ro, false, true, some (.num 0)⟩] -- LIGHT_HOURS

/-- Objects 0000h-0FFFh. -/
def dict0 : List ObjDef := dict0_0 ++ dict0_1

/-- Objects 1000h-1FFFh, part 1. -/
def dict1_0 : List ObjDef := [
  ⟨0x1000, 1, 0x01, .u8, .ro, false, false, some (.num 0)⟩, -- NODE_STATE
  ⟨0x1000, 1, 0x02, .u8, .ro, false, false, some (.num 0)⟩, -- PENDING
  ⟨0x1000, 1, 0x03, .u8, .ro, false, false, some (.num 0)⟩, -- LAST_RESULT
  ⟨0x1000, 1, 0x04, .u8, .ro, false, false, some (.num 0)⟩, -- SAFE_CAUSE
  ⟨0x1000, 1, 0x05, .u8, .ro, false, false, some (.num 1)⟩, -- RESET_CAUSE
  ⟨0x1000, 1, 0x06, .u64, .ro, false, false, some (.num 0)⟩, -- STATE_SINCE
  ⟨0x1000, 1, 0x07, .u16, .rw, false, true, some (.num 100)⟩, -- QUIESCE_LIMIT
  ⟨0x1000, 1, 0x08, .u32, .ro, false, false, some (.num 0)⟩, -- STATE_CHANGES
  ⟨0x1001, 1, 0x01, .u8, .wo, false, false, none⟩, -- NODE_COMMAND
  ⟨0x1010, 1, 0x01, .u8, .ro, false, false, some (.num 0)⟩, -- STORE_STATE
  ⟨0x1010, 1, 0x02, .u32, .ro, false, false, some (.num 0)⟩, -- SAVES
  ⟨0x1010, 1, 0x03, .u32, .rc, false, false, some (.num 0)⟩, -- SAVE_FAILURES
  ⟨0x1010, 1, 0x04, .u16, .ro, false, false, some (.num 0)⟩, -- DEFAULTED
  ⟨0x1010, 1, 0x05, .b, .wo, true, false, none⟩, -- FACTORY_DEFAULTS
  ⟨0x1010, 1, 0x06, .u32, .ro, true, false, some (.num 0)⟩, -- STORE_USED
  ⟨0x1010, 1, 0x07, .blob, .ro, true, false, some (.bytes [])⟩, -- DEFAULTED_LIST
  ⟨0x1020, 1, 0x01, .u32, .rw, false, false, some (.num 0x00000000)⟩, -- CAT_SELECT
  ⟨0x1020, 1, 0x02, .u32, .ro, false, false, some (.num 0x00000000)⟩, -- CAT_ENTRY
  ⟨0x1020, 1, 0x03, .blob, .ro, false, false, some (.bytes [])⟩, -- CAT_DEFAULT
  ⟨0x1020, 1, 0x04, .u32, .ro, false, false, some (.num 0x00000000)⟩, -- CAT_NEXT
  ⟨0x1020, 1, 0x05, .u32, .ro, false, false, none⟩, -- OBJECT_COUNT
  ⟨0x1100, 1, 0x01, .u8, .ro, false, true, some (.num 0)⟩, -- NODE_ID
  ⟨0x1100, 1, 0x02, .u32, .ro, false, true, some (.num 0)⟩, -- RING_ID
  ⟨0x1100, 1, 0x03, .u8, .cw, false, true, some (.num 0)⟩, -- PREFER_DIR
  ⟨0x1100, 1, 0x04, .u32, .cw, true, true, some (.num 30720)⟩, -- RETX_TIMEOUT
  ⟨0x1100, 1, 0x05, .u8, .cw, true, true, some (.num 16)⟩, -- RETX_LIMIT
  ⟨0x1100, 1, 0x06, .u16, .ro, false, false, some (.num 256)⟩, -- WINDOW
  ⟨0x1100, 1, 0x07, .u8, .rw, false, true, some (.num 1)⟩, -- HEARTBEAT_PERIOD
  ⟨0x1100, 1, 0x08, .u16, .rw, false, true, some (.num 100)⟩, -- NODE0_LIMIT
  ⟨0x1100, 1, 0x09, .u32, .rw, true, true, some (.num 0)⟩, -- EVENT_HOLD
  ⟨0x1100, 1, 0x0A, .u16, .rw, false, true, some (.num 10)⟩, -- XFER_TIMEOUT
  ⟨0x1100, 1, 0x0B, .u16, .ro, false, false, some (.num 0)⟩, -- EVENTS_QUEUED
  ⟨0x1100, 1, 0x0C, .u32, .rc, false, false, some (.num 0)⟩, -- EVENTS_DROPPED
  ⟨0x1100, 1, 0x0D, .u32, .rc, false, false, some (.num 0)⟩, -- FOREIGN_FRAMES
  ⟨0x1100, 1, 0x0E, .u32, .rc, false, false, some (.num 0)⟩, -- MALFORMED_FRAMES
  ⟨0x1100, 1, 0x0F, .u32, .rc, true, false, some (.num 0)⟩, -- RETRANSMISSIONS
  ⟨0x1110, 2, 0x01, .u8, .ro, false, false, some (.num 0)⟩, -- LINK_STATE
  ⟨0x1110, 2, 0x02, .u8, .ro, false, false, some (.num 0x00)⟩, -- LANE_MASK
  ⟨0x1110, 2, 0x03, .blob, .ro, false, false, some (.bytes (List.replicate 16 0))⟩, -- RX_POWER
  ⟨0x1110, 2, 0x04, .u64, .ro, true, false, some (.num 0)⟩] -- FEC_CORRECTED

/-- Objects 1000h-1FFFh, part 2. -/
def dict1_1 : List ObjDef := [
  ⟨0x1110, 2, 0x05, .u32, .rc, false, false, some (.num 0)⟩, -- FEC_UNCORRECTABLE
  ⟨0x1110, 2, 0x06, .u32, .rc, false, false, some (.num 0)⟩, -- CRC_ERRORS
  ⟨0x1110, 2, 0x07, .u64, .ro, false, false, some (.num 0)⟩, -- FRAMES_IN
  ⟨0x1110, 2, 0x08, .u64, .ro, false, false, some (.num 0)⟩, -- FRAMES_OUT
  ⟨0x1110, 2, 0x09, .u32, .rc, false, false, some (.num 0)⟩, -- EYE_SHUTDOWNS
  ⟨0x1110, 2, 0x0A, .u32, .rc, false, false, some (.num 0)⟩, -- DEGRADES
  ⟨0x1110, 2, 0x0B, .b, .wo, false, false, none⟩, -- LANE_RESTORE
  ⟨0x1110, 2, 0x0C, .b, .ro, false, false, some (.num 0x00)⟩, -- WRAPPED
  ⟨0x1120, 1, 0x01, .f32, .ro, false, false, some (.num 0x00000000)⟩, -- ARRIVAL_0
  ⟨0x1120, 1, 0x02, .f32, .ro, false, false, some (.num 0x00000000)⟩, -- ARRIVAL_1
  ⟨0x1120, 1, 0x03, .f32, .ro, false, false, some (.num 0x00000000)⟩, -- RING_DELAY
  ⟨0x1120, 1, 0x04, .u16, .ro, false, false, some (.num 0)⟩, -- PROBE_ID
  ⟨0x1120, 1, 0x05, .b, .ro, false, false, some (.num 0x00)⟩, -- DELAY_VALID
  ⟨0x1120, 1, 0x06, .u32, .ro, true, false, some (.num 0)⟩, -- PROBES_VALID
  ⟨0x1200, 16, 0x01, .u8, .cw, false, true, some (.num 0)⟩, -- MAP_DIR
  ⟨0x1200, 16, 0x02, .u32, .cw, false, true, some (.num 307200)⟩, -- PERIOD
  ⟨0x1200, 16, 0x03, .u32, .cw, false, true, some (.num 0)⟩, -- PHASE
  ⟨0x1200, 16, 0x04, .blob, .cw, false, true, some (.bytes [])⟩, -- ENTRIES
  ⟨0x1200, 16, 0x05, .u32, .ro, false, false, some (.num 0)⟩, -- FIRINGS
  ⟨0x1200, 16, 0x06, .u32, .rc, false, false, some (.num 0)⟩, -- LATE
  ⟨0x1200, 16, 0x07, .u32, .rc, false, false, some (.num 0)⟩, -- REFUSED
  ⟨0x1F00, 1, 0x01, .b, .wo, false, false, none⟩, -- EXPERT_ENABLE
  ⟨0x1F00, 1, 0x02, .b, .ro, false, false, some (.num 0x00)⟩, -- EXPERT_ACTIVE
  ⟨0x1F00, 1, 0x03, .u32, .ro, false, false, some (.num 0)⟩] -- EXPERT_GRANTS

/-- Objects 1000h-1FFFh. -/
def dict1 : List ObjDef := dict1_0 ++ dict1_1

/-- Objects 2000h-2FFFh. -/
def dict2 : List ObjDef := [
  ⟨0x2000, 1, 0x01, .u8, .cw, false, true, some (.num 0)⟩, -- TIME_SOURCE
  ⟨0x2000, 1, 0x02, .u8, .cw, false, true, some (.num 0)⟩, -- TIME_PORT
  ⟨0x2000, 1, 0x03, .u8, .ro, false, false, some (.num 0)⟩, -- TIME_STATE
  ⟨0x2000, 1, 0x04, .f32, .ro, false, false, some (.num 0x00000000)⟩, -- TIME_OFFSET
  ⟨0x2000, 1, 0x05, .u16, .cw, true, true, some (.num 4)⟩, -- TIME_TOLERANCE
  ⟨0x2000, 1, 0x06, .u16, .rw, false, true, some (.num 100)⟩, -- HOLDOVER_LIMIT
  ⟨0x2000, 1, 0x07, .u64, .ro, false, false, some (.num 0)⟩, -- NOW
  ⟨0x2000, 1, 0x08, .b, .wo, false, false, none⟩, -- TIME_RESET
  ⟨0x2000, 1, 0x09, .u32, .ro, false, false, some (.num 0)⟩, -- TIME_CHECKS
  ⟨0x2010, 1, 0x01, .u32, .cw, true, true, some (.num 1000)⟩, -- RETRY_PPM
  ⟨0x2010, 1, 0x02, .u16, .ro, false, false, some (.num 716)⟩, -- SWEEP_RESERVE
  ⟨0x2010, 1, 0x03, .u32, .ro, false, false, some (.num 9216)⟩, -- RELOCK_ALLOW
  ⟨0x2010, 1, 0x04, .u16, .cw, true, true, some (.num 1536)⟩, -- DIP_ALLOW
  ⟨0x2010, 1, 0x05, .u16, .ro, false, false, some (.num 3200)⟩, -- MEM_LATENCY
  ⟨0x2010, 1, 0x06, .u16, .cw, true, true, some (.num 1024)⟩, -- ADMIT_LEAD
  ⟨0x2010, 1, 0x07, .u16, .ro, false, false, some (.num 1600)⟩, -- FABRIC_LATENCY
  ⟨0x2100, 1, 0x01, .u8, .cw, false, true, some (.num 8)⟩, -- HORIZON
  ⟨0x2100, 1, 0x02, .u8, .cw, false, true, some (.num 20)⟩, -- SLOT_RESERVE
  ⟨0x2100, 1, 0x03, .u32, .rw, true, false, some (.num 0)⟩, -- TABLE_SELECT
  ⟨0x2100, 1, 0x04, .blob, .ro, true, false, some (.bytes [])⟩, -- TABLE
  ⟨0x2200, 1, 0x01, .u64, .ro, false, false, some (.num 0)⟩, -- ADMITTED_SLOT
  ⟨0x2200, 1, 0x02, .u64, .ro, false, false, some (.num 0)⟩, -- ADMITTED_STREAM
  ⟨0x2200, 1, 0x03, .u64, .ro, false, false, some (.num 0)⟩, -- ADMITTED_FILL
  ⟨0x2200, 1, 0x04, .blob, .ro, false, false, some (.bytes (List.replicate 32 0))⟩, -- REFUSED
  ⟨0x2200, 1, 0x05, .u32, .rc, false, false, some (.num 0)⟩, -- AT_RISK
  ⟨0x2200, 1, 0x06, .u32, .rc, false, false, some (.num 0)⟩, -- DEADLINE_MISSED
  ⟨0x2200, 1, 0x07, .u32, .rc, false, false, some (.num 0)⟩, -- TARGET_MISSED
  ⟨0x2200, 1, 0x08, .u16, .ro, false, false, some (.num 0)⟩, -- QUEUE_DEPTH
  ⟨0x2200, 1, 0x09, .u16, .ro, false, false, some (.num 1024)⟩, -- QUEUE_MAX
  ⟨0x2200, 1, 0x0A, .u32, .rc, false, false, some (.num 0)⟩, -- RECERT_KEPT
  ⟨0x2200, 1, 0x0B, .s32, .rc, true, false, some (.num 0)⟩] -- SLACK_MIN

/-- Objects 3000h-3FFFh, part 1. -/
def dict3_0 : List ObjDef := [
  ⟨0x3000, 1, 0x01, .b, .cw, false, true, some (.num 0x01)⟩, -- DIGIT_SKIP
  ⟨0x3000, 1, 0x02, .u8, .cw, true, true, some (.num 3)⟩, -- TRANSIENT_LIMIT
  ⟨0x3000, 1, 0x03, .u32, .cw, true, true, some (.num 3600)⟩, -- FAULT_WINDOW
  ⟨0x3000, 1, 0x04, .u16, .ro, false, false, some (.num 1)⟩, -- GIRDLE_PATTERN
  ⟨0x3100, 32, 0x01, .u64, .ro, false, false, some (.num 0)⟩, -- PASSES
  ⟨0x3100, 32, 0x02, .u64, .ro, false, false, some (.num 0)⟩, -- SKIPPED
  ⟨0x3100, 32, 0x03, .u32, .rc, false, false, some (.num 0)⟩, -- RETRIED
  ⟨0x3100, 32, 0x04, .u32, .rc, false, false, some (.num 0)⟩, -- REF_COMPUTED
  ⟨0x3100, 32, 0x05, .u32, .rc, false, false, some (.num 0)⟩, -- SWEEPS
  ⟨0x3100, 32, 0x06, .u32, .rc, false, false, some (.num 0)⟩, -- RANGE_FAULTS
  ⟨0x3100, 32, 0x07, .u16, .ro, false, true, some (.num 0)⟩, -- SWAPS
  ⟨0x3100, 32, 0x08, .u8, .ro, false, false, some (.num 4)⟩, -- FREE_SPARES
  ⟨0x3100, 32, 0x09, .u16, .ro, true, false, some (.num 0x0000)⟩, -- LAST_SYNDROME
  ⟨0x3100, 32, 0x0A, .u32, .rc, false, false, some (.num 0)⟩, -- PLANE_REFUSED
  ⟨0x3100, 32, 0x0B, .u8, .ro, false, false, some (.num 0)⟩, -- FACET_STATE
  ⟨0x3200, 32, 0x01, .blob, .ro, true, true, none⟩, -- ROW_MAP
  ⟨0x3300, 1, 0x01, .u8, .ro, false, false, some (.num 0xFF)⟩, -- FORMATS
  ⟨0x3300, 1, 0x02, .u8, .ro, false, false, some (.num 0xFE)⟩, -- ACT_FORMATS
  ⟨0x3300, 1, 0x03, .u16, .ro, false, false, some (.num 1)⟩, -- LAYOUT
  ⟨0x3300, 1, 0x04, .u64, .ro, false, false, some (.num 0)⟩, -- CONVERTED_TILES
  ⟨0x3300, 1, 0x05, .u32, .rc, false, false, some (.num 0)⟩, -- CONVERT_REFUSED
  ⟨0x3300, 1, 0x06, .u64, .ro, true, false, some (.num 0)⟩, -- ROUNDED_CHUNKS
  ⟨0x3300, 1, 0x07, .u32, .rc, true, false, some (.num 0)⟩, -- EXP_CLAMPED
  ⟨0x3300, 1, 0x08, .u32, .rc, false, false, some (.num 0)⟩, -- ACT_MALFORMED
  ⟨0x3400, 1, 0x01, .u8, .cw, false, true, some (.num 1)⟩, -- SAT_REPEAT_LIMIT
  ⟨0x3400, 1, 0x02, .u32, .ro, false, false, some (.num 16777216)⟩, -- KRUN_LIMIT
  ⟨0x3400, 1, 0x03, .u32, .ro, false, false, some (.num 8388608)⟩, -- KRUN_LIMIT_I8
  ⟨0x3400, 1, 0x04, .b, .cw, true, true, some (.num 0x00)⟩, -- INEXACT_EVENTS
  ⟨0x3500, 32, 0x01, .u64, .ro, false, false, some (.num 0)⟩, -- TILES_DRAINED
  ⟨0x3500, 32, 0x02, .u64, .ro, false, false, some (.num 0)⟩, -- ELEMENTS_DRAINED
  ⟨0x3500, 32, 0x03, .u32, .rc, false, false, some (.num 0)⟩, -- SAT_REPEATS
  ⟨0x3500, 32, 0x04, .u32, .rc, false, false, some (.num 0)⟩, -- SAT_UNRESOLVED
  ⟨0x3500, 32, 0x05, .u32, .rc, false, false, some (.num 0)⟩, -- INEXACT_TILES
  ⟨0x3500, 32, 0x06, .u32, .rc, false, false, some (.num 0)⟩, -- SLOTS_INVALIDATED
  ⟨0x3500, 32, 0x07, .u32, .rc, false, false, some (.num 0)⟩, -- PROGRAM_ERRORS
  ⟨0x3500, 32, 0x08, .u32, .rc, true, false, some (.num 0)⟩, -- DRAIN_WAIT_MAX
  ⟨0x3500, 32, 0x09, .u16, .ro, false, false, some (.num 2048)⟩, -- SLOTS_FREE
  ⟨0x3600, 1, 0x01, .u64, .wo, true, false, none⟩, -- PEEK_CMD
  ⟨0x3600, 1, 0x02, .blob, .ro, true, false, some (.bytes [])⟩, -- PEEK_DATA
  ⟨0x3600, 1, 0x03, .u32, .ro, true, false, some (.num 0)⟩] -- PEEK_COUNT

/-- Objects 3000h-3FFFh, part 2. -/
def dict3_1 : List ObjDef := [
  ⟨0x3700, 32, 0x01, .u8, .ro, false, false, some (.num 0)⟩, -- SEQ_STATE
  ⟨0x3700, 32, 0x02, .u64, .ro, false, false, some (.num 0)⟩, -- CMDS_EXECUTED
  ⟨0x3700, 32, 0x03, .u64, .ro, false, false, some (.num 0)⟩, -- PLANE_LOADS
  ⟨0x3700, 32, 0x04, .u32, .rc, false, false, some (.num 0)⟩, -- PREEMPTIONS
  ⟨0x3700, 32, 0x05, .u32, .rc, false, false, some (.num 0)⟩, -- LATE_WAITS
  ⟨0x3700, 32, 0x06, .u64, .ro, true, false, some (.num 0)⟩, -- LOAD_IDLE
  ⟨0x3700, 32, 0x07, .u32, .rc, false, false, some (.num 0)⟩, -- CMD_ERRORS
  ⟨0x3700, 32, 0x08, .u16, .ro, true, false, some (.num 0x0000)⟩, -- LAST_CMD_ERROR
  ⟨0x3700, 32, 0x09, .u16, .ro, true, false, some (.num 0)⟩, -- PRIO_DEPTH
  ⟨0x3700, 32, 0x0A, .u16, .ro, true, false, some (.num 0)⟩, -- FILL_DEPTH
  ⟨0x3800, 1, 0x01, .u16, .ro, false, false, some (.num 256)⟩, -- PRIO_QUEUE
  ⟨0x3800, 1, 0x02, .u16, .ro, false, false, some (.num 128)⟩, -- FILL_QUEUE
  ⟨0x3800, 1, 0x03, .b, .cw, true, true, some (.num 0x00)⟩, -- VEC_FLAG_EVENTS
  ⟨0x3800, 1, 0x04, .u32, .ro, false, false, some (.num 1048576)⟩, -- VECTOR_STORE
  ⟨0x3900, 32, 0x01, .u64, .ro, false, false, some (.num 0)⟩, -- VEC_OPS
  ⟨0x3900, 32, 0x02, .u8, .rc, false, false, some (.num 0x00)⟩, -- VEC_FLAGS
  ⟨0x3900, 32, 0x03, .u32, .rc, false, false, some (.num 0)⟩, -- QUANT_SATURATED
  ⟨0x3900, 32, 0x04, .u32, .rc, false, false, some (.num 0)⟩, -- NONFINITE_ABORTS
  ⟨0x3900, 32, 0x05, .u32, .rc, false, false, some (.num 0)⟩] -- CMD_ERRORS

/-- Objects 3000h-3FFFh. -/
def dict3 : List ObjDef := dict3_0 ++ dict3_1

/-- Objects 4000h-4FFFh, part 1. -/
def dict4_0 : List ObjDef := [
  ⟨0x4000, 1, 0x01, .u8, .cw, false, true, some (.num 0)⟩, -- SPLIT_PRESET
  ⟨0x4000, 1, 0x02, .u32, .cw, true, true, some (.num 0x000A1323)⟩, -- EXPERT_SHARES
  ⟨0x4000, 1, 0x03, .u32, .ro, false, false, some (.num 1100)⟩, -- ASSURED_RATE
  ⟨0x4000, 1, 0x04, .u16, .ro, false, false, some (.num 256)⟩, -- SHORT_ACCESS
  ⟨0x4010, 8, 0x01, .u64, .ro, false, false, some (.num 0)⟩, -- READ_BYTES
  ⟨0x4010, 8, 0x02, .u64, .ro, false, false, some (.num 0)⟩, -- WRITE_BYTES
  ⟨0x4010, 8, 0x03, .u64, .ro, false, false, some (.num 0)⟩, -- REMOTE_BYTES
  ⟨0x4010, 8, 0x04, .u64, .ro, true, false, some (.num 0)⟩, -- RECLAIMED_BYTES
  ⟨0x4010, 8, 0x05, .u32, .rc, true, false, some (.num 0)⟩, -- SHARE_SHORTFALL
  ⟨0x4100, 1, 0x01, .u16, .ro, false, false, some (.num 8192)⟩, -- STAGING_BLOCKS
  ⟨0x4100, 1, 0x02, .u8, .ro, false, false, some (.num 64)⟩, -- DOWEL_DEPTH
  ⟨0x4100, 1, 0x03, .u8, .ro, false, false, some (.num 16)⟩, -- BISCUIT_ENTRIES
  ⟨0x4100, 1, 0x04, .u32, .cw, true, true, some (.num 30720)⟩, -- STALL_LIMIT
  ⟨0x4100, 1, 0x05, .u16, .cw, true, true, some (.num 512)⟩, -- ESCAPE_WAIT
  ⟨0x4100, 1, 0x06, .u16, .cw, false, true, some (.num 256)⟩, -- LAG_DEFAULT
  ⟨0x4200, 8, 0x01, .u16, .ro, false, false, some (.num 0)⟩, -- STREAMS_OPEN
  ⟨0x4200, 8, 0x02, .u16, .ro, false, false, some (.num 8192)⟩, -- BLOCKS_FREE
  ⟨0x4200, 8, 0x03, .u64, .ro, false, false, some (.num 0)⟩, -- JIGS_RUN
  ⟨0x4200, 8, 0x04, .u64, .ro, true, false, some (.num 0)⟩, -- EMISSIONS
  ⟨0x4200, 8, 0x05, .u64, .ro, true, false, some (.num 0)⟩, -- BISCUITS
  ⟨0x4200, 8, 0x06, .u32, .rc, false, false, some (.num 0)⟩, -- STALL_ABORTS
  ⟨0x4200, 8, 0x07, .u32, .rc, false, false, some (.num 0)⟩, -- ESCAPE_GRANTS
  ⟨0x4200, 8, 0x08, .u32, .rc, false, false, some (.num 0)⟩, -- MCAST_REMOVED
  ⟨0x4200, 8, 0x09, .u64, .ro, true, false, some (.num 0)⟩, -- CATCHUP_BYTES
  ⟨0x4200, 8, 0x0A, .u32, .rc, false, false, some (.num 0)⟩, -- TEARDOWNS
  ⟨0x4200, 8, 0x0B, .u32, .rc, false, false, some (.num 0)⟩, -- JIG_FAULTS
  ⟨0x4300, 1, 0x01, .u16, .rw, true, false, some (.num 0)⟩, -- STREAM_SELECT
  ⟨0x4300, 1, 0x02, .blob, .ro, true, false, some (.bytes [])⟩, -- STREAM_DESC
  ⟨0x4400, 1, 0x01, .u16, .cw, false, true, some (.num 24)⟩, -- HBM_SCRUB_PERIOD
  ⟨0x4400, 1, 0x02, .u16, .cw, true, true, some (.num 10)⟩, -- SHELF_SCRUB_PERIOD
  ⟨0x4400, 1, 0x03, .u16, .cw, true, true, some (.num 8)⟩, -- RETIRE_THRESHOLD
  ⟨0x4400, 1, 0x04, .u32, .cw, true, true, some (.num 86400)⟩, -- ERROR_WINDOW
  ⟨0x4400, 1, 0x05, .u16, .cw, true, true, some (.num 4)⟩, -- SHELF_REPAIR_THRESHOLD
  ⟨0x4400, 1, 0x06, .u16, .ro, false, false, some (.num 16384)⟩, -- SPARE_UNITS
  ⟨0x4400, 1, 0x07, .u8, .ro, false, false, some (.num 32)⟩, -- SPARE_ROWS
  ⟨0x4500, 8, 0x01, .u64, .ro, false, false, some (.num 0)⟩, -- CORRECTED
  ⟨0x4500, 8, 0x02, .u32, .rc, false, false, some (.num 0)⟩, -- UNCORRECTABLE
  ⟨0x4500, 8, 0x03, .u32, .rc, true, false, some (.num 0)⟩, -- REREAD_OK
  ⟨0x4500, 8, 0x04, .u16, .ro, false, true, some (.num 0)⟩, -- RETIRED_UNITS
  ⟨0x4500, 8, 0x05, .u16, .ro, false, true, some (.num 16384)⟩] -- SPARES_LEFT

/-- Objects 4000h-4FFFh, part 2. -/
def dict4_1 : List ObjDef := [
  ⟨0x4500, 8, 0x06, .u32, .ro, false, false, some (.num 0)⟩, -- SCRUB_PASSES
  ⟨0x4500, 8, 0x07, .u64, .ro, true, false, some (.num 0)⟩, -- SCRUB_POSITION
  ⟨0x4500, 8, 0x08, .blob, .ro, true, true, some (.bytes [])⟩, -- REMAP_TABLE
  ⟨0x4500, 8, 0x09, .u8, .ro, true, true, some (.num 0)⟩, -- LANE_REPAIRS
  ⟨0x4600, 8, 0x01, .u64, .ro, false, false, some (.num 0)⟩, -- SHELF_CORRECTED
  ⟨0x4600, 8, 0x02, .u32, .rc, false, false, some (.num 0)⟩, -- SHELF_UNCORRECTABLE
  ⟨0x4600, 8, 0x03, .u16, .ro, false, false, some (.num 8738)⟩, -- PLACES_USABLE
  ⟨0x4600, 8, 0x04, .blob, .ro, true, false, some (.bytes [])⟩, -- PLACES_WITHDRAWN
  ⟨0x4600, 8, 0x05, .u16, .ro, false, true, some (.num 0)⟩, -- REPAIR_PENDING
  ⟨0x4600, 8, 0x06, .u16, .ro, false, false, some (.num 2048)⟩, -- SPARE_ROWS_LEFT
  ⟨0x4600, 8, 0x07, .u32, .ro, false, false, some (.num 0)⟩, -- SHELF_SCRUB_PASSES
  ⟨0x4600, 8, 0x08, .u64, .ro, false, false, some (.num 0)⟩, -- STAGING_CORRECTED
  ⟨0x4600, 8, 0x09, .u32, .rc, false, false, some (.num 0)⟩, -- STAGING_UNCORRECTABLE
  ⟨0x4700, 32, 0x01, .u64, .ro, false, false, some (.num 0)⟩, -- ACC_CORRECTED
  ⟨0x4700, 32, 0x02, .u32, .rc, false, false, some (.num 0)⟩, -- ACC_UNCORRECTABLE
  ⟨0x4700, 32, 0x03, .u64, .ro, false, false, some (.num 0)⟩, -- VSTORE_CORRECTED
  ⟨0x4700, 32, 0x04, .u32, .rc, false, false, some (.num 0)⟩, -- VSTORE_UNCORRECTABLE
  ⟨0x4800, 1, 0x01, .blob, .ro, true, false, some (.bytes [])⟩, -- ERROR_LOG
  ⟨0x4800, 1, 0x02, .u32, .ro, false, false, some (.num 0)⟩] -- LOG_WRITTEN

/-- Objects 4000h-4FFFh. -/
def dict4 : List ObjDef := dict4_0 ++ dict4_1

/-- Objects 5000h-5FFFh. -/
def dict5 : List ObjDef := [
  ⟨0x5000, 1, 0x01, .u16, .ro, false, false, some (.num 4096)⟩, -- CONTEXTS_MAX
  ⟨0x5000, 1, 0x02, .u16, .ro, false, false, none⟩, -- CONTEXTS_REGISTERED
  ⟨0x5000, 1, 0x03, .u16, .cw, true, true, some (.num 512)⟩, -- SHELF_CACHE
  ⟨0x5000, 1, 0x04, .u64, .cw, true, true, some (.num 0)⟩, -- LIBRARY_BYTES
  ⟨0x5000, 1, 0x05, .u16, .rw, false, true, some (.num 100)⟩, -- REPAIR_TIMEOUT
  ⟨0x5000, 1, 0x06, .u16, .rw, false, true, some (.num 10)⟩, -- BUILD_STALL
  ⟨0x5000, 1, 0x07, .u32, .ro, false, false, some (.num 0)⟩, -- MITRES
  ⟨0x5000, 1, 0x08, .u32, .ro, false, false, some (.num 0)⟩, -- COPIES_RETIRED
  ⟨0x5000, 1, 0x09, .u64, .ro, true, false, some (.num 0)⟩, -- CACHE_HITS
  ⟨0x5000, 1, 0x0A, .u64, .ro, true, false, some (.num 0)⟩, -- CACHE_MISSES
  ⟨0x5010, 1, 0x01, .u64, .wo, false, false, none⟩, -- CTX_CMD
  ⟨0x5010, 1, 0x02, .blob, .wo, false, false, none⟩, -- CTX_DESC
  ⟨0x5010, 1, 0x03, .u8, .ro, false, false, some (.num 0)⟩, -- LAST_RESULT
  ⟨0x5020, 1, 0x01, .u16, .rw, false, false, some (.num 0)⟩, -- CTX_SELECT
  ⟨0x5020, 1, 0x02, .u8, .ro, false, false, some (.num 0)⟩, -- CTX_STATE
  ⟨0x5020, 1, 0x03, .u32, .ro, false, false, some (.num 0)⟩, -- MODEL
  ⟨0x5020, 1, 0x04, .u8, .ro, false, false, some (.num 0)⟩, -- STAGE
  ⟨0x5020, 1, 0x05, .u8, .ro, false, false, some (.num 0xFF)⟩, -- PENDING
  ⟨0x5020, 1, 0x06, .u32, .ro, false, false, some (.num 0)⟩, -- A_COPY_ID
  ⟨0x5020, 1, 0x07, .u8, .ro, false, false, some (.num 0)⟩, -- A_STATE
  ⟨0x5020, 1, 0x08, .u32, .ro, false, false, some (.num 0)⟩, -- A_BATCHES
  ⟨0x5020, 1, 0x09, .u32, .ro, false, false, some (.num 0)⟩, -- A_JOURNAL
  ⟨0x5020, 1, 0x0A, .u32, .ro, false, false, some (.num 0)⟩, -- B_COPY_ID
  ⟨0x5020, 1, 0x0B, .u8, .ro, false, false, some (.num 0)⟩, -- B_STATE
  ⟨0x5020, 1, 0x0C, .u32, .ro, false, false, some (.num 0)⟩, -- B_BATCHES
  ⟨0x5020, 1, 0x0D, .u32, .ro, false, false, some (.num 0)⟩, -- B_JOURNAL
  ⟨0x5020, 1, 0x0E, .u32, .ro, false, false, some (.num 0)⟩, -- BUILD_BLOCKS
  ⟨0x5020, 1, 0x0F, .u32, .ro, false, false, some (.num 0)⟩, -- BUILD_TOTAL
  ⟨0x5020, 1, 0x10, .u32, .ro, false, false, some (.num 0)⟩, -- SPILLED
  ⟨0x5030, 1, 0x01, .u32, .rw, false, false, some (.num 0)⟩, -- PLACE_SELECT
  ⟨0x5030, 1, 0x02, .blob, .ro, false, false, some (.bytes [])⟩, -- PLACE_TABLE
  ⟨0x5030, 1, 0x03, .blob, .ro, false, false, some (.bytes (List.replicate 16 0))⟩, -- PLACES_FREE
  ⟨0x5040, 1, 0x01, .u16, .ro, false, false, some (.num 0)⟩, -- NEEDED
  ⟨0x5040, 1, 0x02, .blob, .ro, false, false, some (.bytes [])⟩] -- NEEDED_LIST

/-- Objects 6000h-6FFFh. -/
def dict6 : List ObjDef := [
  ⟨0x6000, 1, 0x01, .u32, .ro, false, false, some (.num 65536)⟩, -- SESSIONS_MAX
  ⟨0x6000, 1, 0x02, .u16, .rw, false, true, some (.num 6000)⟩, -- IDLE_LIMIT
  ⟨0x6000, 1, 0x03, .u64, .cw, false, true, some (.num 68719476736)⟩, -- KV_POOL
  ⟨0x6000, 1, 0x04, .u32, .ro, false, false, some (.num 65536)⟩, -- PAGE_BYTES
  ⟨0x6000, 1, 0x05, .u8, .cw, true, true, some (.num 4)⟩, -- SESSION_QUEUE
  ⟨0x6000, 1, 0x06, .u16, .rw, false, true, some (.num 10)⟩, -- SEGMENT_LIMIT
  ⟨0x6000, 1, 0x07, .u32, .ro, false, false, some (.num 65536)⟩, -- DONE_WINDOW
  ⟨0x6010, 1, 0x01, .u32, .ro, false, false, some (.num 0)⟩, -- SESSIONS_OPEN
  ⟨0x6010, 1, 0x02, .u32, .ro, false, false, some (.num 0)⟩, -- SESSIONS_EVICTED
  ⟨0x6010, 1, 0x03, .u32, .ro, false, false, some (.num 0)⟩, -- PAGES_FREE
  ⟨0x6010, 1, 0x04, .u64, .ro, false, false, some (.num 0)⟩, -- REQUESTS
  ⟨0x6010, 1, 0x05, .u64, .ro, false, false, some (.num 0)⟩, -- TOKENS
  ⟨0x6010, 1, 0x06, .u32, .rc, false, false, some (.num 0)⟩, -- RECLAIMED
  ⟨0x6010, 1, 0x07, .u32, .rc, false, false, some (.num 0)⟩, -- EVICTIONS
  ⟨0x6010, 1, 0x08, .u32, .rc, false, false, some (.num 0)⟩, -- RE_PREFILLS
  ⟨0x6010, 1, 0x09, .u32, .rc, false, false, some (.num 0)⟩, -- DUPLICATES
  ⟨0x6010, 1, 0x0A, .u32, .rc, false, false, some (.num 0)⟩, -- SEGMENTS_DROPPED
  ⟨0x6010, 1, 0x0B, .u32, .rc, false, false, some (.num 0)⟩, -- SESSION_REFUSALS
  ⟨0x6020, 1, 0x01, .u64, .rw, false, false, some (.num 0)⟩, -- SESSION_SELECT
  ⟨0x6020, 1, 0x02, .u8, .ro, false, false, some (.num 0)⟩, -- SESSION_STATE
  ⟨0x6020, 1, 0x03, .u16, .ro, false, false, some (.num 0)⟩, -- SESSION_NO
  ⟨0x6020, 1, 0x04, .u16, .ro, false, false, some (.num 0)⟩, -- CONTEXT
  ⟨0x6020, 1, 0x05, .u32, .ro, false, false, some (.num 0)⟩, -- POSITIONS
  ⟨0x6020, 1, 0x06, .u32, .ro, false, false, some (.num 0)⟩, -- PAGES
  ⟨0x6020, 1, 0x07, .u32, .ro, false, false, some (.num 0)⟩, -- IDLE_FRAMES
  ⟨0x6020, 1, 0x08, .u8, .ro, false, false, some (.num 0)⟩, -- WAITING
  ⟨0x6020, 1, 0x09, .u64, .ro, true, false, some (.num 0)⟩, -- SEED
  ⟨0x6030, 1, 0x01, .u64, .wo, false, false, none⟩, -- SVC_ARG
  ⟨0x6030, 1, 0x02, .u8, .wo, false, false, none⟩, -- SVC_CMD
  ⟨0x6030, 1, 0x03, .u8, .ro, false, false, some (.num 0)⟩] -- LAST_RESULT

/-- Objects 7000h-7FFFh, part 1. -/
def dict7_0 : List ObjDef := [
  ⟨0x7000, 1, 0x01, .u8, .rw, false, true, some (.num 0x03)⟩, -- INPUT_ENABLE
  ⟨0x7000, 1, 0x02, .u8, .ro, false, false, some (.num 0x00)⟩, -- INPUT_STATE
  ⟨0x7000, 1, 0x03, .blob, .ro, false, false, some (.bytes (List.replicate 32 0))⟩, -- FEED_POWER_A
  ⟨0x7000, 1, 0x04, .blob, .ro, false, false, some (.bytes (List.replicate 32 0))⟩, -- FEED_POWER_B
  ⟨0x7000, 1, 0x05, .f32, .rc, true, false, some (.num 0xC2C60000)⟩, -- RETURN_MAX
  ⟨0x7000, 1, 0x06, .f32, .cw, true, true, some (.num 0x41A00000)⟩, -- FEED_MIN
  ⟨0x7000, 1, 0x07, .f32, .cw, true, true, some (.num 0x40C00000)⟩, -- RETURN_JUMP
  ⟨0x7000, 1, 0x08, .f32, .cw, true, true, some (.num 0x41400000)⟩, -- BUS_SETPOINT
  ⟨0x7000, 1, 0x09, .blob, .ro, false, false, some (.bytes (List.replicate 8 0))⟩, -- LC_POWER
  ⟨0x7000, 1, 0x0A, .u32, .rc, false, false, some (.num 0)⟩, -- INTERLOCK_TRIPS
  ⟨0x7010, 1, 0x01, .u64, .rw, false, true, some (.num 0xAAAAAAAAAAAAAAAA)⟩, -- SOURCE_MAP
  ⟨0x7010, 1, 0x02, .u64, .ro, false, false, some (.num 0xAAAAAAAAAAAAAAAA)⟩, -- SOURCE_ACTIVE
  ⟨0x7010, 1, 0x03, .b, .cw, false, true, some (.num 0x01)⟩, -- AUTO_FAILOVER
  ⟨0x7010, 1, 0x04, .u32, .rc, false, false, some (.num 0)⟩, -- CHANGEOVERS
  ⟨0x7010, 1, 0x05, .u32, .rc, false, false, some (.num 0)⟩, -- FAILOVERS
  ⟨0x7010, 1, 0x06, .f32, .cw, true, true, some (.num 0x3F800000)⟩, -- HEADROOM_LOW
  ⟨0x7010, 1, 0x07, .f32, .ro, true, false, some (.num 0x00000000)⟩, -- HEADROOM_MIN
  ⟨0x7020, 1, 0x01, .u32, .cw, false, true, some (.num 10)⟩, -- CAL_INTERVAL
  ⟨0x7020, 1, 0x02, .f32, .cw, false, true, some (.num 0x428C0000)⟩, -- REGION_SETPOINT
  ⟨0x7020, 1, 0x03, .u8, .cw, true, true, some (.num 8)⟩, -- LOCK_LIMIT
  ⟨0x7020, 1, 0x04, .f32, .cw, true, true, some (.num 0x3FC00000)⟩, -- THERMAL_TOL
  ⟨0x7020, 1, 0x05, .u32, .ro, false, false, some (.num 300)⟩, -- RELOCK_LIMIT
  ⟨0x7020, 1, 0x06, .u32, .ro, false, false, some (.num 1000000)⟩, -- PILOT_BASE
  ⟨0x7020, 1, 0x07, .u32, .ro, false, false, some (.num 125000)⟩, -- PILOT_STEP
  ⟨0x7020, 1, 0x08, .u32, .ro, false, false, some (.num 160)⟩, -- SCAN_PERIOD
  ⟨0x7020, 1, 0x09, .u32, .ro, false, false, some (.num 50000)⟩, -- LOCK_BANDWIDTH
  ⟨0x7100, 32, 0x01, .u8, .ro, false, false, some (.num 1)⟩, -- LOCK_STATE
  ⟨0x7100, 32, 0x02, .u8, .ro, false, false, some (.num 0x02)⟩, -- BUS_SOURCE
  ⟨0x7100, 32, 0x03, .u32, .rc, false, false, some (.num 0)⟩, -- RELOCKS
  ⟨0x7100, 32, 0x04, .u32, .ro, false, false, some (.num 0)⟩, -- RELOCK_LAST
  ⟨0x7100, 32, 0x05, .u32, .rc, false, false, some (.num 0)⟩, -- RELOCK_FAILS
  ⟨0x7100, 32, 0x06, .u32, .rc, false, false, some (.num 0)⟩, -- THERMAL_STOPS
  ⟨0x7100, 32, 0x07, .u32, .rc, false, false, some (.num 0)⟩, -- WRONG_LINE
  ⟨0x7100, 32, 0x08, .u16, .ro, true, false, some (.num 0x03FF)⟩, -- CAL_ROW
  ⟨0x7100, 32, 0x09, .u64, .ro, false, false, some (.num 0)⟩, -- CAL_DONE
  ⟨0x7100, 32, 0x0A, .u32, .rc, false, false, some (.num 0)⟩, -- CAL_FAILS
  ⟨0x7100, 32, 0x0B, .u32, .ro, false, false, some (.num 0)⟩, -- CAL_OLDEST
  ⟨0x7100, 32, 0x0C, .blob, .ro, false, false, some (.bytes (List.replicate 64 0))⟩, -- REGION_TEMP
  ⟨0x7100, 32, 0x0D, .blob, .ro, true, false, some (.bytes (List.replicate 32 0))⟩, -- REGION_DRIVE
  ⟨0x7300, 1, 0x01, .b, .cw, false, true, some (.num 0x01)⟩] -- FF_ENABLE

/-- Objects 7000h-7FFFh, part 2. -/
def dict7_1 : List ObjDef := [
  ⟨0x7300, 1, 0x02, .u16, .cw, true, true, some (.num 32)⟩, -- FF_LEAD
  ⟨0x7300, 1, 0x03, .u8, .cw, true, true, some (.num 0)⟩, -- FF_WAVE_UP
  ⟨0x7300, 1, 0x04, .u8, .cw, true, true, some (.num 1)⟩, -- FF_WAVE_DOWN
  ⟨0x7300, 1, 0x05, .u8, .cw, true, true, some (.num 5)⟩, -- FF_THRESHOLD
  ⟨0x7300, 1, 0x06, .blob, .cw, true, true, none⟩, -- FF_GAIN
  ⟨0x7300, 1, 0x07, .u64, .ro, true, false, some (.num 0)⟩, -- FF_TRIGGERS
  ⟨0x7400, 1, 0x01, .u32, .rw, true, false, some (.num 0)⟩, -- RING_SELECT
  ⟨0x7400, 1, 0x02, .u32, .ro, true, false, some (.num 0)⟩] -- RING_STATUS

/-- Objects 7000h-7FFFh. -/
def dict7 : List ObjDef := dict7_0 ++ dict7_1

/-- Objects 8000h-8FFFh, part 1. -/
def dict8_0 : List ObjDef := [
  ⟨0x8000, 1, 0x01, .u16, .ro, false, false, some (.num 1400)⟩, -- TDP
  ⟨0x8000, 1, 0x02, .u16, .cw, true, true, some (.num 1400)⟩, -- POWER_LIMIT
  ⟨0x8000, 1, 0x03, .f32, .ro, false, false, some (.num 0x00000000)⟩, -- POWER_NOW
  ⟨0x8000, 1, 0x04, .f32, .rc, false, false, some (.num 0x00000000)⟩, -- POWER_PEAK
  ⟨0x8000, 1, 0x05, .u64, .ro, false, false, some (.num 0)⟩, -- RAILS_GOOD
  ⟨0x8000, 1, 0x06, .f32, .cw, true, true, some (.num 0x40400000)⟩, -- WARN_PCT
  ⟨0x8000, 1, 0x07, .f32, .cw, true, true, some (.num 0x40C00000)⟩, -- RESET_PCT
  ⟨0x8000, 1, 0x08, .f32, .cw, true, true, some (.num 0x40C00000)⟩, -- OV_PCT
  ⟨0x8010, 1, 0x01, .blob, .cw, true, true, some (.bytes (List.replicate 328 0))⟩, -- RAIL_TABLE
  ⟨0x8100, 41, 0x01, .u8, .ro, false, false, some (.num 0)⟩, -- RAIL_STATE
  ⟨0x8100, 41, 0x02, .f32, .ro, false, false, some (.num 0x00000000)⟩, -- VOLTAGE
  ⟨0x8100, 41, 0x03, .f32, .ro, false, false, some (.num 0x00000000)⟩, -- CURRENT
  ⟨0x8100, 41, 0x04, .u32, .rc, false, false, some (.num 0)⟩, -- RAIL_DIPS
  ⟨0x8100, 41, 0x05, .u32, .rc, false, false, some (.num 0)⟩, -- PMBUS_FAULTS
  ⟨0x8100, 41, 0x06, .u16, .ro, true, false, some (.num 0x0000)⟩, -- STATUS_WORD
  ⟨0x8300, 5, 0x01, .f32, .cw, false, true, none⟩, -- WARN_TEMP
  ⟨0x8300, 5, 0x02, .f32, .cw, false, true, none⟩, -- THROTTLE_TEMP
  ⟨0x8300, 5, 0x03, .f32, .cw, true, true, none⟩, -- CRIT_TEMP
  ⟨0x8300, 5, 0x04, .f32, .cw, true, true, some (.num 0x40400000)⟩, -- HYST
  ⟨0x8300, 5, 0x05, .f32, .ro, false, false, some (.num 0x00000000)⟩, -- TEMP_MAX
  ⟨0x8300, 5, 0x06, .u16, .ro, false, false, some (.num 0)⟩, -- REPLACED
  ⟨0x8400, 1, 0x01, .u8, .cw, false, true, some (.num 5)⟩, -- GRACE
  ⟨0x8400, 1, 0x02, .f32, .cw, true, true, some (.num 0x40A00000)⟩, -- SLOT_GAIN
  ⟨0x8400, 1, 0x03, .u8, .cw, true, true, some (.num 25)⟩, -- SLOT_FLOOR
  ⟨0x8400, 1, 0x04, .u8, .cw, false, true, some (.num 50)⟩, -- ENFORCED_DUTY
  ⟨0x8400, 1, 0x05, .u8, .cw, true, true, some (.num 5)⟩, -- SLOT_STEP
  ⟨0x8410, 32, 0x01, .u8, .ro, false, false, some (.num 100)⟩, -- SLOT_CAP
  ⟨0x8410, 32, 0x02, .u8, .ro, false, false, some (.num 100)⟩, -- ENFORCED
  ⟨0x8410, 32, 0x03, .u32, .rc, false, false, some (.num 0)⟩, -- ENFORCED_FRAMES
  ⟨0x8500, 1, 0x01, .f32, .cw, true, true, some (.num 0x40A00000)⟩, -- NEIGHBOUR_TOL
  ⟨0x8500, 1, 0x02, .u16, .rw, true, false, some (.num 0)⟩, -- SENSOR_SELECT
  ⟨0x8500, 1, 0x03, .blob, .cw, true, true, some (.bytes [])⟩, -- SENSOR_TABLE
  ⟨0x8500, 1, 0x04, .blob, .ro, true, false, some (.bytes [])⟩, -- SENSOR_STATUS
  ⟨0x8600, 1, 0x01, .b, .cw, false, true, some (.num 0x01)⟩, -- SPREAD_ENABLE
  ⟨0x8600, 1, 0x02, .u32, .cw, true, true, some (.num 31500)⟩, -- SPREAD_FREQ
  ⟨0x8600, 1, 0x03, .b, .ro, false, false, none⟩, -- SPREAD_ACTIVE
  ⟨0x8600, 1, 0x04, .b, .ro, false, false, none⟩, -- SSC_STRAP
  ⟨0x8600, 1, 0x05, .u32, .rc, true, false, some (.num 0)⟩, -- FRAME_GLITCHES
  ⟨0x8600, 1, 0x06, .u32, .rc, true, false, some (.num 0)⟩, -- PPS_GLITCHES
  ⟨0x8600, 1, 0x07, .u32, .rc, true, false, some (.num 0)⟩] -- RESET_GLITCHES

/-- Objects 8000h-8FFFh, part 2. -/
def dict8_1 : List ObjDef := [
  ⟨0x8600, 1, 0x08, .u32, .rc, true, false, some (.num 0)⟩] -- PWRFAIL_GLITCHES

/-- Objects 8000h-8FFFh. -/
def dict8 : List ObjDef := dict8_0 ++ dict8_1

/-- Objects 9000h-9FFFh. -/
def dict9 : List ObjDef := [
  ⟨0x9000, 4, 0x01, .u8, .cw, false, true, none⟩, -- PERIOD
  ⟨0x9000, 4, 0x02, .b, .cw, true, true, some (.num 0x00)⟩, -- LOW_POWER
  ⟨0x9000, 4, 0x03, .u8, .cw, false, true, none⟩, -- DIAG_MODE
  ⟨0x9000, 4, 0x04, .u16, .cw, true, true, some (.num 3072)⟩, -- TEST_CODE
  ⟨0x9000, 4, 0x05, .u8, .ro, false, false, some (.num 1)⟩, -- CONV_STATE
  ⟨0x9000, 4, 0x06, .u64, .ro, false, false, some (.num 0)⟩, -- LOOPS
  ⟨0x9000, 4, 0x07, .u32, .rc, false, false, some (.num 0)⟩, -- DIAG_FAILS
  ⟨0x9000, 4, 0x08, .u32, .rc, true, false, some (.num 0)⟩, -- ABORTS
  ⟨0x9000, 4, 0x09, .u32, .rc, false, false, some (.num 0)⟩, -- HELD_MISSED
  ⟨0x9000, 4, 0x0A, .blob, .cw, true, true, none⟩, -- SEQ_TABLE
  ⟨0x9020, 1, 0x01, .blob, .ro, false, false, some (.bytes (List.replicate 2048 0))⟩, -- RESULTS
  ⟨0x9030, 1, 0x01, .u16, .wo, false, false, none⟩, -- URGENT
  ⟨0x9030, 1, 0x02, .u64, .ro, false, false, some (.num 0)⟩, -- URGENT_RESULT
  ⟨0x9040, 1, 0x01, .u16, .rw, true, false, some (.num 0)⟩, -- CAL_SELECT
  ⟨0x9040, 1, 0x02, .f32, .rw, true, false, some (.num 0x00000000)⟩, -- CAL_VALUE
  ⟨0x9040, 1, 0x03, .u8, .wo, true, false, none⟩, -- CAL_CMD
  ⟨0x9040, 1, 0x04, .u8, .ro, true, false, some (.num 0)⟩, -- CAL_RESULT
  ⟨0x9040, 1, 0x05, .blob, .ro, true, true, some (.bytes [])⟩, -- CAL_TABLE
  ⟨0x9100, 16, 0x01, .u16, .rw, false, true, some (.num 0x8000)⟩, -- CODE
  ⟨0x9100, 16, 0x02, .u8, .rw, false, true, some (.num 1)⟩, -- SPAN
  ⟨0x9100, 16, 0x03, .u8, .ro, false, false, some (.num 0)⟩, -- OUT_STATE
  ⟨0x9100, 16, 0x04, .f32, .ro, false, false, some (.num 0x00000000)⟩, -- READBACK
  ⟨0x9100, 16, 0x05, .f32, .cw, true, true, some (.num 0x3C23D70A)⟩, -- READBACK_TOL
  ⟨0x9100, 16, 0x06, .u32, .rc, false, false, some (.num 0)⟩, -- MISMATCHES
  ⟨0x9120, 1, 0x01, .blob, .rw, true, true, none⟩, -- WAVE_MEMORY
  ⟨0x9120, 1, 0x02, .blob, .rw, true, true, none⟩, -- WAVE_TABLE
  ⟨0x9120, 1, 0x03, .blob, .wo, true, false, none⟩, -- TRIGGER
  ⟨0x9120, 1, 0x04, .u8, .ro, true, false, some (.num 0)⟩, -- TRIGGER_RESULT
  ⟨0x9120, 1, 0x05, .u32, .rc, true, false, some (.num 0)⟩, -- LATE
  ⟨0x9120, 1, 0x06, .u32, .rc, true, false, some (.num 0)⟩, -- CLAMPED
  ⟨0x9130, 1, 0x01, .u32, .rw, true, false, some (.num 0)⟩, -- HTR_SELECT
  ⟨0x9130, 1, 0x02, .blob, .ro, true, false, some (.bytes (List.replicate 32 0))⟩, -- HTR_READBACK
  ⟨0x9130, 1, 0x03, .u32, .rc, false, false, some (.num 0)⟩, -- HTR_MISMATCHES
  ⟨0x9130, 1, 0x04, .u8, .ro, false, false, some (.num 0x00)⟩, -- TRIM_VALID
  ⟨0x9130, 1, 0x05, .u64, .ro, true, false, some (.num 0)⟩] -- TRIM_SAVED

/-- Objects A000h-AFFFh. -/
def dictA : List ObjDef := [
  ⟨0xA000, 1, 0x01, .u8, .cw, false, true, some (.num 0xFF)⟩, -- GANG_ORDINAL
  ⟨0xA000, 1, 0x02, .u8, .cw, false, true, some (.num 1)⟩, -- GANG_SIZE
  ⟨0xA000, 1, 0x03, .u8, .rw, false, true, some (.num 0xFF)⟩, -- BUDDY
  ⟨0xA000, 1, 0x04, .b, .cw, false, true, some (.num 0x01)⟩, -- MIRROR_REQUIRED
  ⟨0xA000, 1, 0x05, .u8, .ro, false, false, some (.num 0)⟩, -- MIRROR_STATE
  ⟨0xA000, 1, 0x06, .u8, .ro, false, false, some (.num 0xFF)⟩, -- MIRROR_FROM
  ⟨0xA000, 1, 0x07, .u32, .cw, true, true, some (.num 3072)⟩, -- MIRROR_TIMEOUT
  ⟨0xA000, 1, 0x08, .u32, .cw, true, true, some (.num 0x08241004)⟩, -- PEER_SHARES
  ⟨0xA000, 1, 0x09, .u32, .ro, false, false, some (.num 86737)⟩, -- PEER_ASSURED
  ⟨0xA000, 1, 0x0A, .u64, .rw, true, true, some (.num 0)⟩, -- STAND_IN
  ⟨0xA000, 1, 0x0B, .u16, .ro, false, false, some (.num 8000)⟩, -- PEER_HOP
  ⟨0xA000, 1, 0x0C, .u32, .rc, false, false, some (.num 0)⟩, -- MIRROR_LAPSES
  ⟨0xA000, 1, 0x0D, .u64, .ro, true, false, some (.num 0)⟩, -- STAND_IN_ACTIVE
  ⟨0xA010, 4, 0x01, .u8, .ro, false, false, some (.num 0)⟩, -- LINK_STATE
  ⟨0xA010, 4, 0x02, .u8, .ro, false, false, some (.num 0x00)⟩, -- LANE_MASK
  ⟨0xA010, 4, 0x03, .blob, .ro, false, false, some (.bytes (List.replicate 32 0))⟩, -- RX_POWER
  ⟨0xA010, 4, 0x04, .b, .rw, false, true, some (.num 0x00)⟩, -- ENABLE
  ⟨0xA010, 4, 0x05, .u16, .rw, false, true, some (.num 0xFFFF)⟩, -- NEIGHBOUR
  ⟨0xA010, 4, 0x06, .u32, .rw, false, true, some (.num 0)⟩, -- SPAN_DELAY
  ⟨0xA010, 4, 0x07, .u64, .ro, true, false, some (.num 0)⟩, -- FEC_CORRECTED
  ⟨0xA010, 4, 0x08, .u32, .rc, false, false, some (.num 0)⟩, -- FEC_UNCORRECTABLE
  ⟨0xA010, 4, 0x09, .u32, .rc, true, false, some (.num 0)⟩, -- RESENDS
  ⟨0xA010, 4, 0x0A, .u32, .rc, false, false, some (.num 0)⟩, -- EYE_SHUTDOWNS
  ⟨0xA010, 4, 0x0B, .u32, .rc, false, false, some (.num 0)⟩, -- DEGRADES
  ⟨0xA010, 4, 0x0C, .b, .wo, false, false, none⟩, -- LANE_RESTORE
  ⟨0xA010, 4, 0x0D, .u64, .ro, false, false, some (.num 0)⟩, -- FRAMES_OUT
  ⟨0xA010, 4, 0x0E, .u64, .ro, true, false, some (.num 0)⟩, -- TRANSIT
  ⟨0xA010, 4, 0x0F, .u32, .rc, false, false, some (.num 0)⟩, -- MALFORMED
  ⟨0xA010, 4, 0x10, .u64, .ro, false, false, some (.num 0)⟩, -- PEER_SERIAL
  ⟨0xA020, 1, 0x01, .blob, .rw, false, true, some (.bytes (List.replicate 128 0))⟩, -- ROUTE_TABLE
  ⟨0xA020, 1, 0x02, .u32, .rc, false, false, some (.num 0)⟩, -- HOP_DISCARDS
  ⟨0xA020, 1, 0x03, .u32, .rc, false, false, some (.num 0)⟩, -- GANG_ABORTS
  ⟨0xA020, 1, 0x04, .u64, .ro, true, false, some (.num 0)⟩, -- REDUCE_BYTES
  ⟨0xA020, 1, 0x05, .u64, .ro, false, false, some (.num 0)⟩, -- MIRROR_RECORDS
  ⟨0xA020, 1, 0x06, .u32, .rc, false, false, some (.num 0)⟩] -- BLOCK_REREQUESTS

/-- Objects B000h-BFFFh. -/
def dictB : List ObjDef := [
  ⟨0xB000, 1, 0x01, .u64, .ro, false, false, some (.num 0)⟩, -- CORRECTED
  ⟨0xB000, 1, 0x02, .u64, .ro, false, false, some (.num 0)⟩, -- RETRIED
  ⟨0xB000, 1, 0x03, .u32, .rc, false, false, some (.num 0)⟩, -- ABORTED_REPLAYED
  ⟨0xB000, 1, 0x04, .u32, .rc, false, false, some (.num 0)⟩, -- ABORTED_COMPLETED
  ⟨0xB000, 1, 0x05, .u16, .ro, false, true, some (.num 0)⟩, -- DEGRADED
  ⟨0xB000, 1, 0x06, .u32, .ro, false, true, some (.num 0)⟩, -- SAFE_ENTRIES
  ⟨0xB000, 1, 0x07, .u8, .ro, false, false, some (.num 0)⟩, -- LAST_CLASS
  ⟨0xB000, 1, 0x08, .u64, .ro, false, false, some (.num 0)⟩, -- LAST_STAMP
  ⟨0xB000, 1, 0x09, .u32, .rc, false, false, some (.num 0)⟩, -- DIVERGENCES
  ⟨0xB100, 1, 0x01, .u32, .ro, false, false, some (.num 33554432)⟩, -- OWN_BYTES
  ⟨0xB100, 1, 0x02, .u32, .ro, false, false, some (.num 33554432)⟩, -- MIRROR_BYTES
  ⟨0xB100, 1, 0x03, .u32, .ro, false, false, some (.num 0)⟩, -- USED
  ⟨0xB100, 1, 0x04, .u32, .ro, false, false, some (.num 0)⟩, -- INCOMPLETE
  ⟨0xB100, 1, 0x05, .u32, .ro, false, false, some (.num 0)⟩, -- OLDEST_JSN
  ⟨0xB100, 1, 0x06, .u32, .ro, false, false, some (.num 0)⟩, -- NEXT_JSN
  ⟨0xB100, 1, 0x07, .u8, .cw, true, true, some (.num 90)⟩, -- HIGH_MARK
  ⟨0xB100, 1, 0x08, .u32, .rc, false, false, some (.num 0)⟩, -- OVERFLOWS
  ⟨0xB100, 1, 0x09, .u32, .ro, false, false, some (.num 0)⟩, -- UNSETTLED
  ⟨0xB100, 1, 0x0A, .u32, .ro, false, false, some (.num 0)⟩, -- TORN_ENTRIES
  ⟨0xB100, 1, 0x0B, .b, .ro, false, false, some (.num 0x00)⟩, -- ORDERLY
  ⟨0xB100, 1, 0x0C, .u64, .ro, true, false, some (.num 0)⟩, -- RELOCATED
  ⟨0xB110, 1, 0x01, .blob, .wo, false, false, none⟩, -- JOURNAL_ARG
  ⟨0xB110, 1, 0x02, .u8, .wo, false, false, none⟩, -- JOURNAL_CMD
  ⟨0xB110, 1, 0x03, .u8, .ro, false, false, some (.num 0)⟩, -- LAST_RESULT
  ⟨0xB120, 1, 0x01, .u8, .ro, false, false, some (.num 0xFF)⟩, -- ADOPTED_FROM
  ⟨0xB120, 1, 0x02, .u32, .ro, false, false, some (.num 0)⟩, -- ADOPTED_COUNT
  ⟨0xB120, 1, 0x03, .blob, .ro, false, false, some (.bytes [])⟩, -- ADOPTED_LIST
  ⟨0xB120, 1, 0x04, .u32, .ro, false, false, some (.num 0)⟩, -- ADOPT_WAITING
  ⟨0xB200, 1, 0x01, .u32, .ro, false, true, some (.num 0)⟩, -- PWRFAIL_COUNT
  ⟨0xB200, 1, 0x02, .u64, .ro, false, true, some (.num 0)⟩, -- PWRFAIL_LAST
  ⟨0xB200, 1, 0x03, .u32, .ro, true, true, some (.num 0)⟩, -- SEQ_TIME
  ⟨0xB200, 1, 0x04, .u32, .rc, false, false, some (.num 0)⟩, -- DIPS
  ⟨0xB200, 1, 0x05, .u32, .rc, false, false, some (.num 0)⟩, -- DIP_LONGEST
  ⟨0xB200, 1, 0x06, .u32, .rc, false, false, some (.num 0)⟩, -- LONG_DIPS
  ⟨0xB200, 1, 0x07, .u32, .rc, false, false, some (.num 0)⟩, -- RESET_LEVEL_CROSSINGS
  ⟨0xB200, 1, 0x08, .u16, .cw, true, true, some (.num 200)⟩] -- DIP_FILL_LIMIT

/-- Objects C000h-CFFFh. -/
def dictC : List ObjDef := [
  ⟨0xC000, 1, 0x01, .u8, .ro, false, false, none⟩, -- RUNNING_SLOT
  ⟨0xC000, 1, 0x02, .u8, .ro, false, false, none⟩, -- PREFERRED
  ⟨0xC000, 1, 0x03, .u8, .rw, false, false, some (.num 0xFF)⟩, -- BOOT_NEXT
  ⟨0xC000, 1, 0x04, .u32, .ro, false, false, some (.num 0)⟩, -- SLOT0_FW
  ⟨0xC000, 1, 0x05, .u32, .ro, false, false, some (.num 0)⟩, -- SLOT1_FW
  ⟨0xC000, 1, 0x06, .u32, .ro, false, false, some (.num 0)⟩, -- BUFFER_FW
  ⟨0xC000, 1, 0x07, .u8, .ro, false, false, none⟩, -- SVN_FLOOR
  ⟨0xC000, 1, 0x08, .u8, .ro, false, false, none⟩, -- BOOT_CAUSE
  ⟨0xC000, 1, 0x09, .u32, .ro, false, false, none⟩, -- BOOT_TIME
  ⟨0xC000, 1, 0x0A, .b, .wo, false, false, none⟩, -- COMMIT
  ⟨0xC000, 1, 0x0B, .b, .rw, true, false, none⟩, -- DEBUG_REQUEST
  ⟨0xC000, 1, 0x0C, .u32, .rc, true, false, some (.num 0)⟩, -- TAP_REFUSED
  ⟨0xC010, 1, 0x01, .b, .ro, false, false, some (.num 0x00)⟩, -- SEALED
  ⟨0xC010, 1, 0x02, .b, .bootOnly, false, false, some (.num 0x00)⟩, -- DEBUG_ALLOWED
  ⟨0xC010, 1, 0x03, .blob, .bootOnly, true, false, some (.bytes [])⟩, -- WINDOWS
  ⟨0xC010, 1, 0x04, .blob, .bootOnly, true, false, some (.bytes [])⟩, -- ACCESS_MAP
  ⟨0xC010, 1, 0x05, .blob, .ro, false, false, some (.bytes [])⟩, -- SEAL_HASH
  ⟨0xC020, 1, 0x01, .u8, .rw, false, false, some (.num 0xFF)⟩, -- IMAGE_TARGET
  ⟨0xC020, 1, 0x02, .blob, .wo, false, false, none⟩, -- IMAGE_DATA
  ⟨0xC020, 1, 0x03, .u8, .ro, false, false, some (.num 0)⟩, -- IMAGE_RESULT
  ⟨0xC020, 1, 0x04, .u32, .ro, true, false, some (.num 0)⟩, -- IMAGE_PROGRESS
  ⟨0xC030, 1, 0x01, .blob, .wo, false, false, none⟩, -- NONCE
  ⟨0xC030, 1, 0x02, .blob, .ro, false, false, some (.bytes [])⟩, -- REPORT
  ⟨0xC030, 1, 0x03, .u8, .ro, false, false, some (.num 0)⟩, -- REPORT_STATE
  ⟨0xC030, 1, 0x04, .blob, .ro, false, false, none⟩, -- IDENTITY_CERT
  ⟨0xC030, 1, 0x05, .blob, .ro, false, false, none⟩, -- IDENTITY_PUBLIC
  ⟨0xC030, 1, 0x06, .blob, .ro, false, false, none⟩] -- MEASUREMENTS

/-- The dictionary by the high digit of the index (R425). -/
def dictArea : Nat → List ObjDef
  | 0 => dict0
  | 1 => dict1
  | 2 => dict2
  | 3 => dict3
  | 4 => dict4
  | 5 => dict5
  | 6 => dict6
  | 7 => dict7
  | 8 => dict8
  | 9 => dict9
  | 10 => dictA
  | 11 => dictB
  | 12 => dictC
  | _ => []

/-- The dictionary, ascending. -/
def dictAll : List ObjDef := ((List.range 16).map dictArea).flatten

/-- The row that defines an index and subindex (R420, R421); subindex 00h is not in the tables. -/
def findDef (index sub : Nat) : Option ObjDef :=
  (dictArea (index / 4096)).find? fun d => d.sub == sub && d.base ≤ index && index < d.base + d.count

/-- The highest subindex of an object, none where no chapter defines it (R419, R421). -/
def subMax (index : Nat) : Option Nat :=
  ((dictArea (index / 4096)).filter fun d => d.base ≤ index && index < d.base + d.count).foldl
    (fun a d => some (max d.sub (a.getD 0))) none

/-- The factory sequence table of converter c (R542): entries of R543 with REPEAT 1. -/
def factorySeq (c : Nat) : Bytes :=
  let entry := fun (ch span sync last : Nat) =>
    leBytes 4 (ch + 256 * span + 2 ^ 19 + sync * 2 ^ 23 + last * 2 ^ 25) ++ List.replicate 12 0#8
  let chans := fun (l : List Nat) => (l.zipIdx.map fun p => entry p.1 1 0 (if p.2 + 1 = l.length then 1 else 0)).flatten
  match c with
  | 0 => entry 24 146 1 1
  | 1 => chans (List.range 24)
  | 2 => chans ((List.range 32).map (· + 170))
  | _ => chans ((List.range 24).map (· + 202) ++ [227])

/-- Defaults that differ from member to member or are factory values (R36, R523, R542, R548, R554). -/
def specialDefault (index sub : Nat) : Val :=
  match index / 16, sub with
  | 0x000, 0x06 => .num Config.serial.toNat
  | 0x000, 0x07 => .num Config.bootRomVer.toNat
  | 0x830, 0x01 => .num ([0x42B40000, 0x42AA0000, 0x42A00000, 0x42BE0000, 0x42700000].getD (index % 16) 0)
  | 0x830, 0x02 => .num ([0x42BE0000, 0x42B80000, 0x7FC00000, 0x7FC00000, 0x42820000].getD (index % 16) 0)
  | 0x830, 0x03 => .num ([0x42DC0000, 0x42D20000, 0x42BE0000, 0x42DC0000, 0x42960000].getD (index % 16) 0)
  | 0x900, 0x01 => .num ([0, 0, 0, 3].getD (index % 16) 0)
  | 0x900, 0x03 => .num ([1, 0, 0, 1].getD (index % 16) 0)
  | 0x900, 0x0A => .bytes (factorySeq (index % 16))
  | 0x912, 0x01 => .bytes Config.waveMemory
  | 0x912, 0x02 => .bytes Config.waveTable
  | 0x730, 0x06 => .bytes Config.ffGain
  | 0xC03, 0x04 => .bytes Config.identityCert
  | 0xC03, 0x05 => .bytes Config.identityPublic
  | 0xC03, _ => .bytes []
  | 0x320, _ => .bytes []
  | 0x321, _ => .bytes []
  | _, _ => .num 0

/-- The value an entry holds after reset and before any P value is restored (R15); subindex 00h holds the highest
subindex (R419). -/
def dfltOf (oid : Nat) : Val :=
  let index := oid / 256
  let sub := oid % 256
  if sub = 0 then .num ((subMax index).getD 0) else
  match findDef index sub with
  | some d => d.dflt.getD (specialDefault index sub)
  | none => .num 0

end Sys2Proof.Machine
end

