-- ==== Sys2Proof/Machine/Ops.lean ====
section
/-! DEFINITION. Ops.lean: the named operations every meaning is built from: sparse lists in canonical form, the byte
memories, the frame-time counter, objects, the persistent store, events, fault classes, frames to node 0. -/

namespace Sys2Proof.Machine

/-! ### Sparse lists: ascending keys, no entry equal to the default -/

/-- The value at a key; the default where none is listed. -/
def sparseGet {α : Type} (d : Nat → α) : List (Nat × α) → Nat → α
  | [], k => d k
  | (k', v) :: l, k => if k' = k then v else sparseGet d l k

/-- The list with the value at a key; the default is not listed. -/
def sparsePut {α : Type} [DecidableEq α] (d : Nat → α) : List (Nat × α) → Nat → α → List (Nat × α)
  | [], k, v => if v = d k then [] else [(k, v)]
  | (k', v') :: l, k, v =>
    if k < k' then (if v = d k then (k', v') :: l else (k, v) :: (k', v') :: l)
    else if k' = k then (if v = d k then l else (k, v) :: l)
    else (k', v') :: sparsePut d l k v

/-- Keys strictly ascending, above a lower bound where one is given. -/
def ascending {α : Type} : Option Nat → List (Nat × α) → Bool
  | _, [] => true
  | b, (k, _) :: l => (match b with
    | none => true
    | some m => decide (m < k)) && ascending (some k) l

/-- The canonical form. -/
def sparseWf {α : Type} [DecidableEq α] (d : Nat → α) (l : List (Nat × α)) : Bool :=
  ascending none l && l.all fun e => decide (e.2 ≠ d e.1)

/-! ### The byte memories (R362-R376) -/

/-- What an unlisted byte reads as (log entry 3). -/
def memDefault (_ : Nat) : Byte := 0#8

/-- The canonical form of the memory. -/
def Memory.wf (m : List Host.Cell) : Bool := sparseWf memDefault m

/-- One byte. -/
def memByte (m : List Host.Cell) (a : Nat) : Byte := sparseGet memDefault m a

/-- `n` bytes upward from `a`. -/
def memRead (m : List Host.Cell) (a : Nat) : Nat → Bytes
  | 0 => []
  | n + 1 => memByte m a :: memRead m (a + 1) n

/-- Bytes stored upward from `a`. -/
def memWrite (m : List Host.Cell) (a : Nat) : Bytes → List Host.Cell
  | [] => m
  | b :: bs => memWrite (sparsePut memDefault m a b) (a + 1) bs

/-- The memory's addresses: each memory of R362-R376 has a range of its own. -/
def hbmBase (stack : Nat) : Nat := stack * 2 ^ 40
def shelfBase (pair : Nat) : Nat := 2 ^ 44 + pair * 2 ^ 28
def stagingBase (pair : Nat) : Nat := 2 ^ 45 + pair * 2 ^ 28
def vstoreBase (f : Nat) : Nat := 2 ^ 46 + f * 2 ^ 20
/-- Accumulator memory f has no bytes of its own here (`Facet.acc` holds its slots); its code words have addresses. -/
def accBase (f : Nat) : Nat := 2 ^ 47 + f * 2 ^ 24

/-- Capacity of one HBM3E stack, one shelf, one staging memory, one vector store in bytes. -/
def hbmBytes : Nat := 36000000000
def shelfBytes : Nat := 134217728
def stagingBytes : Nat := 33554432
def vstoreBytes : Nat := 1048576

/-- Bytes of data in the code word at an address among all memories (R362): HBM3E lies below 2^44. -/
def codeBytes (a : Nat) : Nat := if a < 2 ^ 44 then 32 else 16

/-- The errors of the code words of a set have ended (R364). -/
def clearErrs (s : State) (p : Nat → Bool) : State :=
  if s.maint.errs.isEmpty then s
  else { s with maint := { s.maint with errs := s.maint.errs.filter fun e => !p e.1 } }

/-- Bytes stored upward from an address among all memories; a code word written whole loses its error (R364). -/
def storeMem (s : State) (a : Nat) (b : Bytes) : State :=
  clearErrs { s with mem := memWrite s.mem a b } fun w => decide (a ≤ w) && decide (w + codeBytes w ≤ a + b.length)

/-- Record places of a shelf (R102). -/
def shelfPlaces : Nat := 8738

/-! ### The frame-time counter (R16-R18, R258, R267) -/

def frameTicks : Nat := 307200

/-- The counter's full period (R18). -/
def stampPeriod : Nat := 65536 * 1024 * 307200

/-- The 64-bit form of a counter value (R267). -/
def stamp64 (t : Nat) : Nat :=
  t % frameTicks + t / frameTicks % 1024 * 2 ^ 19 + t / (frameTicks * 1024) % 65536 * 2 ^ 29

/-- The counter value of a 64-bit stamp; none where TICK is above 307,199 or a reserved bit is set (R267). -/
def stampTicks (v : Nat) : Option Nat :=
  let tick := bitsOf v 18 0
  if tick < frameTicks ∧ bitsOf v 63 45 = 0 then
    some (tick + bitsOf v 28 19 * frameTicks + bitsOf v 44 29 * frameTicks * 1024)
  else none

/-- Of the stamps `a` and `b`, in this order, the second is later under R18: the difference from `a` to `b` is above 0 and below
half the period. -/
def stampBefore (a b : Nat) : Bool :=
  let d := (b + stampPeriod - a % stampPeriod) % stampPeriod
  0 < d && d < stampPeriod / 2

/-- Of the stamps `a` and `b`, in this order, the second is earlier under R18: the difference is half the period or more. -/
def stampAfter (a b : Nat) : Bool := decide (stampPeriod / 2 ≤ (b + stampPeriod - a % stampPeriod) % stampPeriod)

/-- The ticks from `a` to `b`, the shorter way round the period; half the period is negative, for the second stamp is then the
earlier one (R18). -/
def stampDiff (a b : Nat) : Int :=
  let d := (b + stampPeriod - a % stampPeriod) % stampPeriod
  if d < stampPeriod / 2 then d else (d : Int) - stampPeriod

/-- A stamp is past when it is earlier than the counter (R18), the counter taken first and the stamp second (log entry 82). -/
def State.isPast (s : State) (t : Nat) : Bool := stampAfter s.now t

/-- Ticks since a reading of the model's clock. -/
def State.since (s : State) (t : Nat) : Nat := s.up - t

/-- A supply is in a dip (R497): rail r, digital domain 64 + f, analogue domain 96 + f. -/
def State.dipping (s : State) (n : Nat) : Bool := s.power.dips.any fun d => d.1 == n

/-- Seconds of the model's clock. -/
def State.seconds (s : State) : Nat := s.up / 30720000

/-- The stamp of the present instant in the form of R267. -/
def State.stamp (s : State) : Nat := stamp64 s.now

/-! ### Free values -/

/-- A fresh free Boolean (log entry 4). -/
def State.drawBool (s : State) : Bool × State := (Config.freeBool s.free, { s with free := s.free + 1 })

/-- A fresh free number below `n` (for n > 0). -/
def State.drawNat (s : State) (n : Nat) : Nat × State := (Config.freeNat s.free % n, { s with free := s.free + 1 })

/-! ### Objects (R9-R15, R419-R424) -/

/-- The value held for an entry: its default where none is listed. -/
def State.val (s : State) (oid : Nat) : Val := sparseGet dfltOf s.objs oid

def Val.asNum : Val → Nat
  | .num n => n
  | .bytes _ => 0

def Val.asBytes : Val → Bytes
  | .num _ => []
  | .bytes b => b

/-- The number held by an entry, written index * 256 + subindex: `s.num 0x1000_07` is 1000h.07. -/
def State.num (s : State) (oid : Nat) : Nat := (s.val oid).asNum

/-- The octet string held by an entry. -/
def State.blob (s : State) (oid : Nat) : Bytes := (s.val oid).asBytes

def State.flag (s : State) (oid : Nat) : Bool := s.num oid == 1

def State.setVal (s : State) (oid : Nat) (v : Val) : State := { s with objs := sparsePut dfltOf s.objs oid v }

def State.setNum (s : State) (oid v : Nat) : State := s.setVal oid (.num v)

def State.setBlob (s : State) (oid : Nat) (b : Bytes) : State := s.setVal oid (.bytes b)

/-- Member n of a family (R420): the entry with its index raised by n. -/
def fam (oid n : Nat) : Nat := oid + 256 * n

/-- Bits of a type's value; 0 for octet strings. -/
def Ty.bits : Ty → Nat
  | .b => 8
  | .u8 => 8
  | .u16 => 16
  | .u32 => 32
  | .u64 => 64
  | .s32 => 32
  | .s64 => 64
  | .f32 => 32
  | .text => 0
  | .blob => 0

def objTy (oid : Nat) : Ty :=
  if oid % 256 = 0 then .u8 else ((findDef (oid / 256) (oid % 256)).map ObjDef.ty).getD .u8

/-- A count advanced by `n`, modulo its type's range (log entry 5). -/
def State.add (s : State) (oid n : Nat) : State := s.setNum oid ((s.num oid + n) % 2 ^ (objTy oid).bits)

def State.inc (s : State) (oid : Nat) : State := s.add oid 1

/-- A value recorded for a least or greatest value since the last read (R612): it sets an emptied entry, and otherwise only
where it is `better` than the value held. -/
def State.record (s : State) (oid v : Nat) (better : Nat → Nat → Bool) : State :=
  if !s.held.contains oid then { s with held := oid :: s.held }.setNum oid v
  else if better v (s.num oid) then s.setNum oid v else s

/-- A greatest value recorded for an unsigned entry with default 0, for which an emptied entry needs no note (R612): raises
the entry to `v`. -/
def State.raiseTo (s : State) (oid v : Nat) : State := if s.num oid < v then s.setNum oid v else s

/-- A value as the octets of its type (R5). -/
def valBytes (oid : Nat) : Val → Bytes
  | .num n => leBytes ((objTy oid).bits / 8) n
  | .bytes b => b

/-! ### Node -/

/-- SYS answers over the sideband (R28, R404): not while the device is in Safe or SYS is held in reset. -/
def State.sysUp (s : State) : Bool := !s.sysHeld && s.node != .safe

/-! ### Events (R407, R444) -/

/-- A record added to an event queue of a capacity, which numbers it from 1; a full queue drops and counts it. -/
def EventQueue.push (q : EventQueue) (cap : Nat) (e : EventRec) : EventQueue :=
  let n := q.next + 1
  if q.recs.length < cap then { q with recs := q.recs ++ [{ e with number := n }], next := n, last := n }
  else { q with next := n, dropped := q.dropped + 1, firstLost := if q.dropped = 0 then n else q.firstLost }

/-- An event record queued in LNK's queue of 32 or in SYS's queue of 1,024 (R407). -/
def State.raiseIn (s : State) (lnk : Bool) (code unit : Nat) (data : Bytes) : State :=
  let e : EventRec := { code := code, unit := unit, number := 0, stamp := s.stamp, data := data, queuedAt := s.up }
  let full := if lnk then decide (32 ≤ s.events.lnk.recs.length) else decide (1024 ≤ s.events.sys.recs.length)
  let s := { s with events :=
    if lnk then { s.events with lnk := s.events.lnk.push 32 e } else { s.events with sys := s.events.sys.push 1024 e } }
  if full then s.inc 0x1100_0C else s

/-- An event record queued: in SYS's queue, or in LNK's own while SYS is unavailable (R407). `unit` is FFh for none. -/
def State.raise (s : State) (code unit : Nat) (data : Bytes) : State := s.raiseIn (!s.sysUp) code unit data

/-- A change of a subindex of 0020h (R38, R480): raises UNITS_CHANGED with the subindex and both masks. -/
def State.setUnits (s : State) (sub mask : Nat) : State :=
  let oid := 0x0020_00 + sub
  let old := s.num oid
  if old = mask then s
  else (s.setNum oid mask).raise 0xB010 0xFF
    (leBytes 1 sub ++ leBytes ((objTy oid).bits / 8) old ++ leBytes ((objTy oid).bits / 8) mask)

def State.unitUp (s : State) (sub i : Nat) : Bool := (s.num (0x0020_00 + sub)).testBit i

def State.facetUp (s : State) (f : Nat) : Bool := s.unitUp 1 f

/-- Bits n for which any of bits 4n to 4n + 3 of a facet mask is set (R24). -/
def pairMask (mask : Nat) : Nat :=
  (List.range 8).foldl (fun a n => if mask / 16 ^ n % 16 = 0 then a else a + 2 ^ n) 0

/-- A change of FACETS_UP, and of PAIRS_UP where the pairs with a facet in service change (R38). -/
def State.setFacets (s : State) (mask : Nat) : State := (s.setUnits 1 mask).setUnits 2 (pairMask mask)

/-! ### The persistent store (R438-R440) -/

/-- Bytes of one record: INDEX, SUB, LENGTH, the value, CRC-32 (R438). -/
def recordSize (oid : Nat) (v : Val) : Nat := 2 + 1 + 4 + (valBytes oid v).length + 4

/-- One bank (R438). -/
def bankBytes : Nat := 4194304

/-- Saving of an entry's present value: appended, after compaction where the active bank is full (R438, R439). A save
that the flash refuses is counted and raises PERSIST_FAILED; whether it refuses is free. -/
def State.save (s : State) (oid : Nat) : State :=
  let v := s.val oid
  let refuses := !s.store.usable || Config.flashRefuses s.free
  let s := { s with free := s.free + 1 }
  if refuses then
    (s.inc 0x1010_03).raise 0x1003 0xFF (leBytes 2 (oid / 256) ++ leBytes 1 (oid % 256))
  else
    let vals := sparsePut (fun _ => Val.bytes []) s.store.values oid v
    let need := recordSize oid v
    let st := s.store
    let st :=
      if st.used + need ≤ bankBytes then { st with values := vals, used := st.used + need }
      else { st with values := vals, bankSeq := (st.bankSeq + 1) % 2 ^ 32,
                     used := Config.bankHeader + (vals.foldl (fun a e => a + recordSize e.1 e.2) 0) }
    { s with store := st }.inc 0x1010_02

/-- A P value that the device maintains itself: set and saved (R440). -/
def State.setSaved (s : State) (oid v : Nat) : State := (s.setNum oid v).save oid

def State.addSaved (s : State) (oid n : Nat) : State := (s.add oid n).save oid

/-! ### Fault classes (R478, R505) -/

/-- The last fault above class 2 (B000h.07, B000h.08). -/
def State.lastFault (s : State) (cls : Nat) : State := (s.setNum 0xB000_07 cls).setNum 0xB000_08 s.stamp

def State.faultCorrected (s : State) (n : Nat) : State := s.add 0xB000_01 n
def State.faultRetried (s : State) : State := s.inc 0xB000_02
def State.faultAborted (s : State) (replay : Bool) : State :=
  (s.inc (if replay then 0xB000_03 else 0xB000_04)).lastFault 3
def State.faultDegraded (s : State) : State := (s.addSaved 0xB000_05 1).lastFault 4
def State.faultSafe (s : State) : State := (s.addSaved 0xB000_06 1).lastFault 5

/-! ### Frames of the device (R392-R399) -/

def nodeId (s : State) : Nat := s.num 0x1100_01
def ringId (s : State) : Nat := s.num 0x1100_02

/-- A Kangeiz port is UP4 or UP3 (R387). -/
def portUp (s : State) (p : RingPort) : Bool := 3 ≤ s.num (fam 0x1110_01 p.val)

/-- The port on which own frames leave: that of PREFER_DIR, or the other while it is wrapped (R394); none while both
are down. Direction 0 leaves on port A, direction 1 on port B (R390). -/
def ownPort (s : State) : Option RingPort :=
  let p : RingPort := if s.num 0x1100_03 = 0 then 0 else 1
  if portUp s p then some p else if portUp s (1 - p) then some (1 - p) else none

/-- One bit of the CRC at a time, least significant first. -/
def crcBit : Nat → Nat → Nat
  | 0, c => c
  | n + 1, c => crcBit n (if c % 2 = 1 then (c / 2) ^^^ 0xEDB88320 else c / 2)

/-- CRC-32 of an octet string, polynomial 04C11DB7h, as in the IEEE 802.3 frame check sequence (R395). -/
def crc32 (b : Bytes) : Nat := (b.foldl (fun c x => crcBit 8 (c ^^^ x.toNat)) 0xFFFFFFFF) ^^^ 0xFFFFFFFF

/-- The 32 octets of a frame's header (R395). -/
def headerBytes (f : Frame) : Bytes :=
  [f.type, f.flags, f.dest, f.src, f.hops, f.path] ++ leBytes 2 f.length ++ leBytes 4 f.seq.toNat ++ leBytes 4 f.ringId.toNat ++ f.arg

/-- The CRC-32 of a frame, over its header and payload (R395). -/
def frameCrc (f : Frame) : BitVec 32 := BitVec.ofNat 32 (crc32 (headerBytes f ++ f.payload))

/-- A frame put on a port with its CRC formed anew (R395). -/
def emit (s : State) (p : RingPort) (f : Frame) : State :=
  { s with out := s.out ++ [Out.ring p { f with crc := frameCrc f }] }.inc (fam 0x1110_08 p.val)

/-- Sixteen ARG bytes from a prefix. -/
def argOf (b : Bytes) : Bytes := (b ++ List.replicate 16 0#8).take 16

/-- An own frame to node 0 with its header fields (R395). -/
def ownFrame (s : State) (type flags seq : Nat) (arg payload : Bytes) : Frame :=
  { type := BitVec.ofNat 8 type, flags := BitVec.ofNat 8 flags, dest := 0,
    src := BitVec.ofNat 8 (if nodeId s = 0 then 126 else nodeId s), hops := 130, path := 0, length := payload.length,
    seq := BitVec.ofNat 32 seq, ringId := BitVec.ofNat 32 (ringId s), arg := argOf arg, payload := payload }

/-- An own frame sent on the port of R394, PATH bit 0 its direction; not sent while both ports are down. -/
def sendOwn (s : State) (f : Frame) : State :=
  match ownPort s with
  | none => s
  | some p => emit s p { f with path := BitVec.ofNat 8 p.val }

/-- An unconfirmed frame to node 0. -/
def sendPlain (s : State) (type : Nat) (arg payload : Bytes) : State := sendOwn s (ownFrame s type 0 0 arg payload)

/-- The next waiting confirmed frames enter the window of 256 (R397, R399): numbered, SYNC on the first after a reset
or RESYNC, and sent. `fuel` frames at most. -/
def pumpTx : Nat → State → State
  | 0, s => s
  | n + 1, s =>
    match s.ring.waiting with
    | [] => s
    | f :: rest =>
      if 256 ≤ s.ring.unacked.length then s else
      let f := { f with flags := f.flags ||| (1 ||| if s.ring.txSync then 4 else 0),
                        seq := BitVec.ofNat 32 s.ring.txNext }
      let r := { s.ring with waiting := rest, txSync := false, txNext := (s.ring.txNext + 1) % 2 ^ 32,
                             unacked := s.ring.unacked ++ [{ frame := f, sentAt := s.up, resends := 0 }] }
      pumpTx n (sendOwn { s with ring := r } f)

/-- A confirmed frame to node 0 (R397): it waits while the window is full. -/
def sendConfirmed (s : State) (type : Nat) (arg payload : Bytes) : State :=
  pumpTx 256 { s with ring := { s.ring with waiting := s.ring.waiting ++ [ownFrame s type 1 0 arg payload] } }

/-- An ACK (R396, R398): ACKED_SEQ, ACKED_TYPE, STATUS. -/
def sendAck (s : State) (seq type status : Nat) : State :=
  sendPlain s 0x01 (leBytes 4 seq ++ leBytes 1 type ++ leBytes 1 status) []

/-- A PARAM_RESP with its result (R401, R403). -/
def sendResp (s : State) (xfer result index sub total : Nat) (payload : Bytes) : State :=
  sendConfirmed s 0x11 (leBytes 1 xfer ++ leBytes 1 result ++ leBytes 2 index ++ leBytes 1 sub ++ leBytes 3 0
    ++ leBytes 4 total) payload

/-! ### Node state changes (R429, R434) -/

/-- A change of the node state: STATE_SINCE, STATE_CHANGES, STATE_CHANGED with the old state, the new state and the
command or cause (R429, R446). -/
def setNode (s : State) (n : NodeState) (cause : Nat) : State :=
  let old := s.node
  ((({ s with node := n }.setNum 0x1000_06 s.stamp).inc 0x1000_08)).raise 0x1000 0xFF
    (leBytes 1 old.code ++ leBytes 1 n.code ++ leBytes 1 cause)

/-- Expert access withdrawn on leaving Configuring (R436). -/
def dropExpert (s : State) : State :=
  if s.flag 0x1F00_02 then (s.setNum 0x1F00_02 0).raise 0x1004 0xFF (leBytes 1 0) else s

end Sys2Proof.Machine
end

