-- ==== Sys2Proof/Machine/Operands.lean ====
section
/-! DEFINITION. Operands.lean: the fields of the 128-bit commands of the engines (R148-R161, R168) and of the context
command word (R215). -/

namespace Sys2Proof.Machine

/-- Bits [hi:lo] of a command (R4, R146). -/
def cmdBits (w : BitVec 128) (hi lo : Nat) : Nat := bitsOf w.toNat hi lo

def cmdBit (w : BitVec 128) (i : Nat) : Bool := w.toNat.testBit i

def cmdOp (w : BitVec 128) : Nat := cmdBits w 7 0

/-! ### BIND (R148) -/

def bindOf (w : BitVec 128) : Binding :=
  { context := cmdBits w 19 8, copy := cmdBits w 51 20, operand := cmdBits w 83 52, wFormat := cmdBits w 86 84,
    aFormat := cmdBits w 89 87, task := cmdBits w 105 90 }

/-! ### Plane sources (R150, R152, R153) -/

def srcKind (w : BitVec 128) : Nat := cmdBits w 8 8
def srcField (w : BitVec 128) : Nat := cmdBits w 22 9

/-- The dowel queue and the tag of a queue source. -/
def srcQueue (w : BitVec 128) : Nat := cmdBits w 13 9
def srcTag (w : BitVec 128) : Nat := cmdBits w 21 14

def preTrit (w : BitVec 128) : Nat := cmdBits w 26 23
def preRowTile (w : BitVec 128) : Nat := cmdBits w 46 27
def preChunk (w : BitVec 128) : Nat := cmdBits w 63 47

def flipZeroBit (w : BitVec 128) : Bool := cmdBit w 23

/-! ### PASS (R153) -/

def passTrit (w : BitVec 128) : Nat := cmdBits w 26 23
def passDigit (w : BitVec 128) : Nat := cmdBits w 30 27
def passInQ (w : BitVec 128) : Nat := cmdBits w 35 31
def passInTag (w : BitVec 128) : Nat := cmdBits w 43 36
def passInPop (w : BitVec 128) : Bool := cmdBit w 44
def passFirstVec (w : BitVec 128) : Nat := cmdBits w 55 45
def passSlot (w : BitVec 128) : Nat := cmdBits w 66 56
def passLen (w : BitVec 128) : Nat := cmdBits w 78 67
def passFirst (w : BitVec 128) : Bool := cmdBit w 79
def passLast (w : BitVec 128) : Bool := cmdBit w 80
def passMerge (w : BitVec 128) : Bool := cmdBit w 81
def passMode (w : BitVec 128) : Nat := cmdBits w 83 82
def passBudget (w : BitVec 128) : Nat := cmdBits w 91 84
def passMergeDst (w : BitVec 128) : Nat := cmdBits w 102 92
def passTileVecs (w : BitVec 128) : Nat := cmdBits w 114 103

/-- The mode of a MODE field: 0 integer, 1 scaled, 2 wide. -/
def modeOf : Nat → Mode
  | 0 => .integer
  | 1 => .scaled
  | _ => .wide

def modeCode : Mode → Nat
  | .integer => 0
  | .scaled => 1
  | .wide => 2

/-! ### TREE, MERGE, REDUCE, DRAIN (R156-R159) -/

def treeOf (w : BitVec 128) (task : Nat) : TreeDecl :=
  { task := task, pos := cmdBits w 12 8, posMask := cmdBits w 44 13, ordMask := cmdBits w 108 45 }

def mergeA (w : BitVec 128) : Nat := cmdBits w 18 8
def mergeB (w : BitVec 128) : Nat := cmdBits w 29 19
def mergeCount (w : BitVec 128) : Nat := cmdBits w 41 30

def reduceRole (w : BitVec 128) : Nat := cmdBits w 8 8
def reduceLevel (w : BitVec 128) : Nat := cmdBits w 12 9
def reduceSlot (w : BitVec 128) : Nat := cmdBits w 23 13
def reduceCount (w : BitVec 128) : Nat := cmdBits w 35 24

def drainOp (w : BitVec 128) : Nat := cmdBits w 9 8
def drainForm (w : BitVec 128) : Nat := cmdBits w 11 10
def drainSlot (w : BitVec 128) : Nat := cmdBits w 22 12
def drainVecs (w : BitVec 128) : Nat := cmdBits w 34 23
def drainRow (w : BitVec 128) : Nat := cmdBits w 43 35
def drainRows (w : BitVec 128) : Nat := cmdBits w 53 44
def drainOutQ (w : BitVec 128) : Nat := cmdBits w 58 54
def drainOutTag (w : BitVec 128) : Nat := cmdBits w 66 59
def drainRowTile (w : BitVec 128) : Nat := cmdBits w 86 67
def drainIndexBase (w : BitVec 128) : Nat := cmdBits w 118 87
def drainDest (w : BitVec 128) : Bool := cmdBit w 119
def drainGather (w : BitVec 128) : Nat := cmdBits w 123 120
def drainFree (w : BitVec 128) : Bool := cmdBit w 124

/-! ### FENCE, TIME_WAIT (R160, R161) -/

def fenceWait (w : BitVec 128) : Nat := cmdBits w 10 8
def fenceSignal (w : BitVec 128) : Bool := cmdBit w 11
def fenceToken (w : BitVec 128) : Nat := cmdBits w 27 12
def waitStrict (w : BitVec 128) : Bool := cmdBit w 8
def waitStamp (w : BitVec 128) : Nat := cmdBits w 127 64

/-! ### Reserved fields (cause 2 of R166) -/

/-- The reserved bits of a command other than a vector operation are zero; FLIP's SRC[22] of a queue source included. -/
def reservedOk (w : BitVec 128) : Bool :=
  let q22 := !(srcKind w == 1 && cmdBit w 22)
  match cmdOp w with
  | 0x01 => cmdBits w 127 106 == 0
  | 0x02 => cmdBits w 127 64 == 0 && q22
  | 0x03 => cmdBits w 127 24 == 0 && q22
  | 0x10 => cmdBits w 127 115 == 0 && q22
  | 0x20 => cmdBits w 127 125 == 0
  | 0x21 => cmdBits w 127 42 == 0
  | 0x22 => cmdBits w 127 36 == 0
  | 0x24 => cmdBits w 127 109 == 0
  | 0x30 => cmdBits w 127 28 == 0
  | 0x31 => cmdBits w 63 9 == 0
  | _ => true

end Sys2Proof.Machine
end

