-- ==== Sys2Proof/WellFormed.lean ====
section
/-! DEFINITION. WellFormed.lean: which commands can occur: frames whose payload fits (R395, R455), units and addresses that
exist, numbers that their fields carry. -/

namespace Sys2Proof

/-- A frame as it can come over a fibre (R395): 16 ARG bytes, a LENGTH of 16 bits, and as many payload bytes as that field can
name, which need not agree with it (R394). -/
def Frame.ok (f : Frame) : Bool := f.arg.length == 16 && decide (f.length < 65536) && decide (f.payload.length < 65536)

/-- Task graphs whose numbers fit their registers and whose phases wait for earlier ones only. -/
def TaskGraph.ok (g : TaskGraph) : Bool :=
  decide (g.task < 65535) && decide (g.context < 4096) && decide (g.copy < 2 ^ 32)
    && ([g.phases, g.altA, g.altB].all fun ps => ps.zipIdx.all fun p => p.1.preds.all fun i => decide (i < p.2))
    && decide (g.kv.layers < 65536) && decide (g.kv.width < 2 ^ 24) && g.kv.onStacks.all (fun n => decide (n < 8))
    && g.streams.all fun d => decide (d.eic < 8) && decide (d.stream < 1024)

/-- Bytes of one memory of a kind (R362-R376). -/
def memBytes : MemKind → Nat
  | .hbm => 36000000000
  | .shelf => 134217728
  | .staging => 33554432
  | .accumulator => 5242880
  | .vectorStore => 1048576

/-- Units of a kind: stacks and pairs, or stations. -/
def memUnits : MemKind → Nat
  | .hbm => 8
  | .shelf => 8
  | .staging => 8
  | .accumulator => 32
  | .vectorStore => 32

/-- A corrected symbol is one of the word's: 72 of an HBM3E word, 36 of any other (R363). -/
def outcomeOk (m : MemKind) : ReadOutcome → Bool
  | .corrected k => m == .hbm || decide (k.val < 36)
  | _ => true

/-- A word of a memory that exists, and an outcome that it can have. -/
def scrubOk (m : MemKind) (unit address : Nat) (o : ReadOutcome) : Bool :=
  decide (unit < memUnits m) && decide (address < memBytes m) && outcomeOk m o

/-- The commands that can occur. -/
def Instr.wf (i : Instr) : Bool :=
  match i with
  | .paramWrite _ _ _ total value => decide (total < 2 ^ 32) && decide (value.length ≤ 4096)
  | .paramSeg _ offset total payload => decide (offset < 2 ^ 32) && decide (total < 2 ^ 32) && decide (payload.length ≤ 4096)
  | .ringFrameReceive _ f => f.ok
  | .svcReq _ payload => decide (payload.length ≤ 4096)
  | .cyclic _ _ payload => decide (payload.length ≤ 4096)
  | .time _ _ payload _ => decide (payload.length ≤ 4096)
  | .probe _ payload _ => decide (payload.length ≤ 4096)
  | .weightBlock _ _ _ _ _ payload => decide (payload.length ≤ 4096)
  | .data _ _ _ _ _ _ payload => decide (payload.length ≤ 4096)
  | .read _ _ payload => decide (payload.length ≤ 4096)
  | .peerReduce _ _ _ _ _ payload => decide (payload.length ≤ 4096)
  | .repeatTile _ _ _ _ payload => decide (payload.length ≤ 4096)
  | .journal _ _ _ payload => decide (payload.length ≤ 4096)
  | .peerWeightBlock _ _ _ _ _ _ payload => decide (payload.length ≤ 4100)
  | .credit _ _ returns => decide (returns.length ≤ 32)
  | .batch _ _ _ graph _ _ _ _ => graph.ok
  | .taskAdmission graph => graph.ok
  | .passVerdict _ errors => errors.all fun e => decide (e.1 < 520)
  | .confirmationVerdict _ errors => errors.all fun e => decide (e.1 < 520)
  | .batchIssue _ _ tasks => tasks.all fun t => decide (t < 65536)
  | .unitRetireStart _ unit => decide (unit < 549317)
  | .patrolScrub mem unit address outcome => scrubOk mem unit.val address outcome
  | .railGood _ fails => decide (fails ≤ 3)
  | .journalRelocate count => decide (0 < count)
  | .rcRead .. | .paramAbort .. | .xferTimeout .. | .configure .. | .serve .. | .quiesce .. | .quiesceNow ..
  | .inspect .. | .safe .. | .restart .. | .quiesceComplete .. | .quiesceForced .. | .expertEnable ..
  | .factoryDefaults .. | .catSelect .. | .ack .. | .retxTimeout .. | .segmentTimeout .. | .cyclicFire ..
  | .cyclicApply .. | .eventSend .. | .rollCall .. | .assign .. | .state .. | .reset .. | .heartbeat ..
  | .node0Silent .. | .linkUp .. | .laneFail .. | .laneRestore .. | .lossOfLight .. | .lightReturn ..
  | .eyeProbe .. | .peerLinkTrained .. | .hello .. | .peerLaneFail .. | .peerLaneRestore .. | .linkAck ..
  | .peerResendTimeout .. | .streamCredit .. | .grant .. | .abort .. | .partBoundExpiry .. | .journalAck ..
  | .mirrorTimeout .. | .blockReq .. | .blockStallRequest .. | .buddyWrite .. | .routeWrite .. | .standInWrite ..
  | .register .. | .deregister .. | .build .. | .switch .. | .discard .. | .repair .. | .abandon .. | .store ..
  | .unstore .. | .ctxDesc .. | .ctxSelect .. | .placeSelect .. | .buildVerifyComplete .. | .buildStall ..
  | .repairTimeout .. | .batchEnd .. | .cancel .. | .close .. | .sessionSelect .. | .tokenRelease ..
  | .taskAbort .. | .frameStart .. | .frameInEdge .. | .ppsInEdge .. | .timeHoldover .. | .timeReset ..
  | .tableSelect .. | .commandEnqueue .. | .bind .. | .preload .. | .flip .. | .flipZero .. | .pass .. | .drain ..
  | .drainMax .. | .drainMin .. | .merge .. | .reduceSend .. | .reduceGather .. | .tree .. | .fence ..
  | .fenceRelease .. | .timeWait .. | .timeWaitRelease .. | .fillPreemption .. | .shadowLoadComplete ..
  | .planeFlip .. | .sweepComplete .. | .swapReloadComplete .. | .codeWritten .. | .drainComplete ..
  | .mergeComplete .. | .reduceDelivered .. | .peek .. | .vload .. | .vstore .. | .vsumcvt .. | .vadd .. | .vmul ..
  | .vfma .. | .vmax .. | .vmin .. | .vscale .. | .vexp .. | .vrsqrt .. | .vrecip .. | .vtanh .. | .vsigmoid ..
  | .vgelu .. | .vsilu .. | .vsoftmax .. | .vrmsnorm .. | .vlayernorm .. | .vrotary .. | .vredsum .. | .vredmax ..
  | .vdot .. | .vwsum .. | .vtopk .. | .vsample .. | .vquant .. | .vquantw .. | .jigStart .. | .jigEmission ..
  | .planeConvertComplete .. | .handlePush .. | .bufferRelease .. | .escapeGrant .. | .stallAbort ..
  | .streamSelect .. | .inputEnable .. | .interlockOpen .. | .interlockClosed .. | .returnPowerTrip ..
  | .feedOverPower .. | .feedValid .. | .feedLow .. | .sourceMap .. | .sourceFailover .. | .lossOfLock ..
  | .identityScan .. | .relockComplete .. | .rowCheckComplete .. | .thermalStop .. | .regionSaturated ..
  | .startupCalibration .. | .rollingCalStart .. | .standInReload .. | .calibrationComplete .. | .calOverdue ..
  | .ringSelect .. | .unitRetired .. | .powerFail .. | .powerReturn .. | .settle .. | .adopt .. | .supplyDip ..
  | .dipEnd .. | .longDip .. | .resetLevelCrossing .. | .supervisorMismatch .. | .railTable .. | .railFault ..
  | .overvoltage .. | .throttleEnforced .. | .throttleReleased .. | .sensorSelect .. | .conversionComplete ..
  | .urgent .. | .calZero .. | .calFullScale .. | .calClear .. | .aoutCode .. | .deglitchHoldEnd .. | .span ..
  | .spanStep .. | .trigger .. | .waveSample .. | .trimSave .. | .lifeDataSave .. | .boot .. | .bootTimeout ..
  | .nonce .. | .reportSigned .. | .imageData .. | .imageStaged .. | .commit .. | .resetN .. | .refclkLoss ..
  | .refclkReturn .. | .helloResend .. | .hbmTrainingDone .. | .stackTemperatureRead .. | .sealWrite .. => true

end Sys2Proof
end

