-- ==== Sys2Proof/Machine/MemErr.lean ====
section
/-! DEFINITION. MemErr.lean: errors of the code words: records, counts, retirement and listing, and the read of code words by a task
(R362-R379), as shared operations. -/

namespace Sys2Proof.Machine

def memCode : MemKind → Nat
  | .hbm => 0
  | .shelf => 1
  | .staging => 2
  | .accumulator => 3
  | .vectorStore => 4

/-- An error record of R379 appended to the log of 64. -/
def logError (s : State) (m : MemKind) (unit kind symbol address action task context : Nat) : State :=
  let r := leBytes 8 s.stamp ++ leBytes 1 (memCode m) ++ leBytes 1 unit ++ leBytes 1 kind ++ leBytes 1 symbol
    ++ leBytes 8 address ++ leBytes 1 action ++ leBytes 1 0 ++ leBytes 2 task ++ leBytes 2 context ++ leBytes 6 0
  let l := s.blob 0x4800_01 ++ r
  (s.setBlob 0x4800_01 (l.drop (l.length - 2048))).inc 0x4800_02

/-- MEM_UNCORRECTABLE (R385). -/
def memEvent (s : State) (m : MemKind) (unit kind address action : Nat) : State :=
  s.raise 0x4050 unit (leBytes 1 (memCode m) ++ leBytes 1 unit ++ leBytes 8 address ++ leBytes 1 kind ++ leBytes 1 action)

/-- The counts of corrected words and of confirmed uncorrectable errors of a memory. -/
def correctedOid (m : MemKind) (unit : Nat) : Nat :=
  match m with
  | .hbm => fam 0x4500_01 unit
  | .shelf => fam 0x4600_01 unit
  | .staging => fam 0x4600_08 unit
  | .accumulator => fam 0x4700_01 unit
  | .vectorStore => fam 0x4700_03 unit

def uncorrectableOid (m : MemKind) (unit : Nat) : Nat :=
  match m with
  | .hbm => fam 0x4500_02 unit
  | .shelf => fam 0x4600_02 unit
  | .staging => fam 0x4600_09 unit
  | .accumulator => fam 0x4700_02 unit
  | .vectorStore => fam 0x4700_04 unit

/-! ### Retirement of HBM3E units (R369-R371) -/

def unitBytes : Nat := 65536

def modMaint (s : State) (g : Maint → Maint) : State := { s with maint := g s.maint }

/-- Corrections of a key within the error window, the present one included. -/
def hitsOf (s : State) (l : List (Nat × List Nat)) (k : Nat) : List Nat :=
  ((sparseGet (fun _ => []) l k).filter fun t => s.seconds < t + s.num 0x4400_04) ++ [s.seconds]

/-- The entries of a remap table: unit and spare (4500h + n.08). -/
def remapOf (s : State) (n : Nat) : List (Nat × Nat) :=
  let b := s.blob (fam 0x4500_08 n)
  (List.range (b.length / 8)).map fun i => (fieldAt b (8 * i) 4, fieldAt b (8 * i + 4) 2)

/-- The memory and the unit, with which every event of the memories begins (R385). -/
def memData (m : MemKind) (unit : Nat) : Bytes := leBytes 1 (memCode m) ++ leBytes 1 unit

/-- A unit is being retired or waits for it. -/
def unitBusy (s : State) (n unit : Nat) : Bool :=
  (match (s.maint.retiring[n]?).bind id with
    | some (u, _) => u == unit
    | none => false) || ((s.maint.waiting[n]?).getD []).contains unit

/-- A unit that qualifies starts its retirement: none of its own is under way, and a spare is left (R370, R371). -/
def retirable (s : State) (n unit : Nat) : Bool := !unitBusy s n unit && s.num (fam 0x4500_05 n) != 0

/-- A unit that qualifies waits for its retirement (R370); without a spare it stays in service, told once (R371). -/
def qualifyUnit (s : State) (n unit : Nat) : State :=
  if unitBusy s n unit then s
  else if s.num (fam 0x4500_05 n) = 0 then
    if (s.maint.exhausted[n]?).getD true then s
    else (modMaint s fun m => { m with exhausted := m.exhausted.setIfInBounds n true }).raise 0x4053 n (memData .hbm n)
  else modMaint s fun m => { m with waiting := m.waiting.setIfInBounds n ((m.waiting[n]?).getD [] ++ [unit]) }

/-- A corrected HBM3E word counts toward the retirement of its unit. -/
def hbmHit (s : State) (n address : Nat) : State :=
  let unit := address / unitBytes
  let k := n * 2 ^ 20 + unit
  let h := hitsOf s s.maint.hbmHits k
  let s := modMaint s fun m => { m with hbmHits := sparsePut (fun _ => []) m.hbmHits k h }
  if s.num 0x4400_03 ≤ h.length then qualifyUnit s n unit else s

/-! ### Shelf lines (R375) -/

/-- A line added to the repair list of a pair. -/
def listLine (s : State) (n line : Nat) : State :=
  let l := (s.maint.repairList[n]?).getD []
  if l.contains line then s
  else if 256 ≤ l.length then s.raise 0x4054 n (memData .shelf n ++ leBytes 4 line ++ leBytes 1 1)
  else
    let s := modMaint s fun m => { m with repairList := m.repairList.setIfInBounds n (l ++ [line]) }
    (s.setSaved (fam 0x4600_05 n) (l.length + 1)).raise 0x4054 n
      (memData .shelf n ++ leBytes 4 line ++ leBytes 1 (decide (l.length = 255)).toNat)

/-- A shelf line is 256 bytes; a record place takes 60 of them (R372). -/
def lineOf (address : Nat) : Nat := address / 256

def shelfHit (s : State) (n address : Nat) : State :=
  let k := n * 2 ^ 24 + lineOf address
  let h := hitsOf s s.maint.shelfHits k
  let s := modMaint s fun m => { m with shelfHits := sparsePut (fun _ => []) m.shelfHits k h }
  if s.num 0x4400_05 ≤ h.length then listLine s n (lineOf address) else s

/-! ### Outcomes (R364) -/

/-- A corrected word: counted, logged, classed (R478). `scrub`: found by the patrol scrub. -/
def noteCorrected (s : State) (m : MemKind) (unit address symbol : Nat) (scrub : Bool) : State :=
  let s := (s.inc (correctedOid m unit)).faultCorrected 1
  let s := logError s m unit (if scrub then 4 else 1) symbol address 0 0xFFFF 0xFFFF
  match m with
  | .hbm => hbmHit s unit address
  | .shelf => shelfHit s unit address
  | _ => s

/-- A word decoded on the second read. -/
def noteReread (s : State) (m : MemKind) (unit address : Nat) : State :=
  let s := if m = .hbm then s.inc (fam 0x4500_03 unit) else s
  logError s m unit 2 0xFF address 0 0xFFFF 0xFFFF

/-! ### Reads (R364) -/

/-- Where the addresses of a memory begin. -/
def memBase (m : MemKind) (unit : Nat) : Nat :=
  match m with
  | .hbm => hbmBase unit
  | .shelf => shelfBase unit
  | .staging => stagingBase unit
  | .accumulator => accBase unit
  | .vectorStore => vstoreBase unit

/-- The code word at w has bytes among the n from a. -/
def touches (a n w : Nat) : Bool := decide (w < a + n) && decide (a < w + codeBytes w)

/-- The errors of the code words of a set, in ascending order. -/
def errsAt (s : State) (p : Nat → Bool) : List (Nat × ReadOutcome) := s.maint.errs.filter fun e => p e.1

/-- The error of one code word set: a word that holds one already cannot be decoded any more. -/
def addErr (s : State) (w : Nat) (o : ReadOutcome) : State :=
  let old := sparseGet (fun _ => ReadOutcome.clean) s.maint.errs w
  modMaint s fun m => { m with
    errs := sparsePut (fun _ => ReadOutcome.clean) m.errs w (if old = .clean ∨ o = .clean then (if o = .clean then old else o) else .uncorrectable) }

/-- The error of one code word ended. -/
def dropErr (s : State) (w : Nat) : State :=
  modMaint s fun m => { m with errs := sparsePut (fun _ => ReadOutcome.clean) m.errs w .clean }

/-- Code words with errors read in turn (R364): a corrected word is counted and written back, one that the second read decodes is
counted; the read ends at the first confirmed uncorrectable one, and the answer gives its address in its memory. -/
def readErrs (m : MemKind) (unit : Nat) : List (Nat × ReadOutcome) → State → State × Option Nat
  | [], s => (s, none)
  | (w, o) :: es, s =>
    let a := w - memBase m unit
    match o with
    | .clean => readErrs m unit es s
    | .corrected k => readErrs m unit es (noteCorrected (dropErr s w) m unit a k.val false)
    | .reread => readErrs m unit es (noteReread (dropErr s w) m unit a)
    | .uncorrectable => (s, some a)

/-- The code words that hold n bytes from address a of a memory, read. -/
def checkRead (s : State) (m : MemKind) (unit a n : Nat) : State × Option Nat :=
  readErrs m unit (errsAt s (touches (memBase m unit + a) n)) s

/-- Several ranges of one memory read in turn. -/
def checkRanges (m : MemKind) (unit : Nat) : List (Nat × Nat) → State → State × Option Nat
  | [], s => (s, none)
  | (a, n) :: l, s =>
    match checkRead s m unit a n with
    | (s, none) => checkRanges m unit l s
    | r => r

/-! ### Accumulator code words (R376) -/

/-- Accumulator code words of slots [lo, lo + n) of a row bank, numbered 1024 * row + word. -/
def accWords (row lo n : Nat) : List Nat :=
  let a := 40 * lo / 128
  (List.range ((40 * (lo + n) - 1) / 128 - a + 1)).map fun i => 1024 * row + a + i

/-- The byte address in its memory of such a code word. -/
def accAddress (word : Nat) : Nat := 10240 * (word / 1024) + 16 * (word % 1024)

/-- The code word at an address among all memories belongs to slots [lo, lo + n) of a row bank of accumulator memory f. -/
def accTouches (f lo n w : Nat) : Bool :=
  let a := w - accBase f
  decide (accBase f ≤ w) && decide (a < 5242880) && (accWords (a / 10240) lo n).contains (1024 * (a / 10240) + a % 10240 / 16)

/-- Slots [lo, lo + n) of row banks [row, row + rows) of a facet read (R364). -/
def checkRows (s : State) (f row rows lo n : Nat) : State × Option Nat :=
  readErrs .accumulator f (errsAt s fun w => accTouches f lo n w && decide (row ≤ (w - accBase f) / 10240)
    && decide ((w - accBase f) / 10240 < row + rows)) s

/-- The same of all row banks. -/
def checkAcc (s : State) (f lo n : Nat) : State × Option Nat := checkRows s f 0 512 lo n

/-- Slots written: their code words hold no error any more. -/
def clearAcc (s : State) (f lo n : Nat) : State := clearErrs s (accTouches f lo n)

/-! ### Upsets -/

/-- The memory of a code. -/
def memOf (n : Nat) : MemKind :=
  match n with
  | 0 => .hbm
  | 1 => .shelf
  | 2 => .staging
  | 3 => .accumulator
  | _ => .vectorStore

/-- The outcome of a number below 74. -/
def outcomeOf (m : MemKind) (n : Nat) : ReadOutcome :=
  if n = 72 then .reread else if n = 73 then .uncorrectable
  else .corrected ⟨(if m = .hbm then n else n % 36) % 72, Nat.mod_lt _ (by decide)⟩

/-- Whether a code word takes an error at a tick, which, and how its next read goes: free (log entry 2). -/
def upset (s : State) : State :=
  let (hit, s) := s.drawBool
  if !hit then s else
  let (k, s) := s.drawNat 5
  let (u, s) := s.drawNat (memUnits (memOf k))
  let (a, s) := s.drawNat (memBytes (memOf k))
  let (o, s) := s.drawNat 74
  let w := memBase (memOf k) u + a
  addErr s (w - w % codeBytes w) (outcomeOf (memOf k) o)

end Sys2Proof.Machine
end

