-- ==== Sys2Proof/Machine/PeerOps.lean ====
section
/-! DEFINITION. PeerOps.lean: sending peer frames over routes, link numbering and credits (R452-R458). -/

namespace Sys2Proof.Machine

def peerLink (s : State) (p : PeerPort) : Nat := s.num (fam 0xA010_01 p.val)

/-- A peer port is UP8 or UP7 (R448). -/
def peerUp (s : State) (p : PeerPort) : Bool := peerLink s p == 5 || peerLink s p == 6

def myOrdinal (s : State) : Nat := s.num 0xA000_01

/-- The route to an ordinal: first port and hops; none where the table holds no valid route (R452, R475). -/
def routeTo (s : State) (ord : Nat) : Option (PeerPort × Nat) :=
  let e := fieldAt (s.blob 0xA020_01) (2 * ord) 2
  let h := bitsOf e 5 2
  if ord < 64 && bitOf e 15 && 1 ≤ h && h ≤ 8 then some (⟨e % 4, Nat.mod_lt _ (by decide)⟩, h) else none

/-- A route exists and its first port is up. -/
def reachable (s : State) (ord : Nat) : Bool :=
  match routeTo s ord with
  | some (p, _) => peerUp s p
  | none => false

def modPeer (s : State) (p : PeerPort) (g : Peer → Peer) : State := { s with peers := s.peers.set p (g s.peers[p]) }

/-- Credits held for a channel and hop class at the far end of a port: 16 at first (R458). -/
def peerCredits (q : Peer) (ch h : Nat) : Nat := sparseGet (fun _ => 16) q.credits (ch * 16 + h)

/-- The 32 octets of a peer frame's header (R455). -/
def peerHeader (f : PeerFrame) : Bytes :=
  [f.type, f.flags] ++ leBytes 1 f.srcOrd ++ leBytes 1 f.destOrd ++ leBytes 1 f.hops ++ leBytes 1 f.channel
    ++ leBytes 2 f.payload.length ++ leBytes 4 f.seq ++ leBytes 4 f.ackSeq ++ leBytes 4 f.ringId ++ leBytes 2 f.creditField ++ f.record

/-- The CRC-32 of a peer frame, over its header and payload, computed as in R395 (R455). -/
def peerCrc (f : PeerFrame) : BitVec 32 := BitVec.ofNat 32 (crc32 (peerHeader f ++ f.payload))

/-- A peer frame with the ACK_SEQ of the port and its CRC formed anew. -/
def sealPeer (q : Peer) (f : PeerFrame) : PeerFrame :=
  let f := { f with ackSeq := (q.rxNext + 2 ^ 32 - 1) % 2 ^ 32 }
  { f with crc := peerCrc f }

/-- An ordinal whose frames the device consumes: its own, or one that it stands in for (R454). -/
def ownOrdinal (s : State) (o : Nat) : Bool :=
  o == myOrdinal s || ((s.num 0xA000_0A).testBit o && o < 64) || s.gang.leaving.contains o

/-- A frame leaves on a port: numbered by SEQ with ACK_SEQ, kept until acknowledged (R457), counted in FRAMES_OUT. -/
def peerOut (s : State) (p : PeerPort) (f : PeerFrame) : State :=
  let q := s.peers[p]
  let f := sealPeer q { f with seq := q.txNext }
  let s := modPeer s p fun q => { q with txNext := (q.txNext + 1) % 2 ^ 32, unacked := q.unacked ++ [(f, 0)],
                                         progressAt := if q.unacked.isEmpty then s.up else q.progressAt }
  { s with out := s.out ++ [Out.peer p f] }.inc (fam 0xA010_0D p.val)

/-- A link frame (DEST_ORD FFh, HOPS 1), consumed by the neighbour: it takes no credit (R455, R456). -/
def sendLink (s : State) (p : PeerPort) (type flags : Nat) (payload : Bytes) : State :=
  peerOut s p { type := BitVec.ofNat 8 type, flags := BitVec.ofNat 8 flags, srcOrd := myOrdinal s, destOrd := 255,
                hops := 1, channel := 0, seq := 0, ackSeq := 0, ringId := ringId s, creditField := 0,
                record := List.replicate 10 0#8, payload := payload }

/-- A frame with hop count `hops` sent on a port while a credit of its class and channel is held, else waiting
(R458). A transit frame that leaves gives its input buffer's credit back. -/
def peerSend (s : State) (p : PeerPort) (f : PeerFrame) : State :=
  let q := s.peers[p]
  let c := peerCredits q f.channel f.hops
  if peerUp s p && 0 < c then
    let s := peerOut (modPeer s p fun q =>
      { q with credits := sparsePut (fun _ => 16) q.credits (f.channel * 16 + f.hops) (c - 1) }) p { f with via := none }
    match f.via with
    | some i => sendLink s i 0x02 0 (leBytes 2 (f.hops - 1 + f.channel * 16 + 64))
    | none => s
  else modPeer s p fun q => { q with waiting := q.waiting ++ [f] }

/-- Waiting frames of a port go out as credits allow, in order. -/
def pumpPeer (s : State) (p : PeerPort) : State :=
  let ws := s.peers[p].waiting
  ws.foldl (fun s f => peerSend s p f) (modPeer s p fun q => { q with waiting := [] })

/-- A frame from an ordinal that the device carries to another, along its route (R452, R455), with the buffer that its
acknowledgement releases; none where there is no route. -/
def sendFreeing (s : State) (frees : Option (Nat × Nat × Nat × Nat)) (src ord type flags channel : Nat) (arg payload : Bytes) :
    Option State :=
  match routeTo s ord with
  | none => none
  | some (p, _) =>
    some (peerSend s p
      { type := BitVec.ofNat 8 type, flags := BitVec.ofNat 8 flags, srcOrd := src, destOrd := ord, hops := 1,
        channel := channel, seq := 0, ackSeq := 0, ringId := ringId s, creditField := 0,
        record := (arg ++ List.replicate 10 0#8).take 10, payload := payload, frees := frees })

/-- The same from the device's own ordinal, for a frame that releases nothing. -/
def sendTo (s : State) (ord type flags channel : Nat) (arg payload : Bytes) : Option State :=
  sendFreeing s none (myOrdinal s) ord type flags channel arg payload

/-- As `sendTo`; without a route nothing is sent. -/
def sendToOr (s : State) (ord type flags channel : Nat) (arg payload : Bytes) : State :=
  (sendTo s ord type flags channel arg payload).getD s

/-- A frame of a gang task from the ordinal of a part. -/
def sendPart (s : State) (src ord type : Nat) (arg payload : Bytes) : State :=
  (sendFreeing s none src ord type 0 1 arg payload).getD s

/-- PORTS_UP (0020h.05) from the link states of the six ports (R38). -/
def refreshPorts (s : State) : State :=
  let m := ((List.finRange 4).map fun p => if peerUp s p then 2 ^ p.val else 0).foldl (· + ·) 0
  let k := ((List.finRange 2).map fun p => if portUp s p then 2 ^ (4 + p.val) else 0).foldl (· + ·) 0
  s.setUnits 5 (m + k)

end Sys2Proof.Machine
end

