-- ==== Sys2Proof/Machine/Journal.lean ====
section
/-! DEFINITION. Journal.lean: the MRAM journal (R481-R488): entries, appends, freeing, overflow, mirroring to the buddy,
the done window. -/

namespace Sys2Proof.Machine

/-! ### Entries (R482, R483) -/

def jPositions : Nat := 524288

/-- The 64 bytes of an entry. -/
def entryBytes (e : JEntry) : Bytes :=
  let b := leBytes 1 e.kind ++ leBytes 1 e.flags ++ leBytes 2 e.count ++ leBytes 4 e.jsn
    ++ (e.payload ++ List.replicate 52 0#8).take 52
  b ++ leBytes 4 (crc32 b)

/-- The entry that 64 bytes hold; torn where the CRC fails or KIND is reserved (R482). -/
def entryOf (b : Bytes) : JEntry :=
  { kind := fieldAt b 0 1, flags := fieldAt b 1 1, count := fieldAt b 2 2, jsn := fieldAt b 4 4,
    payload := (b.drop 8).take 52,
    torn := b.length != 64 || fieldAt b 60 4 != crc32 (b.take 60) || fieldAt b 0 1 == 0 || 13 < fieldAt b 0 1 }

/-- The reserved fields of an entry are zero (R6, R483): FLAGS [7:5] and byte 51 of OPEN, three bytes of each slot of DONE_IDS, bytes
33 to 59 of SESSION. -/
def JEntry.reservedOk (e : JEntry) : Bool :=
  let zero := fun (at_ n : Nat) => fieldAt e.payload (at_ - 8) n == 0
  match e.kind with
  | 1 => e.flags / 32 == 0 && zero 51 1
  | 12 => [0, 1, 2, 3].all fun i => zero (17 + 12 * i) 3
  | 13 => zero 33 27
  | _ => true

def mkEntry (kind flags count jsn : Nat) (payload : Bytes) : JEntry :=
  { kind := kind, flags := flags, count := count, jsn := jsn, payload := (payload ++ List.replicate 52 0#8).take 52,
    torn := false }

/-- An entry that keeps its position from reuse: RECLAIM and MARK entries do not (log entry 12). -/
def JEntry.live (e : JEntry) : Bool := !e.torn && e.kind != 10 && e.kind != 11

/-- Entries in use. -/
def jUsed (p : JPart) : Nat := (p.entries.filter fun e => e.2.live).length

/-- The first position at or after `pos` that no live entry holds. -/
def jFreeFrom (p : JPart) : Nat → Nat → Nat
  | 0, pos => pos
  | n + 1, pos =>
    if p.entries.any fun e => e.1 == pos && e.2.live then jFreeFrom p n ((pos + 1) % jPositions) else pos

/-- An entry written at a position. -/
def jPut (p : JPart) (pos : Nat) (e : JEntry) : JPart :=
  { p with entries := sparsePut (fun _ => mkEntry 0 0 0 0 []) p.entries pos e }

/-- Positions freed. -/
def jDrop (p : JPart) (ps : List Nat) : JPart := { p with entries := p.entries.filter fun e => !ps.contains e.1 }

def modJournal (s : State) (g : Journal → Journal) : State := { s with journal := g s.journal }

/-! ### Mirroring (R467-R470, R488) -/

def buddy (s : State) : Nat := s.num 0xA000_03
def mirrorState (s : State) : Nat := s.num 0xA000_05

def modGang (s : State) (g : Gang → Gang) : State := { s with gang := g s.gang }

/-- The mirror is lost, with its cause (R469, R476). -/
def mirrorLost (s : State) (cause : Nat) : State :=
  if mirrorState s = 3 ∨ mirrorState s = 0 then s else
  (modGang (s.setNum 0xA000_05 3) fun g => { g with mirrorSent := [], resyncLast := none }).raise
    0xA021 0xFF (leBytes 1 cause)

/-- One journal entry sent to the buddy with its position in RECORD (R488). -/
def mirrorSend (s : State) (pos : Nat) : State :=
  match s.journal.own.entries.find? fun e => e.1 == pos with
  | none => s
  | some (_, e) =>
    match sendTo s (buddy s) 0x30 (if s.gang.resync then 2 else 0) 0 (leBytes 4 pos) (entryBytes e) with
    | none => mirrorLost s 3
    | some s => modGang s fun g => { g with mirrorSent := g.mirrorSent ++ [(pos, s.up)], resync := false }

/-- A new entry goes to the mirror: at once while ESTABLISHED or in RESYNC (whose records went ahead of it); the power-fail
sequence starts no JOURNAL frame (R493). -/
def mirrorAppend (s : State) (pos : Nat) : State :=
  if (mirrorState s = 1 ∨ mirrorState s = 2) ∧ !s.power.failing then mirrorSend s pos else s

/-- RESYNC toward the buddy (R469): the entries of every incomplete record and of their session records, in journal
order, the first with RESYNC set. With nothing to send the mirror is ESTABLISHED. -/
def mirrorResync (s : State) : State :=
  if buddy s = 255 then modGang (s.setNum 0xA000_05 0) fun g => { g with mirrorSent := [], resyncLast := none }
  else
    let jsns := (s.requests.map fun r => r.jsn) ++ s.sessions.filterMap fun x => x.record
    let ps := (s.journal.own.entries.filter fun e => e.2.live && (e.2.kind == 12 || jsns.contains e.2.jsn)).mergeSort
      (fun a b => a.2.jsn < b.2.jsn || (a.2.jsn == b.2.jsn && a.1 ≤ b.1)) |>.map Prod.fst
    let s := modGang (s.setNum 0xA000_05 1) fun g => { g with mirrorSent := [], resync := true, resyncLast := ps.getLast? }
    if reachable s (buddy s) then
      if ps.isEmpty then (modGang (s.setNum 0xA000_05 2) fun g => { g with resyncLast := none }).raise 0xA020 0xFF []
      else ps.foldl mirrorSend s
    else mirrorLost s 3

/-- MRAM writes are held while a rail of SYS is in a dip (R518). -/
def mramHeld (s : State) : Bool := s.power.dips.any fun d => d.1 < 2

/-- An entry of a record's commit has not been acknowledged by the buddy (R468). -/
def awaitsBuddy (s : State) (jsn : Nat) : Bool :=
  s.gang.mirrorSent.any fun e => s.journal.own.entries.any fun j => j.1 == e.1 && j.2.jsn == jsn && j.2.kind ≤ 2

/-! ### Appending and freeing (R485, R486) -/

/-- JOURNAL_HIGH (R487): raised once when use passes HIGH_MARK percent, armed again 10 points below it. -/
def journalMark (s : State) : State :=
  let used := jUsed s.journal.own * 100
  let mark := s.num 0xB100_07
  if used > mark * jPositions then
    if s.journal.highRaised then s
    else (modJournal s fun j => { j with highRaised := true }).raise 0xB020 0xFF (leBytes 4 (jUsed s.journal.own * 64))
  else if used < (mark - 10) * jPositions then modJournal s fun j => { j with highRaised := false } else s

/-- An entry appended at the next free position; none when every position is held. -/
def jAppend (s : State) (e : JEntry) : Option State :=
  let p := s.journal.own
  if jPositions ≤ jUsed p then none else
  let pos := jFreeFrom p jPositions p.head
  let s := modJournal s fun j => { j with own := { jPut j.own pos e with head := (pos + 1) % jPositions } }
  some (journalMark (mirrorAppend s pos))

/-- Runs of consecutive positions, as (first, count), of an ascending list. -/
def runsOf : List Nat → List (Nat × Nat)
  | [] => []
  | p :: ps =>
    match runsOf ps with
    | (q, n) :: rest => if q = p + 1 then (p, n + 1) :: rest else (p, 1) :: (q, n) :: rest
    | [] => [(p, 1)]

/-- Entries freed where `dead` holds, each run of positions recorded by a RECLAIM entry (R486). -/
def jFree (s : State) (dead : JEntry → Bool) : State :=
  let ps := (s.journal.own.entries.filter fun e => e.2.live && dead e.2).map Prod.fst
  let s := modJournal s fun j => { j with own := jDrop j.own ps }
  (runsOf ps).foldl (fun s r => (jAppend s (mkEntry 10 0 r.2 0 (leBytes 4 r.1))).getD s) s

/-- A record's entries, RECLAIM, MARK and DONE_IDS apart. -/
def ofRecord (jsn : Nat) (e : JEntry) : Bool := e.jsn == jsn && e.kind != 10 && e.kind != 11 && e.kind != 12

def modRequest (s : State) (jsn : Nat) (g : Request → Request) : State :=
  { s with requests := s.requests.map fun r => if r.jsn == jsn then g r else r }

def findRequest (s : State) (jsn : Nat) : Option Request := s.requests.find? fun r => r.jsn == jsn

def modSession (s : State) (n : Nat) (g : Session → Session) : State :=
  { s with sessions := s.sessions.map fun x => if x.num == n then g x else x }

/-- The session that overflow takes next (R487): that whose last request was journalled longest ago, lowest number
among equals, among those that still hold entries that may be freed. -/
def overflowVictim (s : State) : Option Session :=
  (s.sessions.filter fun x => x.record.isSome
      || s.requests.any fun r => r.session == some x.num && !r.notReplayable).foldl
    (fun (a : Option Session) x => match a with
      | none => some x
      | some y => if x.lastAt < y.lastAt || (x.lastAt == y.lastAt && x.num < y.num) then some x else some y) none

/-- A flag set in the OPEN entries of some records, in the mirror as well (R483, R488). -/
def flagOpen (s : State) (jsns : List Nat) (bit : Nat) : State :=
  let heads := fun (e : Nat × JEntry) => e.2.kind == 1 && jsns.contains e.2.jsn
  let ps := (s.journal.own.entries.filter heads).map Prod.fst
  let flagged := fun (e : Nat × JEntry) => if heads e then (e.1, { e.2 with flags := e.2.flags ||| 2 ^ bit }) else e
  let s := modJournal s fun j => { j with own := { j.own with entries := j.own.entries.map flagged } }
  ps.foldl mirrorAppend s

/-- One session taken by overflow (R487): its session record freed, its incomplete records marked not replayable and
freed except OPEN; it becomes FREE when its last request completes. -/
def overflowTake (s : State) (x : Session) : State :=
  let js := (s.requests.filter fun r => r.session == some x.num).map fun r => r.jsn
  let s := jFree s fun e => (match x.record with
    | some k => ofRecord k e
    | none => false) || (js.contains e.jsn && ofRecord e.jsn e && e.kind != 1)
  let s := flagOpen s js 2
  let s := js.foldl (fun s k => modRequest s k fun r => { r with notReplayable := true }) s
  let s := if x.state == .active then modSession s x.num fun y => { y with record := none, closing := true }
    else
      let s := { s with sessions := s.sessions.filter fun y => y.num != x.num }
      if s.sessions.length < 65536 then { s with fullRaised := false } else s
  s.inc 0xB100_08

/-- Space made for `n` entries by overflow, with the sessions taken. -/
def overflowFor : Nat → Nat → State → List Nat → State × List Nat
  | 0, _, s, taken => (s, taken)
  | k + 1, n, s, taken =>
    if jUsed s.journal.own + n ≤ jPositions then (s, taken) else
    match overflowVictim s with
    | none => (s, taken)
    | some x => overflowFor k n (overflowTake s x) (taken ++ [x.num])

/-- Entries appended in order, after overflow where they do not fit (R487); none where they cannot fit. JOURNAL_OVERFLOW
carries the sessions taken. -/
def jAppendAll (s : State) (es : List JEntry) : Option State :=
  let (s, taken) := overflowFor 65536 es.length s []
  let s := if taken.isEmpty then s else s.raise 0xB021 0xFF (((taken.map (leBytes 2)).flatten).take 48)
  if jUsed s.journal.own + es.length ≤ jPositions then es.foldl (fun (a : Option State) e => a.bind fun s => jAppend s e) (some s)
  else none

/-- An append that later facts of a request make (R485); where nothing can be freed it is lost with the record. -/
def jNote (s : State) (es : List JEntry) : State := (jAppendAll s es).getD s

/-! ### The done window (R301, R485, R486) -/

/-- A completed REQUEST_ID enters the done window and the newest DONE_IDS entry, or a new one when that is full; entries
all of whose IDs lie outside the window are freed. -/
def doneAdd (s : State) (id result : Nat) : State :=
  let w := s.num 0x6000_07
  let d := (s.journal.done ++ [(id, result)])
  let d := d.drop (d.length - w)
  let s := modJournal s fun j => { j with done := d }
  let slot := leBytes 8 id ++ leBytes 1 result ++ leBytes 3 0
  let newest := (s.journal.own.entries.filter fun e => e.2.kind == 12).foldl
    (fun (a : Option (Nat × JEntry)) e => match a with
      | none => some e
      | some y => if y.2.jsn ≤ e.2.jsn then some e else some y) none
  let s := match newest with
    | some (pos, e) =>
      if e.count < 4 then
        let e := { e with count := e.count + 1,
                          payload := (e.payload.take (12 * e.count) ++ slot ++ List.replicate 52 0#8).take 52 }
        mirrorAppend (modJournal s fun j => { j with own := jPut j.own pos e }) pos
      else jNote s [mkEntry 12 0 1 (e.jsn + 1) slot]
    | none => jNote s [mkEntry 12 0 1 0 slot]
  jFree s fun e => e.kind == 12 &&
    ((List.range e.count).all fun i => !(d.any fun x => x.1 == fieldAt e.payload (12 * i) 8))

/-! ### A record read back -/

/-- The number of an entry's U32 field at an offset of the entry. -/
def JEntry.u32 (e : JEntry) (off : Nat) : Nat := fieldAt e.payload (off - 8) 4

def entriesOf (p : JPart) (jsn : Nat) : List JEntry := (p.entries.map Prod.snd).filter fun e => !e.torn && ofRecord jsn e

/-- COPY or LINEAGE entries, by the index or position they hold from. -/
def copyList (es : List JEntry) (kind : Nat) : List (Nat × Nat) :=
  ((es.filter fun e => e.kind == kind).map fun e => (e.u32 8, e.u32 12)).mergeSort (fun a b => a.1 ≤ b.1)

/-- The lineage that a session record names (R311, R483). -/
def recordLineage (p : JPart) (jsn : Nat) : List (Nat × Nat) := copyList (entriesOf p jsn) 9

end Sys2Proof.Machine
end

