-- ==== Sys2Proof/Machine/CtxOps.lean ====
section
/-! DEFINITION. CtxOps.lean: contexts, copy slots, references and retirement (R182-R213), as shared operations. -/

namespace Sys2Proof.Machine

def emptySlot : CopySlot :=
  { state := .empty, copyId := 0, damaged := [], batches := 0, source := 0, desc := [], fromLib := [], blocks := [], total := 0,
    gainAt := 0, pins := [], spilled := 0, hbmUsed := 0, extents := [], repairing := [], repairPort := none, damagedAt := 0, askedAt := 0 }

def noCtx : Ctx :=
  { state := .unregistered, model := 0, stage := 0, slotA := emptySlot, slotB := emptySlot, pendingTo := none,
    notBefore := none, pipes := [] }

def getCtx (s : State) (n : Nat) : Ctx := sparseGet (fun _ => noCtx) s.contexts n

def setCtx (s : State) (n : Nat) (c : Ctx) : State := { s with contexts := sparsePut (fun _ => noCtx) s.contexts n c }

/-- Slot B for true, slot A for false. -/
def Ctx.slot (c : Ctx) (b : Bool) : CopySlot := if b then c.slotB else c.slotA

def Ctx.setSlot (c : Ctx) (b : Bool) (x : CopySlot) : Ctx := if b then { c with slotB := x } else { c with slotA := x }

def modSlot (s : State) (n : Nat) (b : Bool) (g : CopySlot → CopySlot) : State :=
  let c := getCtx s n
  setCtx s n (c.setSlot b (g (c.slot b)))

/-- The registration as saved (R185). -/
def saveReg (s : State) (n : Nat) : State :=
  let c := getCtx s n
  let regs := s.store.regs.filter fun r => r.1 != n
  { s with store := { s.store with
      regs := if c.state = .unregistered then regs else regs ++ [(n, c.model, c.stage, c.state == .closing)] } }

/-- The slot of a context that holds a copy in COMPLETE, CURRENT or DRAINING (R208). -/
def Ctx.holding (c : Ctx) (copy : Nat) : Option Bool :=
  let ok := fun (x : CopySlot) => x.copyId == copy && 4 ≤ x.state.code
  if ok c.slotA then some false else if ok c.slotB then some true else none

/-- The copy that is CURRENT; none where no slot is. -/
def Ctx.currentCopy (c : Ctx) : Option Nat :=
  if c.slotA.state = .current then some c.slotA.copyId
  else if c.slotB.state = .current then some c.slotB.copyId else none

/-- The copies that the journal record of a request names: those of its session's lineage and of its own batches (R209,
R311). -/
def namedCopies (s : State) (r : Request) : List Nat :=
  (match r.session.bind fun n => s.sessions.find? fun x => x.num == n with
    | some x => x.lineage.map Prod.snd
    | none => []) ++ r.copies.map Prod.snd

/-- The journal count of a copy (R209): incomplete requests whose record names it, those not replayable apart. -/
def journalCount (s : State) (model stage copy : Nat) : Nat :=
  (s.requests.filter fun r =>
    r.model == model && r.stage == stage && !r.notReplayable && (namedCopies s r).contains copy).length

def ctxData (n : Nat) (b : Bool) (copy : Nat) : Bytes :=
  leBytes 2 n ++ leBytes 1 (if b then 1 else 0) ++ leBytes 4 copy

/-- The same fields of an event about a copy that no slot holds, or about no copy (R219): slot FFh (log entry 85). -/
def noSlotData (n copy : Nat) : Bytes := leBytes 2 n ++ leBytes 1 0xFF ++ leBytes 4 copy

/-- Cached records of a context's copy released (R191, R210). -/
def dropCache (s : State) (ctx copy : Nat) : State :=
  { s with cache := s.cache.map fun l => l.filter fun e => !(e.1.context == ctx && e.1.copy == copy) }

/-- A slot emptied: shelf places, HBM3E space and cached records released. -/
def clearSlot (s : State) (n : Nat) (b : Bool) : State :=
  dropCache (modSlot s n b fun _ => emptySlot) n ((getCtx s n).slot b).copyId

/-- The pipeline of a slot ended (R201): by DISCARD, by deregistration, with its copy's retirement. -/
def dropPipe (s : State) (n : Nat) (b : Bool) : State :=
  let c := getCtx s n
  setCtx s n { c with pipes := c.pipes.filter fun p => p.slot != b }

/-- Retirement of a copy (R210). -/
def retireSlot (s : State) (n : Nat) (b : Bool) : State :=
  let x := (getCtx s n).slot b
  ((dropPipe (clearSlot s n b) n b).inc 0x5000_08).raise 0x5015 0xFF (ctxData n b x.copyId)

/-- The end of a build (R210, R219). -/
def buildFailed (s : State) (n : Nat) (b : Bool) (cause : Nat) : State :=
  let x := (getCtx s n).slot b
  s.raise 0x5012 0xFF (ctxData n b x.copyId ++ leBytes 1 cause ++ leBytes 4 x.blocks.length)

/-- An entry of 5040h still needed (R211, R212): an incomplete record names it and no slot of a context of that MODEL
and STAGE holds it. -/
def stillNeeded (s : State) (e : Nat × Nat × Nat) : Bool :=
  0 < journalCount s e.1 e.2.1 e.2.2
    && !s.contexts.any fun c => c.2.model == e.1 && c.2.stage == e.2.1 && (c.2.holding e.2.2).isSome

def pruneNeeded (s : State) : State := { s with needed := s.needed.filter (stillNeeded s) }

/-- 5040h formed anew in journal order, each entry with the context of the first record that names it. -/
def wantedCopies (s : State) : List ((Nat × Nat × Nat) × Nat) :=
  (s.requests.filter fun r => !r.notReplayable).foldl (fun (a : List ((Nat × Nat × Nat) × Nat)) r =>
    (namedCopies s r).foldl (fun a c =>
      let e := (r.model, r.stage, c)
      if c != 0 && stillNeeded s e && !(a.any fun x => x.1 == e) then a ++ [(e, r.context)] else a) a) []

/-- 5040h formed anew; each entry added raises REPLAY_NEEDS_COPY (R211, R219). -/
def refreshNeeded (s : State) : State :=
  let want := wantedCopies s
  (want.filter fun e => !s.needed.contains e.1).foldl
    (fun s e => s.raise 0x5018 0xFF (noSlotData e.2 e.1.2.2)) { s with needed := want.map Prod.fst }

/-- A slot whose copy no batch and no incomplete record references any more. -/
def unreferenced (s : State) (c : Ctx) (x : CopySlot) : Bool :=
  x.batches == 0 && journalCount s c.model c.stage x.copyId == 0

/-- Retirement of DRAINING copies without references (one that a pending SWITCH names is kept for it, R206; log entry 86), and,
in CLOSING, of every copy without references; a CLOSING context with both slots EMPTY and no incomplete record becomes UNREGISTERED (R184, R210). -/
def settleCtx (s : State) (n : Nat) : State :=
  let go := fun (s : State) (b : Bool) =>
    let c := getCtx s n
    let x := c.slot b
    if c.pendingTo != some b && unreferenced s c x && (x.state == .draining || (c.state == .closing && 4 ≤ x.state.code))
    then retireSlot s n b else s
  let s := pruneNeeded (go (go s false) true)
  let c := getCtx s n
  if c.state = .closing ∧ c.slotA.state = .empty ∧ c.slotB.state = .empty
      ∧ !s.requests.any (fun r => r.context == n) then
    (saveReg (setCtx s n noCtx) n).raise 0x501A 0xFF (noSlotData n 0)
  else s

/-- References fallen anywhere: every context settled. -/
def settleAll (s : State) : State := (s.contexts.map Prod.fst).foldl settleCtx s

end Sys2Proof.Machine
end

