-- ==== Sys2Proof/Machine/Service.lean ====
section
/-! DEFINITION. Service.lean: requests, response frames, sessions, seeds and completion (R292-R318, R483-R486), as shared
operations. -/

namespace Sys2Proof.Machine

/-- A field of the 128-byte request header (R294). -/
def Request.hdr (r : Request) (off n : Nat) : Nat := fieldAt r.header off n

def Request.service (r : Request) : Nat := r.hdr 16 1

/-- The prompt of a request: its INPUT as token IDs (R294). -/
def Request.prompt (r : Request) : List Nat :=
  if r.hdr 94 1 = 0 then (List.range (r.input.length / 4)).map fun i => fieldAt r.input (4 * i) 4 else []

/-- MAX_TOKENS, FIRST_TARGET, TOKEN_TARGET and DEADLINE of the header. -/
def Request.maxTokens (r : Request) : Nat := r.hdr 28 4
def Request.deadline (r : Request) : Nat := (stampTicks (r.hdr 32 8)).getD 0

/-- Whether a token is one of the request's stop tokens (R315). -/
def Request.stops (r : Request) (t : Nat) : Bool :=
  t != 0xFFFFFFFF && (List.range 8).any fun i => r.hdr (56 + 4 * i) 4 == t

/-- The index of the request's next token step. -/
def Request.nextIndex (r : Request) : Nat := r.replayed.getD r.tokens.length

/-- The class of a request's tasks (R292). -/
def Request.cls (r : Request) : Cls := if r.service = 2 then .slot else .stream

/-- The copy the request's latest output is on: the last of its record. -/
def Request.lastCopy (r : Request) : Nat := (r.copies.getLast?.map Prod.snd).getD 0

/-- The copy that the record names for a token index (R209, R490). -/
def Request.copyFor (r : Request) (k : Nat) : Nat :=
  (((r.copies.filter fun c => c.1 ≤ k).getLast?.or r.copies.head?).map Prod.snd).getD 0

/-- COPY_ID of R297: the copy of the batch that produced the DATA; 0 for a frame without DATA (log entry 79). -/
def Request.dataCopy (r : Request) (tokenIndex : Nat) (data : Bytes) : Nat :=
  if data.isEmpty then 0 else if r.service = 1 then r.copyFor tokenIndex else r.lastCopy

/-! ### The generator of R313 -/

def mixRound (x : Nat) : Nat :=
  let x := x ^^^ (x / 2 ^ 31)
  let x := x * 0xBF58476D1CE4E5B9 % 2 ^ 64
  x ^^^ (x / 2 ^ 29)

/-- The 64-bit mix of R313 before the final shift. -/
def mix64 (s n d : Nat) : Nat :=
  let x := s ^^^ (n * 0x9E3779B97F4A7C15 % 2 ^ 64) ^^^ (d * 0xD1B54A32D192ED03 % 2 ^ 64)
  mixRound (mixRound (mixRound x))

/-- g(s, n, d) (R313). -/
def gen (s n d : Nat) : Nat := mix64 s n d / 2 ^ 32

/-- The seed of a session that a request opens (R313). -/
def seedOf (seed tag id : Nat) : Nat := if seed = 0 then mix64 tag id 1 else seed

/-! ### Response frames (R297-R299) -/

/-- One response frame: header of R297 and DATA, sent confirmed. `flags` less bit 1, which a replayed request sets. -/
def respond (s : State) (r : Request) (tokenIndex count result cause retry flags stop outKind : Nat) (data : Bytes) :
    State :=
  sendConfirmed s 0x41 []
    (leBytes 8 r.id ++ leBytes 4 tokenIndex ++ leBytes 2 count ++ leBytes 1 result ++ leBytes 1 cause
      ++ leBytes 4 retry ++ leBytes 4 (r.dataCopy tokenIndex data) ++ leBytes 1 (flags + if r.wasReplayed then 2 else 0)
      ++ leBytes 1 stop ++ leBytes 1 outKind ++ leBytes 1 0 ++ leBytes 8 s.stamp ++ List.replicate 28 0#8 ++ data)

/-- Elements or tokens that begin in the bytes from `off` to `off + n - 1` of an output of a kind (R297): a sum tile has a
64-byte header, its elements and padding (R130). -/
def elementsIn (kind : Nat) (data : Bytes) (off n : Nat) : Nat :=
  let upTo := fun (k : Nat) =>
    match kind with
    | 1 =>
      let form := fieldAt data 0 1
      let size := formBytes (form % 3) (3 ≤ form)
      min (ceilDiv (k - 64) size) (fieldAt data 4 2 * fieldAt data 6 2)
    | 3 => ceilDiv k 2
    | _ => ceilDiv k 4
  upTo (min (off + n) data.length) - upTo off

/-- Segments of one buffer of an output from byte `off` on, 4,032 bytes each, numbered from `seg` (R298); where the output ends
with it, its last segment is final with result DONE. The answer gives the next number. -/
def respondPart (s : State) (r : Request) (flags kind : Nat) (data : Bytes) (final : Bool) : Nat → Nat → Nat → State × Nat
  | 0, seg, _ => (s, seg)
  | n + 1, seg, off =>
    let last := data.length ≤ off + 4032
    let done := last && final
    let s := respond s r seg (elementsIn kind data off 4032) (if done then 1 else 0) 0 0 (flags + if done then 1 else 0) 0
      kind ((data.drop off).take 4032)
    if last then (s, seg + 1) else respondPart s r flags kind data final n (seg + 1) (off + 4032)

/-- FLAGS bits 2 and 3 of an output buffer (R297): a sum tile says so itself; a vector output is inexact where its task met
an inexact tile. -/
def outputFlags (kind : Nat) (inexact : Bool) (data : Bytes) : Nat :=
  if kind = 1 then (if bitOf (fieldAt data 2 1) 0 then 4 else 0) + (if fieldAt data 1 1 ≠ 0 then 8 else 0)
  else if inexact then 4 else 0

/-- The buffers of an output, OUT_KIND and data, in order (R298). -/
def respondAll (s : State) (r : Request) (inexact : Bool) : Nat → List (Nat × Bytes) → State
  | _, [] => s
  | seg, (kind, data) :: rest =>
    let (s, seg) := respondPart s r (outputFlags kind inexact data) kind data rest.isEmpty (data.length + 1) seg 0
    respondAll s r inexact seg rest

/-! ### The admission queue (R277, R280) -/

/-- The requests that wait for admission (2200h.08). -/
def waitingCount (s : State) : Nat := (s.requests.filter fun r => r.phase == .waiting).length

/-- ADMISSION_BUSY when the queue first fills, whatever fills it (R280). -/
def noteBusy (s : State) : State :=
  if s.num 0x2200_09 ≤ waitingCount s ∧ !s.busyRaised then { s with busyRaised := true }.raise 0x2024 0xFF [] else s

/-- ADMISSION_BUSY may be raised again once the queue has fallen below half its depth (R280). -/
def rearmBusy (s : State) : State := if 2 * waitingCount s < s.num 0x2200_09 then { s with busyRaised := false } else s

/-- A request waits for admission from now on. -/
def awaitAdmission (s : State) (jsn : Nat) (g : Request → Request) : State :=
  noteBusy (modRequest s jsn fun r => { g r with phase := .waiting })

/-! ### Sessions (R303-R306) -/

def findSession (s : State) (tag : Nat) : Option Session := s.sessions.find? fun x => x.tag == tag && !x.closing

/-- The lowest free entry of the session table. -/
def freeEntry (s : State) : Nat → Nat → Option Nat
  | 0, _ => none
  | n + 1, k => if s.sessions.any fun x => x.num == k then freeEntry s n (k + 1) else some k

/-- The IDLE or EVICTED session that has gone longest without a request, lowest number first (R305). -/
def longestIdle (s : State) : Option Session :=
  (s.sessions.filter fun x => x.state != .active).foldl
    (fun (a : Option Session) x => match a with
      | none => some x
      | some y => if x.lastAt < y.lastAt || (x.lastAt == y.lastAt && x.num < y.num) then some x else some y) none

/-- A session becomes FREE: pages released, seed and history forgotten, its journal entries freed (R305, R486). -/
def freeSession (s : State) (x : Session) : State :=
  let s := { s with sessions := s.sessions.filter fun y => y.num != x.num }
  let s := if s.sessions.length < 65536 then { s with fullRaised := false } else s
  match x.record with
  | some k => jFree s (ofRecord k)
  | none => s

/-- A session opened for a request (R303): the lowest free entry, after reclaiming where there is none (R305); none
where every session is ACTIVE. -/
def openSession (s : State) (tag context seed : Nat) : Option (State × Nat) :=
  let s := if 65536 ≤ s.sessions.length then
      match longestIdle s with
      | some x => (freeSession s x).inc 0x6010_06
      | none => s
    else s
  match freeEntry s 65536 0 with
  | none => none
  | some k =>
    let x : Session :=
      { num := k, tag := tag, context := context, seed := seed, state := .active, history := [], lineage := [],
        pages := 0, onStacks := [], lastAt := s.up, closing := false, record := none }
    some ({ s with sessions := s.sessions ++ [x] }, k)

/-- SESSION_TABLE_FULL at the first refusal (R305). -/
def tableFull (s : State) (id : Nat) : State :=
  if s.fullRaised then s else { s with fullRaised := true }.raise 0x6010 0xFF (leBytes 8 id)

/-! ### Completion (R485, R486) -/

def chunks12 : Nat → List Nat → List (List Nat)
  | 0, _ => []
  | n + 1, l => if l.isEmpty then [] else l.take 12 :: chunks12 n (l.drop 12)

/-- HISTORY entries for tokens from a position on. -/
def historyEntries (jsn pos : Nat) (ts : List Nat) : List JEntry :=
  (chunks12 (ts.length + 1) ts).zipIdx.map fun c =>
    mkEntry 8 0 c.1.length jsn (leBytes 4 (pos + 12 * c.2) ++ (c.1.map (leBytes 4)).flatten)

/-- A completed generation request's prompt and tokens appended to its session's history (R315), with the copies that made them, and
to its record, SESSION entry first where the session has none yet (R485); of a request that overflow took, to the history
only, as its session has no record (R487). -/
def extendHistory (s : State) (r : Request) (x : Session) : State :=
  let ts := r.prompt ++ r.tokens
  let pos := x.history.length
  let lin := r.copies.map fun c => (pos + (if c.1 = 0 then 0 else r.prompt.length + c.1), c.2)
  let longer := fun (s : State) (k : Option Nat) =>
    modSession s x.num fun y => { y with history := y.history ++ ts, lineage := y.lineage ++ lin, record := k }
  if r.notReplayable then longer s x.record else
  let (s, jsn, head) := match x.record with
    | some k => (s, k, [])
    | none =>
      let k := s.journal.nextJsn
      (modJournal s fun j => { j with nextJsn := (k + 1) % 2 ^ 32 }, k,
        [mkEntry 13 0 0 k (leBytes 8 x.tag ++ leBytes 8 x.seed ++ leBytes 4 r.model ++ leBytes 2 x.context
          ++ leBytes 2 x.num ++ leBytes 1 r.stage)])
  longer (jNote s (head ++ historyEntries jsn pos ts
    ++ lin.map fun l => mkEntry 9 0 0 jsn (leBytes 4 l.1 ++ leBytes 4 l.2))) (some jsn)

/-- A session goes on after one of its requests: it is neither closing nor freed by FLAGS bit 0, or further requests of it wait
(R304, R306, R318). -/
def goesOn (s : State) (r : Request) (x : Session) : Bool :=
  (!bitOf (r.hdr 17 1) 0 && !x.closing) || s.requests.any fun q => q.session == some x.num && q.jsn != r.jsn

/-- A request completed with a result: DONE entry, then its final frame (`send`), the done window, the session's
history, its entries freed (R485, R486). Its session is not settled. A CANCEL that the completion comes before reports 2 (R318). -/
def finishRequest (s : State) (r : Request) (result : Nat) (send : State → State) : State :=
  let s := jNote s [mkEntry 7 0 result r.jsn (leBytes 8 s.stamp)]
  let s := doneAdd (send s) r.id result
  let s := match r.session.bind fun n => s.sessions.find? fun x => x.num == n with
    | some x =>
      if r.service = 1 && r.tokens != [] && goesOn s r x then extendHistory s r x else s
    | none => s
  let s := jFree s (ofRecord r.jsn)
  let s := if r.cancel && result != 16 then s.setNum 0x6030_03 2 else s
  { s with requests := s.requests.filter fun q => q.jsn != r.jsn }

/-- The frame of a request that ends without output: COUNT 0, final (R298). OWNED_ELSEWHERE sends none (R299). -/
def endFrame (r : Request) (result cause retry stop : Nat) (s : State) : State :=
  if result = 20 then s else respond s r (if r.service = 1 then r.tokens.length else 0) 0 result cause retry 1 stop 0 []

/-- Requests of a tag that came after a CLOSE (R318): the first opens a session, the others join it unless they name another
context than the session's (R306). -/
def reopenSession (s : State) (tag : Nat) : State :=
  match s.requests.find? fun r => r.tag == tag && r.session.isNone with
  | none => s
  | some r =>
    match openSession s tag r.context (seedOf (r.hdr 48 8) tag r.id) with
    | none => s
    | some (s, k) =>
      let others := s.requests.filter fun q => q.tag == tag && q.session.isNone && q.context != r.context
      let s := others.foldl (fun s q => finishRequest (s.inc 0x6010_0B) q 14 (endFrame q 14 0 0 0)) s
      { s with requests := s.requests.map fun q =>
          if q.tag == tag && q.session.isNone then { q with session := some k } else q }

/-- After a request of a session has gone: the next waiting one may run; else the session becomes IDLE, or EVICTED where it
holds no pages (R304; log entry 84), or FREE with FLAGS bit 0 or a pending CLOSE (R304, R306, R318). -/
def settleSession (s : State) (n : Nat) (close : Bool) : State :=
  match s.sessions.find? fun x => x.num == n with
  | none => s
  | some x =>
    if s.requests.any fun r => r.session == some n then s
    else if close || x.closing then reopenSession (freeSession s x) x.tag
    else modSession s n fun y => { y with state := if y.pages = 0 then .evicted else .idle }

/-- A request completed with a result (R485, R486), its session and every reference settled (R209, R210, R306); the queue may
have fallen below half (R280). -/
def complete (s : State) (r : Request) (result : Nat) (send : State → State) : State :=
  let s := finishRequest s r result send
  let s := match r.session with
    | some n => settleSession s n (bitOf (r.hdr 17 1) 0)
    | none => s
  rearmBusy (settleAll s)

/-- The results that SESSION_REFUSALS counts (R320). -/
def sessionRefusal (result : Nat) : Bool := [4, 5, 14, 15].contains result

/-- A request that ends without output: one frame, COUNT 0, final (R298). OWNED_ELSEWHERE sends none (R299). -/
def endRequest (s : State) (jsn result cause retry stop : Nat) : State :=
  match findRequest s jsn with
  | none => s
  | some r =>
    complete (if sessionRefusal result then s.inc 0x6010_0B else s) r result (endFrame r result cause retry stop)

end Sys2Proof.Machine
end

