-- ==== Sys2Proof/Machine/Stream.lean ====
section
/-! DEFINITION. Stream.lean: stations, dowel queues, buffers, credit pools, pushes, pops and releases (R220-R231,
R239-R250), as shared operations. -/

namespace Sys2Proof.Machine

/-! ### Tasks -/

def findTask (s : State) (n : Nat) : Option Task := s.tasks.find? fun t => t.num == n

def modTask (s : State) (n : Nat) (g : Task → Task) : State :=
  { s with tasks := s.tasks.map fun t => if t.num == n then g t else t }

/-- Progress of a task under R246. -/
def touch (s : State) (n : Nat) : State := modTask s n fun t => { t with progressAt := s.up }

/-! ### Stations and queues (R221, R224, R227) -/

def queueAt (s : State) (f q : Nat) : List QItem :=
  match s.stations[f]? with
  | some x => (x.queues[q]?).getD []
  | none => []

def modStation (s : State) (f : Nat) (g : Station → Station) : State :=
  match s.stations[f]? with
  | some x => { s with stations := s.stations.setIfInBounds f (g x) }
  | none => s

def setQueue (s : State) (f q : Nat) (l : List QItem) : State :=
  modStation s f fun x => { x with queues := x.queues.setIfInBounds q l }

def blockHandle (tag blocks first : Nat) : Nat := tag % 256 + blocks * 2 ^ 8 + first * 2 ^ 19
def biscuitHandle (tag len entry : Nat) : Nat := tag % 256 + (len - 1) * 2 ^ 19 + entry * 2 ^ 27
def handleTag (h : Nat) : Nat := h % 256
def handleBlocks (h : Nat) : Nat := bitsOf h 18 8

/-! ### Streams and pools (R229, R230) -/

def findStream (s : State) (eic n : Nat) : Option Stream :=
  s.streams.find? fun x => x.desc.eic == eic && x.desc.stream == n

def modStream (s : State) (eic n : Nat) (g : Stream → Stream) : State :=
  { s with streams := s.streams.map fun x => if x.desc.eic == eic && x.desc.stream == n then g x else x }

def blocksOf (bytes : Nat) : Nat := ceilDiv bytes 4096

/-- Blocks of the pool that are held. -/
def Stream.held (x : Stream) : Nat := (x.bufs.filter fun b => !b.escape).foldl (fun a b => a + b.blocks) 0

/-- Staging blocks that a stream description takes: pool, escape reserve, catch-up pools (R231). -/
def poolTotal (d : StreamDesc) : Nat :=
  d.poolBlocks + d.escapeBlocks + (if d.multicast then d.catchupBlocks * d.receivers.length else 0)

/-- Staging blocks in no pool or reserve (4200h+n.02); a catch-up stream's pool is part of its group's region (R231, R250). -/
def blocksFree (s : State) (eic : Nat) : Nat :=
  8192 - (s.streams.filter fun x => x.desc.eic == eic && x.inner.isNone).foldl (fun a x => a + poolTotal x.desc) 0

/-- The absolute numbers of the blocks of a buffer, wrapping inside its pool region (R225). -/
def Buf.blockNums (d : StreamDesc) (b : Buf) : List Nat :=
  (List.range b.blocks).map fun i =>
    if b.escape then b.first + i else d.poolBase + (b.first - d.poolBase + i) % (max d.poolBlocks 1)

/-- The stations and queues of a stream's receivers: a receiver that is no station's engine names its queue as 32 times
the station inside the pair plus the queue (log entry 21). -/
def receiverStation (eic : Nat) (r : Receiver) : Nat :=
  if r.engine < 32 then r.engine
  else if r.engine < 64 then r.engine - 32
  else 4 * (if r.engine < 72 then r.engine - 64 else eic) + r.queue / 32 % 4

def receiverQueue (r : Receiver) : Nat := r.queue % 32

/-- Which receiver of a stream takes its buffers from queue q of station f: a queue has one consumer (R227). -/
def receiverAt (x : Stream) (f q : Nat) : Nat :=
  (x.receivers.findIdx? fun r => r.engine != 0x48 && receiverStation x.desc.eic r == f && receiverQueue r == q).getD
    x.receivers.length

/-- Biscuit entries that a stream holds (R240). -/
def biscuitsHeld (s : State) (eic n : Nat) : Nat :=
  s.stations.toList.foldl (fun a x => a + (x.biscuits.toList.filter fun b => match b with
    | some b => b.eic == eic && b.stream == n
    | none => false).length) 0

def freeBiscuit (s : State) (f : Nat) : Option Nat :=
  match s.stations[f]? with
  | some x => x.biscuits.toList.findIdx? Option.isNone
  | none => none

/-- Whether the run of `k` blocks from `first` is free in the pool. -/
def Stream.runFree (x : Stream) (first k : Nat) : Bool :=
  let taken := (x.bufs.map fun b => b.blockNums x.desc).flatten
  (List.range k).all fun i =>
    !taken.contains (x.desc.poolBase + (first - x.desc.poolBase + i) % (max x.desc.poolBlocks 1))

/-- A buffer begun by its producer (R230): credits for every block are taken before the first byte, from the pool, or
from a granted escape reserve (R245). A buffer of 256 bytes or less is a biscuit, a plane record apart, and takes none (R239). None while the
producer must wait: for credits, or for the push of its buffer before (R227). The answer gives the buffer's serial number. -/
def takeBuf (s : State) (eic n bytes tag : Nat) (isRecord : Bool) : Option (State × Nat) :=
  match findStream s eic n with
  | none => none
  | some x =>
    let k := if bytes ≤ 256 && !isRecord then 0 else blocksOf bytes
    let b : Buf :=
      { serial := x.nextSerial, tag := tag % 256, first := x.nextBlock, blocks := k, bytes := bytes, escape := false,
        refs := 0 }
    if !x.ready.isEmpty then none
    else if k = 0 then some (modStream s eic n fun x => { x with nextSerial := x.nextSerial + 1, bufs := x.bufs ++ [b] }, x.nextSerial)
    else if x.held + k ≤ x.desc.poolBlocks && x.runFree x.nextBlock k then
      let next := x.desc.poolBase + (x.nextBlock - x.desc.poolBase + k) % (max x.desc.poolBlocks 1)
      some (touch (modStream s eic n fun x =>
        { x with nextSerial := x.nextSerial + 1, nextBlock := next, bufs := x.bufs ++ [b], starvedAt := none, wants := false })
        x.desc.task, x.nextSerial)
    else if x.granted && k ≤ x.desc.escapeBlocks && !(x.bufs.any fun b => b.escape) then
      let b := { b with first := x.desc.poolBase + x.desc.poolBlocks, escape := true }
      some (touch (modStream s eic n fun x =>
        { x with nextSerial := x.nextSerial + 1, bufs := x.bufs ++ [b], starvedAt := none, wants := false }) x.desc.task, x.nextSerial)
    else none

/-- A producer waits for credits (R246); the clock from which it does so with every block of its pool held (R245). -/
def starve (s : State) (eic n : Nat) : State :=
  modStream s eic n fun x =>
    if !x.ready.isEmpty then x
    else if x.starvedAt.isNone && x.desc.poolBlocks ≤ x.held then { x with starvedAt := some s.up, wants := true }
    else { x with wants := true }

/-- Bytes stored into the blocks of a buffer. -/
def storeBlocks (s : State) (eic : Nat) : List Nat → Bytes → State
  | [], _ => s
  | b :: bs, data =>
    storeBlocks (storeMem s (stagingBase eic + 4096 * b) (data.take 4096)) eic bs (data.drop 4096)

/-- The bytes in the blocks of a buffer. -/
def loadBlocks (s : State) (eic : Nat) (bs : List Nat) (bytes : Nat) : Bytes :=
  ((bs.map fun b => memRead s.mem (stagingBase eic + 4096 * b) 4096).flatten).take bytes

/-- The parts of the blocks of a buffer that hold its bytes. -/
def blockRanges : List Nat → Nat → List (Nat × Nat)
  | [], _ => []
  | b :: bs, bytes => (4096 * b, min 4096 bytes) :: blockRanges bs (bytes - 4096)

/-- The code words of a buffer read (R364, R376). -/
def checkBlocks (s : State) (eic : Nat) (bs : List Nat) (bytes : Nat) : State × Option Nat :=
  checkRanges .staging eic (blockRanges bs bytes) s

def findBuf (x : Stream) (serial : Nat) : Option Buf := x.bufs.find? fun b => b.serial == serial

/-- A buffer's blocks freed as credits (R226, R230). -/
def dropBuf (s : State) (eic n serial : Nat) : State :=
  modStream s eic n fun x =>
    { x with bufs := x.bufs.filter fun b => b.serial != serial, starvedAt := none,
             granted := if x.bufs.any (fun b => b.serial == serial && b.escape) then false else x.granted }

/-- A receiver on another device, to which a peer port leads. -/
def Receiver.onPeer (r : Receiver) : Bool := r.engine == 0x48 && decide (r.queue < 4)

/-- Receiver `idx`'s release of a buffer (R226, R248): its lag falls, but for a receiver on another device, whose lag its stream
credits lower (R459); with the last release the blocks are freed, and a stream filled by a peer returns that many stream credits. -/
def releaseBuf (s : State) (eic n serial idx : Nat) : State :=
  match findStream s eic n with
  | none => s
  | some x =>
    match findBuf x serial with
    | none => s
    | some b =>
      let s := modStream s eic n fun x =>
        { x with receivers := x.receivers.modify idx fun r => if r.onPeer then r else { r with lag := r.lag - b.blocks },
                 bufs := x.bufs.map fun c => if c.serial == serial then { c with refs := c.refs - 1 } else c }
      let s := touch s x.desc.task
      if b.refs ≤ 1 then
        let s := dropBuf s eic n serial
        match x.source with
        | some o =>
          if b.blocks = 0 then s
          else sendToOr s (o % 64) 0x11 0 2 (leBytes 2 (n + eic * 1024) ++ leBytes 1 (o / 64) ++ leBytes 2 b.blocks) []
        | none => s
      else s

/-! ### Outputs and peer receivers (R226, R298, R459) -/

/-- A result at or after its deadline is missed (R284): the request's final result. -/
def outputResult (s : State) (r : Request) : Nat := if r.service = 2 && stampBefore r.deadline s.now then 7 else 1

/-- A slot-class request completed as missed (R283, R284). -/
def missDeadline (s : State) (jsn : Nat) : State :=
  (endRequest s jsn 7 0 0 0).inc 0x2200_06 |>.raise 0x2021 0xFF []

/-- A buffer pushed to a Kangeiz port is one of the output of its task's request (log entry 22). With the last of them every
drain that feeds the result has completed (R31): the output is sent in segments, and the request is complete. -/
def deliverOutput (s : State) (task kind : Nat) (data : Bytes) : State :=
  match findTask s task with
  | none => s
  | some t =>
    match findRequest s t.jsn with
    | none => s
    | some r =>
      if r.service = 1 then s
      else if outputResult s r ≠ 1 then missDeadline s r.jsn
      else
        let out := t.output ++ [(kind, data)]
        let s := modTask s task fun t => { t with output := out }
        if out.length < max t.graph.outputs 1 then s
        else complete s r 1 fun s => respondAll s r t.inexact 0 out

/-- DATA frames of one buffer to a peer receiver (R456, R459), the last with LAST; its acknowledgement releases a block buffer. -/
def sendData (s : State) (frees : Option (Nat × Nat × Nat × Nat)) (ord eic n idx tag : Nat) : Nat → Nat → Bytes → State
  | 0, _, _ => s
  | k + 1, block, data =>
    let last := data.length ≤ 4096
    let s := (sendFreeing s (if last then frees else none) (myOrdinal s) ord 0x10 (if last then 4 else 0) 2
      (leBytes 2 (n + eic * 1024) ++ leBytes 1 idx ++ leBytes 1 tag ++ leBytes 2 block) (data.take 4096)).getD s
    if last then s else sendData s frees ord eic n idx tag k (block + 1) (data.drop 4096)

/-- The stream number and the receiver that DATA frames name: those of its group for a catch-up stream (R250, R456). -/
def Stream.wire (x : Stream) (idx : Nat) : Nat × Nat := x.inner.getD (x.desc.stream, idx)

/-- The ordinal at the far end of a peer port (A010h+p.05). -/
def neighbourOf (s : State) (p : Nat) : Nat := s.num (fam 0xA010_05 p) % 256

/-- Unsent buffers of a peer receiver go out while its stream credits cover them (R459); the destination is the
neighbour of the receiver's port (log entry 21). -/
def pumpData (s : State) (eic n idx : Nat) : Nat → State
  | 0 => s
  | fuel + 1 =>
    match findStream s eic n with
    | none => s
    | some x =>
      match x.receivers[idx]? with
      | none => s
      | some r =>
        match r.unsent with
        | [] => s
        | b :: rest =>
          match findBuf x b with
          | none => s
          | some bf =>
            if r.window < bf.blocks then s else
            match checkBlocks s eic (bf.blockNums x.desc) bf.bytes with
            | (_, some _) => s
            | (s, none) =>
            let r := { r with unsent := rest, sent := r.sent ++ [b], window := r.window - bf.blocks }
            let s := modStream s eic n fun x => { x with receivers := x.receivers.set idx r }
            let data := loadBlocks s eic (bf.blockNums x.desc) bf.bytes
            let w := x.wire idx
            pumpData (sendData s (some (eic, n, b, idx)) (neighbourOf s r.queue) eic w.1 w.2 bf.tag (bf.blocks + 1) 0 data) eic n idx
              fuel

/-- A buffer sent to a peer receiver is released: its last frame has been acknowledged by the first port on the way (R226, R457).
Its blocks stay in the receiver's lag until their stream credits return (R459). -/
def releaseSent (s : State) (eic n serial idx : Nat) : State :=
  match (findStream s eic n).bind fun x => x.receivers[idx]? with
  | none => s
  | some r =>
    if r.sent.contains serial then
      releaseBuf (modStream s eic n fun x =>
        { x with receivers := x.receivers.modify idx fun r => { r with sent := r.sent.erase serial } }) eic n serial idx
    else s

/-- Segments of an output buffer (R298). -/
def segmentsOf (data : Bytes) : Nat := max 1 (ceilDiv data.length 4032)

/-- A frame of a request's output waits to be sent or to be acknowledged: request and segment. -/
def segmentWaits (s : State) (id first last : Nat) : Bool :=
  let is := fun (f : Frame) => f.type == 0x41 && fieldAt f.payload 0 8 == id && decide (first ≤ fieldAt f.payload 8 4)
    && decide (fieldAt f.payload 8 4 ≤ last)
  s.ring.waiting.any is || s.ring.unacked.any fun t => is t.frame

/-- A frame of a request's output has been acknowledged by node 0: the buffers all of whose frames have been are released (R226, R411);
a final frame that carries no output releases what is left. -/
def releaseOutput (s : State) (id seg : Nat) (ends : Bool) : State :=
  let mine := s.ring.outBufs.filter fun o => o.requestId == id
    && (ends || (decide (o.first ≤ seg) && decide (seg ≤ o.last) && !segmentWaits s id o.first o.last))
  mine.foldl (fun s o => releaseBuf s o.eic o.stream o.buf o.receiver)
    { s with ring := { s.ring with outBufs := s.ring.outBufs.filter fun o => !mine.contains o } }

/-! ### Pushes (R227, R239, R240, R248-R250) -/

/-- A receiver for which the push of a buffer can take effect now: its queue has a free entry (R227), and for a biscuit its
station has one (R240). The remote fetch engine sends a biscuit at once, behind the buffers that still wait. -/
def roomFor (s : State) (eic : Nat) (biscuit : Bool) (r : Receiver) : Bool :=
  if r.engine = 0x48 then r.unsent.length < 64 && (!biscuit || r.unsent.isEmpty)
  else
    let f := receiverStation eic r
    (queueAt s f (receiverQueue r)).length < 64 && (!biscuit || (freeBiscuit s f).isSome)

/-- The pool region of receiver `idx`'s catch-up stream. -/
def catchupBase (d : StreamDesc) (idx : Nat) : Nat := d.poolBase + d.poolBlocks + d.escapeBlocks + idx * d.catchupBlocks

/-- The lowest stream number not in use on an EIC. -/
def freeStreamNum (s : State) (eic : Nat) : Nat :=
  ((List.range 1024).find? fun n => (findStream s eic n).isNone).getD 1023

/-- The entries of a jig as its table holds them. -/
def jigEntries (s : State) (engine jig : Nat) : List Nat := sparseGet (fun _ => []) s.jigTable (engine * 256 + jig)

/-- Emissions per buffer of a jig: PER_BUF of EMIT, 1 otherwise. -/
def jigPerBuf (es : List Nat) : Nat :=
  match es.find? fun e => e % 16 = 5 with
  | some e => max (bitsOf e 35 24) 1
  | none => 1

/-- The handles of a stream taken out of a queue, and the biscuit entries that they name freed (R240, R250). -/
def withdraw (s : State) (f q eic n : Nat) : State :=
  let of := fun (i : QItem) => i.eic == eic && i.stream == n
  let l := queueAt s f q
  let freed := (l.filter fun i => of i && handleBlocks i.handle == 0).map fun i => bitsOf i.handle 30 27
  let s := setQueue s f q (l.filter fun i => !of i)
  modStation s f fun x => { x with biscuits := freed.foldl (fun b k => b.setIfInBounds k none) x.biscuits }

/-- The run that wrote the buffer with a serial number into a stream: the last that began at or before it. -/
def runOfSerial (s : State) (eic n serial : Nat) : Option JigRun :=
  (s.jigs.filter fun j => j.eic == eic && j.stream == n && decide (j.firstSerial ≤ serial)).getLast?

/-- Removal of a slow receiver (R250): its unpopped handles are withdrawn and their pins freed, its catch-up stream and
jig start at the first buffer it had not popped, MULTICAST_SLOW is raised. A receiver on another device sees no change of stream. -/
def removeReceiver (s : State) (x : Stream) (idx : Nat) (r : Receiver) (nextSerial : Nat) : State :=
  let eic := x.desc.eic
  let n := x.desc.stream
  let f := receiverStation eic r
  let q := receiverQueue r
  let mine := if r.engine = 0x48 then [] else (queueAt s f q).filter fun i => i.eic == eic && i.stream == n
  let from_ := match mine with
    | i :: _ => i.buf
    | [] => match r.unsent with
      | b :: _ => b
      | [] => nextSerial
  let s := if r.engine = 0x48 then s else withdraw s f q eic n
  let s := (mine.map (fun i => i.buf) ++ r.unsent).foldl (fun s b => releaseBuf s eic n b idx) s
  let s := modStream s eic n fun x => { x with receivers := x.receivers.modify idx fun r => { r with inGroup := false, unsent := [] } }
  let m := freeStreamNum s eic
  let d : StreamDesc := { x.desc with
    stream := m, multicast := false, escape := false, escapeBlocks := 0,
    poolBase := catchupBase x.desc idx, poolBlocks := x.desc.catchupBlocks, lagBudget := 0, catchupBlocks := 0,
    catchupJig := 255, receivers := [(r.engine, r.queue)] }
  let v : Receiver :=
    { engine := r.engine, queue := r.queue, inGroup := true, lag := 0, window := r.window, unsent := [], sent := [] }
  let c : Stream :=
    { desc := d, receivers := [v], nextBlock := d.poolBase, nextSerial := 0, bufs := [], ready := [], starvedAt := none, wants := false,
      source := none, incoming := [], arrived := [], granted := false, inner := some (n, idx) }
  let group := runOfSerial s eic n from_
  let skipped := from_ - (group.map fun j => j.firstSerial).getD 0
  let es0 := jigEntries s (x.desc.producer - 0x40) x.desc.catchupJig
  let es := if es0.isEmpty then (group.map fun j => j.entries).getD [] else es0
  let e := (es.find? fun e => e % 16 = 5 || e % 16 = 6).getD 0
  let per := if e % 16 = 6 && bitOf e 4 then max (fmtTrits (bitsOf e 7 5)) 1 else 1
  let j : JigRun := {
    engine := x.desc.producer - 0x40, jig := x.desc.catchupJig, eic := eic, stream := m, entries := es,
    next := skipped / per * jigPerBuf es, tag := (bitsOf e 53 46 + (if bitOf e 54 then skipped else 0)) % 256, emitted := 0,
    openBuf := none, data := [], converting := false, catchup := true,
    what := (group.map fun j => j.what).getD (.other { operand := 0, rowTile := 0, chunks := 1, rows := 512, lanes := 128 }),
    reading := 0, got := [], hold := none, skip := skipped % per, ended := false, firstSerial := 0 }
  ({ s with streams := s.streams ++ [c], jigs := s.jigs ++ [j] }.inc (fam 0x4200_08 eic)).raise 0x4041 eic
    (leBytes 1 x.desc.producer ++ leBytes 2 x.desc.task ++ leBytes 2 n ++ leBytes 1 r.engine ++ leBytes 1 r.queue
      ++ leBytes 2 r.lag)

/-- One receiver takes a pushed buffer. -/
def pushTo (s : State) (x : Stream) (b : ReadyBuf) (bf : Buf) (idx : Nat) (r : Receiver) : State :=
  let eic := x.desc.eic
  let n := x.desc.stream
  let lagged := fun (s : State) => modStream s eic n fun x =>
    { x with receivers := x.receivers.modify idx fun r => { r with lag := r.lag + bf.blocks } }
  if r.engine = 0x48 then
    if r.queue < 4 then
      match b.biscuit with
      | some data => sendData s none (neighbourOf s r.queue) eic (x.wire idx).1 (x.wire idx).2 b.tag 1 0 data
      | none =>
      pumpData (modStream (lagged s) eic n fun x =>
        { x with receivers := x.receivers.modify idx fun r => { r with unsent := r.unsent ++ [b.buf] } }) eic n idx 64
    else
      let data := (b.biscuit).getD (loadBlocks s eic (bf.blockNums x.desc) bf.bytes)
      match (findTask s x.desc.task).bind fun t => findRequest s t.jsn with
      | none => releaseBuf (lagged s) eic n b.buf idx
      | some q =>
        if q.service = 1 then releaseBuf (lagged s) eic n b.buf idx else
        let first := (((findTask s x.desc.task).map fun t => t.output).getD []).foldl (fun a o => a + segmentsOf o.2) 0
        let s := { lagged s with ring := { s.ring with outBufs := s.ring.outBufs ++
          [{ requestId := q.id, eic := eic, stream := n, buf := b.buf, receiver := idx, first := first,
             last := first + segmentsOf data - 1 }] } }
        deliverOutput s x.desc.task b.kind data
  else
    let f := receiverStation eic r
    let q := receiverQueue r
    match b.biscuit with
    | some data =>
      match freeBiscuit s f with
      | none => s
      | some k =>
        let s := modStation s f fun st => { st with biscuits := st.biscuits.setIfInBounds k (some { eic := eic, stream := n, data := data }) }
        setQueue s f q (queueAt s f q ++ [{ handle := biscuitHandle b.tag data.length k, eic := eic, stream := n, buf := b.buf }])
    | none =>
      let s := lagged s
      setQueue s f q (queueAt s f q ++ [{ handle := blockHandle b.tag bf.blocks bf.first, eic := eic, stream := n, buf := b.buf }])

/-- Receivers whose lag would pass the budget leave the group before the push (R250). -/
def dropSlow (s : State) (eic n serial blocks : Nat) : State :=
  match findStream s eic n with
  | none => s
  | some x =>
    if !x.desc.multicast then s else
    (x.receivers.zipIdx).foldl (fun s r =>
      if r.1.inGroup && x.desc.lagBudget < r.1.lag + blocks then
        match findStream s eic n with
        | some x => removeReceiver s x r.2 r.1 serial
        | none => s
      else s) s

/-- A biscuit given to each receiver of the group that can take it now and has not had it; a stream holds at most 4 entries
(R240). -/
def giveBiscuit (s : State) (x : Stream) (b : ReadyBuf) (bf : Buf) (rs : List (Receiver × Nat)) : State :=
  let eic := x.desc.eic
  let n := x.desc.stream
  rs.foldl (fun s r =>
    if b.given.contains r.2 || !roomFor s eic true r.1 || (r.1.engine != 0x48 && 4 ≤ biscuitsHeld s eic n) then s
    else modStream (pushTo s x b bf r.2 r.1) eic n fun x =>
      { x with ready := x.ready.modify 0 fun q => { q with given := q.given ++ [r.2] } }) s

/-- The oldest ready buffer of a stream leaves the producer: every receiver of the group has it. -/
def donePush (s : State) (x : Stream) (b : ReadyBuf) (bf : Buf) (drop : Bool) : State :=
  let s := modStream s x.desc.eic x.desc.stream fun x => { x with ready := x.ready.drop 1 }
  let s := if drop || bf.blocks = 0 then dropBuf s x.desc.eic x.desc.stream b.buf else s
  let s := if b.biscuit.isSome then s.inc (fam 0x4200_05 x.desc.eic) else s
  touch s x.desc.task

/-- A buffer that a receiver of the group on a Kangeiz port would send has a code word that cannot be decoded (R365). -/
def sendBad (s : State) (x : Stream) (bf : Buf) : Bool :=
  x.receivers.any (fun r => r.inGroup && r.engine == 0x48 && !r.onPeer)
    && (checkBlocks s x.desc.eic (bf.blockNums x.desc) bf.bytes).2.isSome

/-- The push of the oldest buffer that is ready, as far as R227, R240 and R250 allow now; the answer says whether it is done. -/
def pushOne (s : State) (eic n : Nat) : State × Bool :=
  match findStream s eic n with
  | none => (s, false)
  | some x =>
    match x.ready with
    | [] => (s, false)
    | b :: _ =>
      match findBuf x b.buf with
      | none => (modStream s eic n fun x => { x with ready := x.ready.drop 1 }, true)
      | some bf =>
        let s := dropSlow s eic n b.buf bf.blocks
        match findStream s eic n with
        | none => (s, false)
        | some x =>
          let rs := x.receivers.zipIdx.filter fun r => r.1.inGroup
          if b.biscuit.isSome then
            let s := giveBiscuit s x b bf rs
            let given := ((findStream s eic n).bind fun x => x.ready.head?).elim [] fun q => q.given
            if rs.all fun r => given.contains r.2 then (donePush s x b bf true, true) else (s, false)
          else if (!rs.all fun r => roomFor s eic false r.1) || sendBad s x bf then (s, false)
          else
            let mark := fun (c : Buf) => if c.serial == b.buf then { c with refs := rs.length } else c
            let s := donePush (modStream s eic n fun x => { x with bufs := x.bufs.map mark }) x b bf rs.isEmpty
            (rs.foldl (fun s r => pushTo s x b bf r.2 r.1) s, true)

/-- Pushes as long as they are possible. -/
def pushAll (s : State) (eic n : Nat) : Nat → State
  | 0 => s
  | k + 1 =>
    match pushOne s eic n with
    | (s, false) => s
    | (s, true) => pushAll s eic n k

/-- A buffer is complete (R227): its bytes lie in its blocks, or it is a biscuit, and its push is due. -/
def finishBuf (s : State) (eic n serial kind : Nat) (data : Bytes) : State :=
  match (findStream s eic n).bind fun x => (findBuf x serial).map fun b => (x, b) with
  | none => s
  | some (x, b) =>
    let s := if b.blocks = 0 then s else storeBlocks s eic (b.blockNums x.desc) data
    let rb : ReadyBuf := { buf := serial, tag := b.tag, biscuit := if b.blocks = 0 then some data else none, kind := kind, given := [] }
    let s := modStream s eic n fun x => { x with ready := x.ready ++ [rb] }
    pushAll s eic n 64

/-- A buffer that a producer has written has left it: every receiver of the group has it (R227). -/
def pushed (s : State) (k : Nat × Nat × Nat) : Bool :=
  match findStream s k.1 k.2.1 with
  | some x => !x.ready.any fun b => b.buf == k.2.2
  | none => true

/-- Buffers that have come from another device get their blocks, in order, as far as the pool has them (R230, R459). -/
def placeArrived (s : State) (eic n : Nat) : Nat → State
  | 0 => s
  | k + 1 =>
    match (findStream s eic n).bind fun x => x.arrived.head? with
    | none => s
    | some (tag, data) =>
      match takeBuf s eic n data.length tag false with
      | none => s
      | some (s, b) =>
        placeArrived (finishBuf (modStream s eic n fun x => { x with arrived := x.arrived.drop 1 }) eic n b 0 data) eic n k

/-- The same for every stream. -/
def placeAll (s : State) : State :=
  (s.streams.filter fun x => !x.arrived.isEmpty).foldl (fun s x => placeArrived s x.desc.eic x.desc.stream x.arrived.length) s

/-! ### Pops (R228) -/

/-- The bytes of the buffer that a queue's item names. -/
def itemData (s : State) (f : Nat) (i : QItem) : Bytes :=
  if handleBlocks i.handle = 0 then
    match (s.stations[f]?).bind fun x => (x.biscuits[bitsOf i.handle 30 27]?).bind id with
    | some b => b.data
    | none => []
  else
    match (findStream s i.eic i.stream).bind fun x => (findBuf x i.buf).map fun b => (x, b) with
    | some (x, b) => loadBlocks s i.eic (b.blockNums x.desc) b.bytes
    | none => []

/-- A handle of a queue popped (R228): a biscuit's entry is freed (R240), a buffer's blocks stay pinned. -/
def popItem (s : State) (f q : Nat) (i : QItem) : State :=
  let s := setQueue s f q ((queueAt s f q).erase i)
  let s := if handleBlocks i.handle = 0 then
      modStation s f fun x => { x with biscuits := x.biscuits.setIfInBounds (bitsOf i.handle 30 27) none }
    else s
  match findStream s i.eic i.stream with
  | some x => pushAll (touch s x.desc.task) i.eic i.stream 64
  | none => s

/-- The head handle popped (R228). -/
def popQueue (s : State) (f q : Nat) : State :=
  match queueAt s f q with
  | [] => s
  | i :: _ => popItem s f q i

/-- The code words of the buffer that a queue's item names, read (R364): a biscuit has none. -/
def checkItem (s : State) (i : QItem) : State × Option Nat :=
  if handleBlocks i.handle = 0 then (s, none) else
  match (findStream s i.eic i.stream).bind fun x => (findBuf x i.buf).map fun b => (x, b) with
  | some (x, b) => checkBlocks s i.eic (b.blockNums x.desc) b.bytes
  | none => (s, none)

/-- What a popped item pins; none for a biscuit. -/
def holdOf (f q : Nat) (i : QItem) : Option Hold :=
  if handleBlocks i.handle = 0 then none else some { station := f, queue := q, eic := i.eic, stream := i.stream, buf := i.buf }

/-- The release of a pinned buffer by the consumer of the queue that it was popped from. -/
def releaseHold (s : State) (h : Option Hold) : State :=
  match h with
  | some h =>
    match findStream s h.eic h.stream with
    | some x => releaseBuf s h.eic h.stream h.buf (receiverAt x h.station h.queue)
    | none => s
  | none => s

/-- The stream of a task that a facet or vector unit produces into when its command names queue `q`: the one with a receiver on
that queue of the engine's own station (R221); for a receiver on a port, which has no station's queue, the one whose port has
that number, else the first (log entry 21). -/
def streamInto (s : State) (producer task q : Nat) : Option Stream :=
  let mine := s.streams.filter fun x => x.desc.producer == producer && x.desc.task == task
  let remote := fun (port : Option Nat) (x : Stream) => x.receivers.any fun r =>
    r.engine == 0x48 && port.all fun p => r.queue == p
  ((mine.find? fun x => decide (receiverAt x (producer % 32) (q % 32) < x.receivers.length)).or
    (mine.find? (remote (some (q % 32))))).or (mine.find? (remote none))

/-- A buffer above 2,047 blocks or above its stream's pool (R225). -/
def bufTooBig (x : Option Stream) (bytes : Nat) : Bool :=
  match x with
  | some x => decide (256 < bytes) && decide (min 2047 x.desc.poolBlocks < blocksOf bytes)
  | none => decide (2047 < blocksOf bytes)

end Sys2Proof.Machine
end

