-- ==== Sys2Proof/Machine/Sched.lean ====
section
/-! DEFINITION. Sched.lean: prices, schedule tables, frame allowances and certificates (R268-R279, R460), as functions of
the state and a task graph. Symbols are absolute on the frame-time counter: frame * 160,000,000 + symbol. -/

namespace Sys2Proof.Machine

def frameSymbols : Nat := 160000000

/-- Symbols at a tick that is a multiple of 6 (R271). -/
def symbolOf (tick : Nat) : Nat := tick * 3125 / 6

/-- Symbols in whole ticks, rounded up (R271). -/
def ticksOf (symbols : Nat) : Nat := ceilDiv (symbols * 6) 3125

/-! ### Prices (R271) -/

/-- Bytes at `num / den` bytes per nanosecond, in symbols rounded up. -/
def byteSymbols (bytes num den : Nat) : Nat := ceilDiv (16 * bytes * den) (max num 1)

/-- The three shares of the split in force, in accesses per window of 320 (R237): read, write, remote. -/
def splitShares (s : State) : Nat × Nat × Nat :=
  match s.num 0x4000_01 with
  | 0 => (176, 96, 48)
  | 1 => (240, 48, 32)
  | 2 => (128, 80, 112)
  | _ =>
    let e := s.num 0x4000_02
    (5 * (e % 256), 5 * (e / 2 ^ 8 % 256), 5 * (e / 2 ^ 16 % 256))

/-- Accesses per window of a share: 0 read, 1 write, 2 remote. -/
def shareOf (s : State) (share : Nat) : Nat :=
  match share with
  | 0 => (splitShares s).1
  | 1 => (splitShares s).2.1
  | _ => (splitShares s).2.2

/-- Bytes per element in a reduction (R271). -/
def reduceBytes : Mode → Nat
  | .integer => 5
  | .scaled => 10
  | .wide => 20

/-- A merge of elements (R140). -/
def mergeSymbols (m : Mode) (elements : Nat) : Nat :=
  match m with
  | .integer => (ceilDiv elements 4096 + 4) * 8
  | .scaled => (ceilDiv elements 2048 + 6) * 8
  | .wide => (ceilDiv elements 1024 + 8) * 8

/-- The share of a peer channel in 64ths (R460). -/
def peerShare (s : State) (ch : Nat) : Nat := s.num 0xA000_08 / 2 ^ (8 * ch) % 256

/-- Peer bytes at a channel's share of the assured rate (R460). -/
def peerSymbols (s : State) (ch bytes : Nat) : Nat := byteSymbols bytes (86737 * peerShare s ch) 64000

/-- PEER_HOP for every hop, and the span delays (R461). -/
def hopSymbols (s : State) (hops spanNs : Nat) : Nat := hops * s.num 0xA000_0B + 16 * spanNs

/-- The schedule table of a channel of a direction of a peer port (R461): numbered above the engine codes of R220, so that no view of
R289 shows it (log entry 144). -/
def chanTable (port : Fin 4) (inward : Bool) (ch : Nat) : Nat := 256 + 8 * port.val + 4 * inward.toNat + ch

/-- Elements, or bytes, per core-clock cycle of a vector operation (R169): BF16 doubles the elementwise rates. -/
def vectorRate (opcode : Nat) (bf16 : Bool) : Nat :=
  let wide := if bf16 then 2 else 1
  match opcode with
  | 0x42 => 512
  | 0x43 => 1024 * wide
  | 0x44 => 1024 * wide
  | 0x45 => 1024 * wide
  | 0x46 => 1024 * wide
  | 0x47 => 1024 * wide
  | 0x48 => 1024 * wide
  | 0x49 => 256 * wide
  | 0x4A => 256 * wide
  | 0x4B => 256 * wide
  | 0x4C => 256 * wide
  | 0x4D => 256 * wide
  | 0x4E => 256 * wide
  | 0x4F => 256 * wide
  | 0x53 => 512
  | 0x54 => 1024
  | 0x55 => 1024
  | 0x56 => 1024
  | 0x57 => 1024
  | 0x58 => 64
  | 0x5A => 512
  | 0x5B => 512
  | _ => 256

/-- The price of a phase in symbols. -/
def price (s : State) : PhaseKind → Nat
  | .plane r => max r 123
  | .planeLoad => 123
  | .written => 32
  | .hbm share n bytes => s.num 0x2010_05 + byteSymbols (n * max bytes 256) (1100 * shareOf s share) 320
  | .storedTile share bytes =>
    s.num 0x2010_05 + max (byteSymbols bytes (1100 * shareOf s share) 320) (byteSymbols bytes 1024 1)
  | .handleVisible => 64
  | .drain _ bytes => 128 + byteSymbols bytes 512 1
  | .merge m n => mergeSymbols m n
  | .reducePair m n => 64 + byteSymbols (n * reduceBytes m) 512 1
  | .reduceFabric m n => s.num 0x2010_07 + byteSymbols (n * reduceBytes m) 128 1
  | .reduceGang m n hops span _ _ => hopSymbols s hops span + peerSymbols s 1 (n * reduceBytes m) + mergeSymbols m n
  | .peer hops span bytes _ _ => hopSymbols s hops span + peerSymbols s 2 bytes
  | .vector n op bf16 => ceilDiv (16 * 100 * (64 + ceilDiv n (vectorRate op bf16))) 199

/-! ### Reservations (R269, R270) -/

def Reservation.begins (r : Reservation) : Nat := r.frame * frameSymbols + r.start
def Reservation.ends (r : Reservation) : Nat := r.begins + r.length

/-- A reservation cut at frame boundaries: at most one piece for each frame of its length and two more. -/
def cutPieces (e cls task kind : Nat) : Nat → Nat → Nat → List Reservation
  | 0, _, _ => []
  | k + 1, at_, len =>
    if len = 0 then [] else
    let room := frameSymbols - at_ % frameSymbols
    let n := min len room
    { frame := at_ / frameSymbols, engine := e, cls := cls, task := task, start := at_ % frameSymbols, length := n,
      kind := kind } :: cutPieces e cls task kind k (at_ + n) (len - n)

def cutFrames (e cls task kind at_ len : Nat) : List Reservation :=
  cutPieces e cls task kind (len / frameSymbols + 2) at_ len

/-- Symbols reserved on an engine in a frame by a class. -/
def reservedIn (tables : List Reservation) (e frame cls : Nat) : Nat :=
  (tables.filter fun r => r.engine == e && r.frame == frame && r.cls == cls).foldl (fun a r => a + r.length) 0

/-- The slot cap of a facet in a frame in percent (R526). -/
def slotCapOf (s : State) (frame f : Nat) : Nat :=
  match s.power.slotCaps.find? fun c => c.1 == (frame, f) with
  | some c => c.2
  | none => 100

/-- The symbols of one frame of an engine that a class may reserve: on a facet the slot reserve (R270) and an enforced
cap (R525) limit stream class, a slot cap (R526) limits slot class. -/
def classLimit (s : State) (e frame cls : Nat) : Nat :=
  if 32 ≤ e then frameSymbols
  else if cls = 0 then frameSymbols * slotCapOf s frame e / 100
  else frameSymbols * min (100 - s.num 0x2100_02) (s.num (fam 0x8410_02 e)) / 100

/-- The earliest start at or after `t` at which `len` symbols are free between the busy intervals, ascending. -/
def firstGap : List (Nat × Nat) → Nat → Nat → Nat
  | [], t, _ => t
  | (b, e) :: l, t, len => if t + len ≤ b then t else firstGap l (if t < e then e else t) len

/-- The symbols that a class may still reserve on an engine in a frame. -/
def classRoom (s : State) (tables : List Reservation) (e frame cls : Nat) : Nat :=
  classLimit s e frame cls - reservedIn tables e frame cls

/-- The end of every reservation of an engine, and of `t`. -/
def allEnded (tables : List Reservation) (e t : Nat) : Nat :=
  (tables.filter fun r => r.engine == e).foldl (fun a r => max a r.ends) t

/-- Reservations of `len` symbols of an engine, without a gap (log entry 83), at the earliest free symbols at or after `t`
that the frame limits allow, with their end. Where a frame has too little room left for its piece, the symbols begin no
earlier than in the last symbols of that frame that the class may have. -/
def place (s : State) (tables : List Reservation) (e cls task kind len : Nat) : Nat → Nat → List Reservation × Nat
  | 0, t =>
    let t := allEnded tables e t
    (cutFrames e cls task kind t len, t + len)
  | k + 1, t =>
    let busy := ((tables.filter fun r => r.engine == e).map fun r => (r.begins, r.ends)).mergeSort fun a b => a.1 ≤ b.1
    let at_ := firstGap busy t len
    let rs := cutFrames e cls task kind at_ len
    match rs.find? fun r => classRoom s tables e r.frame cls < r.length with
    | none => (rs, at_ + len)
    | some r => place s tables e cls task kind len k ((r.frame + 1) * frameSymbols - classRoom s tables e r.frame cls)

/-- The tries of `place`: two for each frame that the horizon can hold (R289), and two more. -/
def placeTries : Nat := 130

def clsCode : Cls → Nat
  | .slot => 0
  | .stream => 1
  | .fill => 2

/-! ### Engines in service (R282, R345) -/

/-- A facet that may take work: in service, and not HELD (R345). -/
def facetFit (s : State) (f : Nat) : Bool := s.facetUp f && !(s.facets[f]?).any fun x => x.lock == .held

/-- A fetch engine or another unit that may take work: the fetch engine of a pair while the pair or its stack is in service. -/
def engineFit (s : State) (e : Nat) : Bool :=
  if e < 32 then facetFit s e else if e < 64 then s.unitUp 6 (e - 32)
  else if e < 72 then s.unitUp 2 (e - 64) || s.unitUp 3 (e - 64) else true

/-- The engines that a graph's work runs on. -/
def graphEngines (g : TaskGraph) : List Nat := (g.engines ++ g.phases.filterMap fun p => p.engine).dedup

/-- Station f can do what some engines' work asks of station `of`. -/
def stationFit (s : State) (es : List Nat) (of f : Nat) : Bool :=
  (!es.contains of || engineFit s f) && (!es.contains (32 + of) || engineFit s (32 + f))

/-- Stations that stand in for those out of service (R136, R282): for each the lowest of its pair that has no work of the graph
(log entry 131). -/
def standIns (s : State) (es : List Nat) : List Nat → List (Nat × Nat) → List (Nat × Nat)
  | [], m => m
  | f :: fs, m =>
    if stationFit s es f f then standIns s es fs m else
    match ((List.range 4).map (4 * (f / 4) + ·)).find? fun g =>
        !es.contains g && !es.contains (32 + g) && !m.any (fun p => p.2 == g) && stationFit s es f g with
    | some g => standIns s es fs (m ++ [(f, g)])
    | none => standIns s es fs m

/-- The engine that takes the work of another under such a map. -/
def engineOn (m : List (Nat × Nat)) (e : Nat) : Nat :=
  if 64 ≤ e then e else match m.find? fun p => p.1 == e % 32 with
    | some (_, g) => e - e % 32 + g
    | none => e

/-- A receiver under such a map; that of a store jig names the station in its queue number (log entry 21). -/
def receiverOn (m : List (Nat × Nat)) (eic : Nat) (r : Nat × Nat) : Nat × Nat :=
  if r.1 < 64 ∨ r.1 = 0x48 then (engineOn m r.1, r.2)
  else
    let pair := if r.1 < 72 then r.1 - 64 else eic
    (r.1, 32 * (engineOn m (4 * pair + r.2 / 32 % 4) % 4) + r.2 % 32)

def phaseOn (m : List (Nat × Nat)) (p : Phase) : Phase := { p with engine := p.engine.map (engineOn m) }

/-- A graph with its work on other engines: positions and ordinals stay as they are (R136). -/
def moveGraph (g : TaskGraph) (m : List (Nat × Nat)) : TaskGraph :=
  if m.isEmpty then g else
  { g with
    phases := g.phases.map (phaseOn m), altA := g.altA.map (phaseOn m), altB := g.altB.map (phaseOn m)
    engines := g.engines.map (engineOn m)
    streams := g.streams.map fun d => { d with producer := engineOn m d.producer, receivers := d.receivers.map (receiverOn m d.eic) }
    tiles := g.tiles.map fun t => { t with
      cmds := t.cmds.map fun c => (⟨engineOn m c.1.val % 64, Nat.mod_lt _ (by decide)⟩, c.2) } }

/-- A graph on the engines in service. -/
def graphOn (s : State) (g : TaskGraph) : TaskGraph :=
  let es := graphEngines g
  moveGraph g (standIns s es ((es.filter fun e => e < 64).map fun e => e % 32).dedup [])

/-- Every engine of a graph may take work. -/
def enginesReady (s : State) (g : TaskGraph) : Bool := (graphEngines g).all (engineFit s)

/-! ### Placing phases (R272, R273) -/

def predsAt (phs : List Phase) (i : Nat) : List Nat := ((phs[i]?).map fun p => p.preds).getD []

/-- The phases that some phases wait for, with these: going back stops at a phase of `stop`, and a phase of `cut` is left out. -/
def reachBack (phs : List Phase) (stop cut : Nat → Bool) : Nat → List Nat → List Nat
  | 0, l => l
  | j + 1, l =>
    if !l.contains j && !cut j && l.any fun k => !stop k && (predsAt phs k).contains j then reachBack phs stop cut j (j :: l)
    else reachBack phs stop cut j l

/-- A phase and all that it waits for. -/
def ancestors (phs : List Phase) (i : Nat) : List Nat := reachBack phs (fun _ => false) (fun _ => false) i [i]

def PhaseKind.isDrain : PhaseKind → Bool
  | .drain _ _ => true
  | _ => false

/-- The root drain of an integer-mode tile, which may be repeated (R121). -/
def PhaseKind.repeats : PhaseKind → Bool
  | .drain .integer _ => true
  | _ => false

def PhaseKind.isVector : PhaseKind → Bool
  | .vector _ _ _ => true
  | _ => false

def PhaseKind.isFetch : PhaseKind → Bool
  | .hbm _ _ _ => true
  | .storedTile _ _ => true
  | .peer _ _ _ _ _ => true
  | _ => false

def kindAt (phs : List Phase) (i : Nat) (p : PhaseKind → Bool) : Bool := (phs[i]?).any fun q => p q.kind

/-- A phase is the push of a tile or of a vector operation's result. -/
def isPush (phs : List Phase) (i : Nat) : Bool :=
  (phs[i]?).any fun q => q.kind == .handleVisible
    && q.preds.any fun j => kindAt phs j PhaseKind.isDrain || kindAt phs j PhaseKind.isVector

/-- What a repeat of a tile prices, less its push (R273): every phase from the fetch of the tile's inputs to its root drain; an input
that an earlier tile or a vector operation gave is there already (log entry 132). -/
def blockOf (phs : List Phase) (d : Nat) : List Nat :=
  reachBack phs (fun k => kindAt phs k PhaseKind.isFetch)
    (fun k => kindAt phs k PhaseKind.isDrain || kindAt phs k PhaseKind.isVector || isPush phs k) d [d]

/-- Root drains that are repeated together: those of tiles that share a phase of their repeats, as facets do that work in parallel
on one fetch, but no two of which one waits for the other (log entry 132). -/
def repeatGroups (phs : List Phase) : List Nat → List (List Nat) → List (List Nat)
  | [], gs => gs
  | d :: ds, gs =>
    let b := blockOf phs d
    let up := ancestors phs d
    let joins := fun (g : List Nat) => g.any (fun e => (blockOf phs e).any b.contains) && !g.any up.contains
    repeatGroups phs ds ((gs.filter fun g => !joins g) ++ [(gs.filter joins).flatten ++ [d]])

/-- What a task's phases take: the end of each so far, the newest first, the pieces and the reservations. -/
structure Placed where
  ends : List (Nat × Nat)
  items : List PlacedItem
  made : List Reservation
  deriving DecidableEq, Repr

/-- The end of a phase placed before; `t` where it has not been. -/
def endAt (ends : List (Nat × Nat)) (t i : Nat) : Nat := ((ends.find? fun e => e.1 == i).map Prod.snd).getD t

/-- Work of `len` symbols on an engine, or a pure latency, which takes no reservation, not before `ready`. -/
def placeItem (s : State) (tables : List Reservation) (cls task kind i len : Nat) (engine : Option Nat) (ready : Nat) (p : Placed) :
    Placed :=
  match engine with
  | none =>
    { p with ends := (i, ready + len) :: p.ends
             items := p.items ++ [{ phase := i, engine := none, kind := kind, begins := ready, ends := ready + len }] }
  | some e =>
    let (rs, fin) := place s (tables ++ p.made) e cls task kind len placeTries ready
    { ends := (i, fin) :: p.ends
      items := p.items ++ [{ phase := i, engine := some e, kind := kind, begins := fin - len, ends := fin }]
      made := p.made ++ rs }

/-- Traffic between devices (R461): its latency, the table of its channel with the symbols of its bytes there, and what follows its
last byte. -/
def wireOf (s : State) : PhaseKind → Option (Nat × Nat × Nat × Nat)
  | .reduceGang m n hops span port inward =>
    some (hopSymbols s hops span, chanTable port inward 1, peerSymbols s 1 (n * reduceBytes m), mergeSymbols m n)
  | .peer hops span bytes port inward => some (hopSymbols s hops span, chanTable port inward 2, peerSymbols s 2 bytes, 0)
  | _ => none

/-- One phase placed after the phases it waits for and not before `from_` (R272). The bytes of traffic between devices are reserved in
the table of its channel, and on the engine that moves them (R461). -/
def placePhase (s : State) (tables : List Reservation) (cls task from_ kind : Nat) (phs : List Phase) (i : Nat) (p : Placed) :
    Placed :=
  match phs[i]? with
  | none => p
  | some ph =>
    let ready := ph.preds.foldl (fun a j => max a (endAt p.ends from_ j)) from_
    match wireOf s ph.kind with
    | none => placeItem s tables cls task kind i (price s ph.kind) ph.engine ready p
    | some (latency, e, len, after) =>
      let p := placeItem s tables cls task kind i latency none ready p
      let p := placeItem s tables cls task kind i len (some e) (ready + latency) p
      let fin := endAt p.ends from_ i
      let q := if ph.engine.isSome then placeItem s tables cls task kind i len ph.engine (fin - len) p else p
      placeItem s tables cls task kind i after none (max fin (endAt q.ends from_ i)) q

/-- The phases of a repeat placed n times in turn, each time from the end of the time before (R273). -/
def placeRepeat (s : State) (tables : List Reservation) (cls task : Nat) (phs : List Phase) (block : List Nat) :
    Nat → Nat → Placed → Placed
  | 0, _, p => p
  | n + 1, from_, p =>
    let q := block.foldl (fun q i => placePhase s tables cls task from_ 1 phs i q) p
    placeRepeat s tables cls task phs block n ((q.items.drop p.items.length).foldl (fun a x => max a x.ends) from_) q

/-- The repeats of a group of tiles from the end of its root drains: what they fetch, run, drain and push, as often as 3400h.01 allows.
Only the drains and the pushes end with the last repeat: nothing else waits for it. -/
def placeGroup (s : State) (tables : List Reservation) (cls task start : Nat) (phs : List Phase) (group : List Nat) (p : Placed) :
    Placed :=
  let inner := ((group.map (blockOf phs)).flatten).dedup
  let pushes := (List.range phs.length).filter fun i => isPush phs i && (predsAt phs i).any group.contains
  let from_ := group.foldl (fun a d => max a (endAt p.ends start d)) start
  let q := placeRepeat s tables cls task phs ((List.range phs.length).filter fun i => inner.contains i || pushes.contains i)
    (s.num 0x3400_01) from_ p
  { q with ends := (q.ends.filter fun e => group.contains e.1 || pushes.contains e.1) ++ p.ends }

/-- The phases placed in the order of their numbers, each once all that it waits for has been, and each group of repeats as soon as
all its root drains have been. `gs`: the groups still to be repeated; a group of which one drain waits for another's repeat is
divided. -/
def placeRest (s : State) (tables : List Reservation) (cls task start : Nat) (phs : List Phase) :
    Nat → List (List Nat) → Placed → Placed
  | 0, _, p => p
  | k + 1, gs, p =>
    let done := fun (i : Nat) => p.ends.any fun e => e.1 == i
    let held := fun (i : Nat) => gs.any fun g => g.contains i
    match (List.range phs.length).find? fun i => !done i && (predsAt phs i).all fun j => done j && !held j with
    | some i => placeRest s tables cls task start phs k gs (placePhase s tables cls task start 0 phs i p)
    | none =>
      match (gs.find? fun g => g.all done).or ((gs.map fun g => g.filter done).find? fun g => !g.isEmpty) with
      | none => p
      | some g =>
        placeRest s tables cls task start phs k ((gs.map fun h => h.filter fun d => !g.contains d).filter fun h => !h.isEmpty)
          (placeGroup s tables cls task start phs g p)

/-- A graph's phases placed from a symbol. -/
def placePhases (s : State) (tables : List Reservation) (cls task start : Nat) (phs : List Phase) : Placed :=
  let gs := if s.num 0x3400_01 = 0 then [] else
    repeatGroups phs ((List.range phs.length).filter fun i => kindAt phs i PhaseKind.repeats) []
  placeRest s tables cls task start phs (2 * phs.length) gs { ends := [], items := [], made := [] }

/-! ### The critical path (R275) -/

/-- The last end of a phase's pieces. -/
def itemEnd (items : List PlacedItem) (t i : Nat) : Nat := (items.filter fun x => x.phase == i).foldl (fun a x => max a x.ends) t

/-- The first of some phases with the last end. -/
def latest (items : List PlacedItem) : List Nat → Option Nat
  | [] => none
  | i :: l => match latest items l with
    | none => some i
    | some j => if itemEnd items 0 j ≤ itemEnd items 0 i then some i else some j

/-- The longest dependency path back from a phase: each time the phase waited for that ends last. -/
def chainOf (phs : List Phase) (items : List PlacedItem) : Nat → Nat → List Nat
  | 0, i => [i]
  | k + 1, i => match latest items (predsAt phs i) with
    | none => [i]
    | some j => chainOf phs items k j ++ [i]

def facetsOf (phs : List Phase) (is : List Nat) : List Nat :=
  (is.filterMap fun i => ((phs[i]?).bind fun p => p.engine)).filter (fun e => e < 32) |>.dedup

/-- The facets of the critical path: those of the longest dependency path in series, each with the facets off it that work in
parallel with it: those of phases of which none waits for a phase of its own, nor the other way about (log entry 133). -/
def critPath (phs : List Phase) (items : List PlacedItem) : List (List Nat) :=
  match latest items (List.range phs.length) with
  | none => []
  | some last =>
    let chain := chainOf phs items phs.length last
    let series := facetsOf phs chain
    series.map fun f =>
      let mine := chain.filter fun i => (phs[i]?).any fun p => p.engine == some f
      let apart := fun (i : Nat) => mine.any fun j => !(ancestors phs i).contains j && !(ancestors phs j).contains i
      f :: (facetsOf phs ((List.range phs.length).filter apart)).filter fun g => !series.contains g

/-! ### Allowances and certificates (R274, R275) -/

/-- Symbols of the allowance of facet f in a frame for a task: re-issues, localisation and the retry allowance over the
facet's reservations that start no later than the end of the task's last one. -/
def allowSymbols (s : State) (tables : List Reservation) (task f frame : Nat) : Nat :=
  let mine := tables.filter fun r => r.engine == f && r.frame == frame
  let last := (mine.filter fun r => r.task == task).foldl (fun a r => max a r.ends) 0
  let w := (mine.filter fun r => last = 0 || r.begins ≤ last).foldl (fun a r => a + r.length) 0
  147 + 147 + s.num 0x2010_02 + ceilDiv (s.num 0x2010_01 * w) 1000000

/-- The frame allowance of a critical path: facets in parallel once as the largest, facets in series each; symbols and
ticks. -/
def pathAllow (s : State) (tables : List Reservation) (task frame : Nat) (path : List (List Nat)) : Nat × Nat :=
  path.foldl (fun (a : Nat × Nat) fs =>
    if fs.isEmpty then a else
      (a.1 + fs.foldl (fun m f => max m (allowSymbols s tables task f frame)) 0,
       a.2 + s.num 0x2010_03 + s.num 0x2010_04)) (0, 0)

/-- The certificate from a start tick, its nominal symbols and the frames counted so far; frames are added until the
interval reaches no further one, or one so far off that R18 orders no stamp of it. -/
def certLoop (s : State) (tables : List Reservation) (task start nominal : Nat) (path : List (List Nat)) :
    Nat → Nat → Nat × Nat → Nat
  | 0, _, (y, t) => start + ticksOf (nominal + y) + t
  | k + 1, frame, (y, t) =>
    let fin := start + ticksOf (nominal + y) + t
    if frame * frameTicks < fin then
      let (a, b) := pathAllow s tables task frame path
      certLoop s tables task start nominal path k (frame + 1) (y + a, t + b)
    else fin

/-- The certificate of work that starts at a tick and ends nominally at an absolute symbol. -/
def certOf (s : State) (tables : List Reservation) (task start endSym : Nat) (path : List (List Nat)) : Nat :=
  certLoop s tables task start (endSym - symbolOf start) path 33554432 (start / frameTicks) (0, 0)

/-- A certificate is no later than a bound (R18, R276). -/
def State.meets (s : State) (cert bound : Nat) : Bool :=
  decide (cert < s.now + stampPeriod / 2) && !stampBefore bound cert

/-- The start of R271 for work admitted now. -/
def startTick (s : State) : Nat := ceilDiv (s.now + s.num 0x2010_06) 6 * 6

/-- What admission finds for the priced work of a task bound by a stamp. -/
structure Plan where
  start : Nat
  made : List Reservation
  items : List PlacedItem
  path : List (List Nat)
  cert : Nat
  /-- The frame of the last reservation. -/
  lastFrame : Nat
  /-- The worst-case stamps of the checkpoints (R282). -/
  checks : List (Nat × Nat)
  deriving DecidableEq, Repr

/-- The plan of work placed from a start tick: its certificate, and for each checkpoint that of the work up to its phase (R275, R282). -/
def planFrom (s : State) (tables : List Reservation) (task start : Nat) (phs : List Phase) (checkpoints : List (Nat × Nat))
    (items : List PlacedItem) (made : List Reservation) : Plan :=
  let path := critPath phs items
  let certAt := fun (sym : Nat) => certOf s (tables ++ made) task start sym path
  { start := start, made := made, items := items, path := path,
    cert := certAt (items.foldl (fun a x => max a x.ends) (symbolOf start)),
    lastFrame := made.foldl (fun a r => max a r.frame) (start / frameTicks),
    checks := checkpoints.map fun c => (c.1, certAt (itemEnd items (symbolOf start) c.2)) }

/-- Phases placed from a start tick (R272, R278 steps 5 and 6). -/
def planOf (s : State) (tables : List Reservation) (cls : Cls) (task start : Nat) (phs : List Phase) (checkpoints : List (Nat × Nat)) :
    Plan :=
  let p := placePhases s tables (clsCode cls) task (symbolOf start) phs
  planFrom s tables task start phs checkpoints p.items p.made

/-- The plan of a task graph from a start tick. -/
def graphPlan (s : State) (tables : List Reservation) (cls : Cls) (start : Nat) (g : TaskGraph) : Plan :=
  planOf s tables cls g.task start g.phases g.checkpoints

/-- Every reservation of a plan lies in the horizon (R270). -/
def inHorizon (s : State) (p : Plan) : Bool := p.lastFrame < s.now / frameTicks + s.num 0x2100_01

/-- The bound of a task (R268, R296): the deadline; FIRST_TARGET after the request's base for the first token or the result;
TOKEN_TARGET for a later token. -/
def boundOf (r : Request) : Cls → Nat
  | .slot => r.deadline
  | _ => (r.targetBase + (if r.nextIndex = 0 then r.hdr 40 4 else r.hdr 44 4)) % stampPeriod

/-- Tables without a task's reservations. -/
def withoutTask (tables : List Reservation) (n : Nat) : List Reservation := tables.filter fun r => r.task != n

/-- Frames of the counter's full period (R16). -/
def framesPeriod : Nat := 65536 * 1024

/-- The counter has come round to 0: reservations ahead lie in the frames of the new period, those behind are over. -/
def wrapTables (tables : List Reservation) : List Reservation :=
  (tables.filter fun r => framesPeriod ≤ r.frame).map fun r => { r with frame := r.frame - framesPeriod }

end Sys2Proof.Machine
end

