-- ==== Sys2Proof/Machine/FacetOps.lean ====
section
/-! DEFINITION. FacetOps.lean: a facet's row map, codes and verdicts, accumulator slots, the issue of symbols, stops and
restarts (R44-R74, R112-R117, R137-R139), as shared operations. -/

namespace Sys2Proof.Machine

def facetN (s : State) (f : Nat) : Facet := (s.facets[f]?).getD Facet.start

def modFacet (s : State) (f : Nat) (g : Facet → Facet) : State :=
  match s.facets[f]? with
  | some x => { s with facets := s.facets.setIfInBounds f (g x) }
  | none => s

def engineN (s : State) (e : Nat) : Engine := (s.engines[e]?).getD Engine.start

def modEngine (s : State) (e : Nat) (g : Engine → Engine) : State :=
  match s.engines[e]? with
  | some x => { s with engines := s.engines.setIfInBounds e (g x) }
  | none => s

/-- The queue of a class itself (R146). -/
def Engine.own (x : Engine) (prio : Bool) : CmdQueue := if prio then x.prio else x.fill

def Engine.reps (x : Engine) (prio : Bool) : List CmdQueue := if prio then x.prioReps else x.fillReps

def Engine.withOwn (x : Engine) (prio : Bool) (q : CmdQueue) : Engine := if prio then { x with prio := q } else { x with fill := q }

/-- The commands of repeats; one whose last command has left it is over. -/
def Engine.withReps (x : Engine) (prio : Bool) (l : List CmdQueue) : Engine :=
  let l := l.filter fun q => !q.cmds.isEmpty
  if prio then { x with prioReps := l } else { x with fillReps := l }

/-- The commands that the engine takes next on the side of a class: those of the oldest repeat, which go ahead of the queue's
(R120; log entry 96), else the queue's. -/
def Engine.queue (x : Engine) (prio : Bool) : CmdQueue := ((x.reps prio).head?).getD (x.own prio)

/-- A change of those commands. -/
def Engine.mapFront (x : Engine) (prio : Bool) (g : CmdQueue → CmdQueue) : Engine :=
  match x.reps prio with
  | [] => x.withOwn prio (g (x.own prio))
  | q :: l => x.withReps prio (g q :: l)

/-- A change of all commands of a class. -/
def Engine.mapAll (x : Engine) (prio : Bool) (g : CmdQueue → CmdQueue) : Engine :=
  (x.withOwn prio (g (x.own prio))).withReps prio ((x.reps prio).map g)

def modQueue (s : State) (e : Nat) (prio : Bool) (g : CmdQueue → CmdQueue) : State := modEngine s e fun x => x.mapFront prio g

/-- The commands waiting on one side, those of repeats among them. -/
def Engine.depth (x : Engine) (prio : Bool) : Nat := (x.reps prio).foldl (fun n q => n + q.cmds.length) (x.own prio).cmds.length

/-- The step of the repeat that the commands belong to (R120); 0 for the queue itself. -/
def CmdQueue.scale (q : CmdQueue) : Nat := (q.repeats.map Prod.snd).getD 0

/-! ### The row map (R51, R79) -/

def noRow : Nat := 0x3FF

/-- The factory map (R51). -/
def factoryRow (p : Nat) : RowEntry :=
  if p < 516 then { logical := p, role := .inUse, cal := false } else { logical := noRow, role := .idleSpare, cal := false }

def rowAt (x : Facet) (p : Nat) : RowEntry := sparseGet factoryRow x.rowMap p

def setRow (x : Facet) (p : Nat) (e : RowEntry) : Facet := { x with rowMap := sparsePut factoryRow x.rowMap p e }

def findRow (x : Facet) (g : RowEntry → Bool) : Option Nat := (List.range 520).find? fun p => g (rowAt x p)

/-- The entry of a physical row in the map that the load of the plane in the rings went through (R52). -/
def ringRow (x : Facet) (p : Nat) : RowEntry := sparseGet factoryRow x.ringMap p

/-- The physical row whose code counts for a logical row: the row that the load of the active plane gave it, its stand-in where
that load knew one (R52, R351). -/
def carrier (x : Facet) (r : Nat) : Option Nat :=
  ((List.range 520).find? fun p => (ringRow x p).logical == r && (ringRow x p).role == .standingIn).or
    ((List.range 520).find? fun p => (ringRow x p).logical == r && (ringRow x p).role == .inUse)

/-- A physical row's codes count for a logical row. -/
def carries (x : Facet) (p : Nat) : Bool := (ringRow x p).logical < 516 && carrier x (ringRow x p).logical == some p

/-- A changed map waits for a shadow load (R351). -/
def CalRun.pending (c : CalRun) : Bool := c.standIn.isSome && c.inEffect == c.returning

def CalRun.arm (c : CalRun) : CalRun := if c.pending then { c with armed := true } else c

def CalRun.reach (c : CalRun) : Option CalRun :=
  if !c.armed then some c else if c.returning then none else some { c with armed := false, inEffect := true }

/-- A shadow load begins: it goes through the map as it now stands (R52). -/
def calArm (x : Facet) : Facet :=
  let cal := x.optic.cal.map CalRun.arm
  { x with optic := { x.optic with cal := cal }, shadowMap := x.rowMap }

/-- The loaded plane reaches the rings, and with it a change of the map that the load went through (R52, R351). -/
def calReach (x : Facet) : Facet :=
  let cal := x.optic.cal.bind CalRun.reach
  { x with optic := { x.optic with cal := cal }, ringMap := x.shadowMap }

/-- Free and fit spares: idle or standing in (R51, R55). -/
def freeSpares (x : Facet) : Nat :=
  ((List.range 520).filter fun p => (rowAt x p).role == .idleSpare || (rowAt x p).role == .standingIn).length

def lowestIdle (x : Facet) : Option Nat := findRow x fun e => e.role == .idleSpare

def roleCode : Role → Nat
  | .inUse => 0
  | .idleSpare => 1
  | .standingIn => 2
  | .retired => 3
  | .unfit => 4

/-- ROW_MAP (R79). -/
def rowMapBytes (x : Facet) : Bytes :=
  ((List.range 520).map fun p =>
    let e := rowAt x p
    leBytes 2 (e.logical + roleCode e.role * 2 ^ 10 + (if e.cal then 2 ^ 13 else 0))).flatten

/-- The row map saved before the run resumes (R79, R440). -/
def saveRowMap (s : State) (f : Nat) : State :=
  (s.setBlob (fam 0x3200_01 f) (rowMapBytes (facetN s f))).save (fam 0x3200_01 f)

/-! ### Events of a facet (R80) -/

/-- An event with the physical and logical row, the syndromes and the stamp of the failed symbol, `at_` on the counter. -/
def facetEvent (s : State) (f code phys logical synd at_ : Nat) : State :=
  s.raise code f (leBytes 2 phys ++ leBytes 2 logical ++ leBytes 2 synd ++ leBytes 8 (stamp64 at_))

/-- SPARES_LOW where FREE_SPARES has fallen from `before` to 1 by a change of row p (R80). -/
def sparesLow (s : State) (f before p logical synd at_ : Nat) : State :=
  if 1 < before ∧ freeSpares (facetN s f) = 1 then facetEvent s f 0x3012 p logical synd at_ else s

/-! ### Planes -/

/-- A plane named by SRC_KIND and SRC (R152, R154). -/
def Plane.named (p : Plane) (kind src : Nat) : Bool := p.id.kind == kind && p.id.src == src && !p.id.zero

/-- The plane of an identity that the rings hold or held last. -/
def planeOf (x : Facet) (id : PlaneId) : Plane :=
  if x.active.id = id then x.active
  else match x.flippedOut with
    | some p => if p.id = id then p else x.active
    | none => x.active

/-- The identity that a record must carry (R102). -/
def PlaneId.recId (p : PlaneId) : RecId :=
  { context := p.context, copy := p.copy, operand := p.operand, format := p.format, rowTile := p.rowTile,
    chunk := p.chunk, trit := p.trit }

/-! ### Codes and verdicts (R45-R49, R61) -/

/-- The exact codes of logical rows 0-515 for a plane and the digits of the lanes (R45). -/
def exactCodes (p : Plane) (digits : List Nat) : List Int :=
  if p.id.zero then List.replicate 516 0
  else (List.range 516).map fun r => dot digits (recTrits p.bytes r)

/-- A 10-bit pass code (R47). What the converter returns for a sum outside 10 bits the manual does not say: the nearer end of
the range (DESIGN CHOICE, log entry 87). -/
def clampCode (v : Int) : Int := max (-512) (min 511 v)

/-- The codes that an optical attempt returns, given the deviations of physical rows. -/
def attemptCodes (x : Facet) (exact : List Int) (errors : List (Nat × Int)) : List Int :=
  exact.zipIdx.map fun c =>
    match carrier x c.2 with
    | none => c.1
    | some p => clampCode (c.1 + ((errors.filter fun e => e.1 == p).map fun e => e.2).foldl (· + ·) 0)

/-- The check of R61 and R48: the syndromes and whether any row has a range fault. -/
structure Verdict where
  d1 : Nat
  d2 : Nat
  ranges : Nat
  deriving DecidableEq, Repr

def verdictOf (codes : List Int) : Verdict :=
  let p := codes.take 512
  let g := fun i => codes.getD (512 + i) 0
  let s1 := p.foldl (· + ·) 0 - g 0 - 3 * g 1
  let s2 := (p.zipIdx.map fun c => girdleWeight c.2 * c.1).foldl (· + ·) 0 - g 2 - 3 * g 3
  { d1 := (s1 % 9).toNat, d2 := (s2 % 9).toNat, ranges := (codes.filter fun c => decide (384 < c.natAbs)).length }

def Verdict.accepted (v : Verdict) : Bool := v.d1 == 0 && v.d2 == 0 && v.ranges == 0

/-- LAST_SYNDROME (R78). -/
def Verdict.word (v : Verdict) : Nat := v.d1 + v.d2 * 16 + (if v.ranges = 0 then 0 else 256)

/-- The syndromes of a failed symbol, from the codes of its last attempt. -/
def symWord (x : Facet) (y : Sym) : Nat :=
  let exact := exactCodes (planeOf x y.plane) y.digits
  (verdictOf (exact.zipIdx.map fun c => ((y.bad.find? fun b => b.1 == c.2).map Prod.snd).getD c.1)).word

/-! ### Slots (R112-R116, R149) -/

def freeMeta : SlotMeta :=
  { state := .free, mode := .integer, inTree := 0, owner := 0xFFFF, closing := false, part := false, rowTile := 0 }

def slotMeta (x : Facet) (b : Nat) : SlotMeta := sparseGet (fun _ => freeMeta) x.slots b

def setMeta (x : Facet) (b : Nat) (m : SlotMeta) : Facet := { x with slots := sparsePut (fun _ => freeMeta) x.slots b m }

/-- Slots that the entry of an element covers: one for a slot left over from an element of which another pass took some. -/
def SlotMeta.span (m : SlotMeta) : Nat := if m.part then 1 else modeSlots m.mode

/-- Elements that share a slot with [lo, lo + n). -/
def overlaps (x : Facet) (lo n : Nat) : List (Nat × SlotMeta) :=
  x.slots.filter fun e => decide (e.1 < lo + n) && decide (lo < e.1 + e.2.span)

/-- What the element that covers a slot index says: the state, the mode and the in-tree count of the index (R114). -/
def governing (x : Facet) (b : Nat) : SlotMeta :=
  match x.slots.find? fun e => e.1 ≤ b && b < e.1 + e.2.span with
  | some e => e.2
  | none => freeMeta

/-- The mode that a slot index has recorded, first slot of its element or not (R114). -/
def modeAt (x : Facet) (b : Nat) : Mode := (governing x b).mode

/-- Slots per element for a range that starts at a slot index (R157). -/
def slotsAt (x : Facet) (b : Nat) : Nat := modeSlots (modeAt x b)

/-- The elements of a range that starts at a slot, with g from the mode of that slot (R157). -/
def rangeOf (x : Facet) (base count : Nat) : List Nat := (List.range count).map fun i => base + slotsAt x base * i

/-- Two slot ranges meet. -/
def meets (a n b m : Nat) : Bool := decide (a < b + m) && decide (b < a + n)

/-- Work at a scale step of a task belongs to the repeat of a drain's tile (R120), whatever its operand. -/
def DrainJob.repeatedBy (d : DrainJob) (task scale : Nat) : Bool := d.scale != 0 && scale == d.scale && task == d.task

/-- A pass of a run repeats the tile of a drain (R120). -/
def repeats (d : DrainJob) (r : Run) : Bool := d.repeatedBy r.task r.scale

/-- The slots of a run's elements that it has still to address. -/
def Run.rangeLeft (r : Run) : Nat × Nat := (r.slotNext, modeSlots r.mode * (r.stop - r.next))

/-- The slots that a merge reads and writes: those of its run's mode where a run gives its elements. -/
def mergeSlots (x : Facet) (j : MergeJob) : Nat :=
  match j.run.bind fun k => x.runs.find? fun r => r.serial == k with
  | some r => modeSlots r.mode * j.count
  | none => slotsAt x j.bBase * j.count

/-- A merge addresses slots of [lo, lo + n). -/
def mergeMeets (x : Facet) (j : MergeJob) (lo n : Nat) : Bool :=
  meets j.aBase (mergeSlots x j) lo n || meets j.bBase (mergeSlots x j) lo n

/-- A drain, merge or reduce that has begun, or a merge of a PASS, reads or writes slots of [lo, lo + n) (R138, R155). -/
def beingRead (x : Facet) (lo n : Nat) : Bool :=
  x.drains.any (fun d => meets d.slotBase (slotsAt x d.slotBase * d.vectors) lo n)
    || x.merges.any (fun m => mergeMeets x m lo n)
    || x.reduces.any fun d => meets d.slotBase (slotsAt x d.slotBase * d.count) lo n

/-- The same as far as a first-flag pass of run r must wait for it: not for the merge of the run itself, nor for the drain whose
tile the run repeats (R120). -/
def readFirst (x : Facet) (r : Run) (lo n : Nat) : Bool :=
  beingRead { x with drains := x.drains.filter fun d => !repeats d r, merges := x.merges.filter fun m => m.run != some r.serial } lo n

/-- The in-tree counts of a range are 0 (R137, R138). -/
def rangeQuiet (x : Facet) (base count : Nat) : Bool :=
  (overlaps x base (slotsAt x base * count)).all fun e => e.2.inTree == 0

/-- Slots of [lo, lo + n) are read or written by a job that a merge or reduce of a task must wait for: any but a drain whose tile
the merge or reduce repeats at its scale step (R120, R138). -/
def readBefore (x : Facet) (task scale lo n : Nat) : Bool :=
  beingRead { x with drains := x.drains.filter fun d => !d.repeatedBy task scale } lo n

/-- The rule of R113 for a base and a count. -/
def rangeOk (g base count : Nat) : Bool := base % g == 0 && base + g * count ≤ 2048

/-- What R115, R116 and R149 say of a pass at its issue. -/
inductive SlotJudge
  | wait
  | bad (rule : Nat)
  | ok (x : Facet)

/-- An element's slots outside a new one become INVALID without owner; each keeps the mode it has recorded. -/
def splitInvalid (x : Facet) (b : Nat) (m : SlotMeta) (lo n : Nat) : Facet :=
  let x := setMeta x b freeMeta
  if m.state = .free then x else
  ((List.range m.span).map (b + ·)).foldl
    (fun x j => if j < lo || lo + n ≤ j then
        setMeta x j { freeMeta with state := .invalid, mode := m.mode, part := modeSlots m.mode != 1 }
      else x) x

/-- The judgement of the next pass of run r, on the element at its slot (R115, R149). An element becomes COMPLETE once its
last-flag pass has been written; a later pass is judged against that state. -/
def judgePass (x : Facet) (r : Run) : SlotJudge :=
  let b := r.slotNext
  let g := modeSlots r.mode
  if r.first then
    let ov := overlaps x b g
    if ov.any (fun e => e.2.inTree != 0) || readFirst x r b g then .wait
    else if ov.any fun e => e.2.state == .opened then .bad 115
    else if ov.any fun e => e.2.state == .complete && e.2.owner != r.task then .bad 149
    else
      let x := ov.foldl (fun x e => splitInvalid x e.1 e.2 b g) x
      let x := { x with drains := x.drains.map fun d => if repeats d r then { d with stale := d.stale.erase b } else d }
      .ok (setMeta x b { state := .opened, mode := r.mode, inTree := 1, owner := r.task, closing := r.last, part := false,
                         rowTile := r.plane.rowTile })
  else
    let m := slotMeta x b
    if m.state != .opened || m.closing || m.mode != r.mode then .bad 115
    else if m.owner != r.task then .bad 149
    else .ok (setMeta x b { m with inTree := m.inTree + 1, closing := r.last })

/-! ### Element contents (R112) -/

def accKey (row slot : Nat) : Nat := row * 2048 + slot

/-- The packed slots of one element in one row bank. -/
def accGet (x : Facet) (mode : Mode) (row slot : Nat) : Nat :=
  (List.range (modeSlots mode)).foldl (fun a i => a + sparseGet (fun _ => 0) x.acc (accKey row (slot + i)) * 2 ^ (40 * i)) 0

def accPut (x : Facet) (mode : Mode) (row slot v : Nat) : Facet :=
  let acc := (List.range (modeSlots mode)).foldl
    (fun a i => sparsePut (fun _ => 0) a (accKey row (slot + i)) (v / 2 ^ (40 * i) % 2 ^ 40)) x.acc
  { x with acc := acc }

def elemGet (x : Facet) (mode : Mode) (row slot : Nat) : Elem := Elem.unpack mode (accGet x mode row slot)

def elemPut (x : Facet) (mode : Mode) (row slot : Nat) (v : Elem) : Facet := accPut x mode row slot (v.pack mode)

/-- A scaled code written into its element in all 512 row banks (R117, R123). -/
def writeCode (x : Facet) (c : CodeWrite) : Facet :=
  (List.range 512).foldl (fun x r =>
    let term := c.terms.getD r 0
    elemPut x c.mode r c.slot
      (if c.first then elemStart c.mode (c.exps.getD r 0) term else elemAdd c.mode (elemGet x c.mode r c.slot) term)) x

/-! ### Runs and symbols -/

/-- A symbol's accepted codes on their way to the accumulators, offset correction included (R56, R117, R123). -/
def codeWriteOf (x : Facet) (y : Sym) (codes : List Int) : CodeWrite :=
  let p := planeOf x y.plane
  let scale : Int := 3 ^ y.trit * 4 ^ y.digit
  let corr := fun r => if y.digit = 0 && !p.id.zero then -(y.offset : Int) * recSum p.bytes r * 3 ^ y.trit else 0
  { slot := y.slot, mode := y.mode, first := y.first, last := y.last, task := y.task,
    terms := (List.range 512).map fun r => scale * codes.getD r 0 + corr r,
    exps := if y.mode = .integer then [] else
      (List.range 512).map fun r => (if p.id.zero then 0 else recExp p.bytes r) + y.ea }

/-- The digits of vector v for the run's digit index, lanes beyond the record's at 0 (R42, R104, R120). -/
def runDigits (r : Run) (p : Plane) (v : Nat) : List Nat :=
  let lanes := if p.id.zero then 128 else recField p.bytes 26 2
  ((tileVec r.aFormat r.tile v).zipIdx).map fun u =>
    if u.2 < lanes then digitOf (if r.scale = 0 then u.1 else scaledU r.aFormat r.scale u.1) r.digit else 0

/-- The symbol of the run's next vector, `num` in the order of issue. -/
def symOf (s : State) (r : Run) (p : Plane) (num : Nat) : Sym :=
  let v := r.next
  { run := r.serial, num := num, digits := runDigits r p v, plane := p.id, slot := r.slotNext, first := r.first, last := r.last,
    mode := r.mode, trit := p.id.trit, digit := r.digit, offset := fmtOffset r.aFormat,
    ea := tileExp r.aFormat r.tile r.tileVecs v, attempt := 1, bad := [], phys := [], stamp := s.now, task := r.task }

def Run.done (r : Run) : Bool := r.stop ≤ r.next

def outstanding (x : Facet) : Nat :=
  x.inflight.length + x.sweeps.length + x.reissue.length + (if x.confirm.isSome then 1 else 0)

/-- The run is held: a sweep, confirmation or swap reload is in progress (R66, R67). The sweep of a fill run that has been
preempted holds no priority run (R163). -/
def runHeld (x : Facet) : Bool :=
  x.sweeps.any (fun y => !x.preempted || x.runs.any fun r => r.serial == y.run && r.prio) || x.confirm.isSome || x.swapping

/-- A ring of a row in use is not locked on its own line with its identity confirmed (R75): it is in SUSPECT (R341), or a load
has put a row with a ring in HOLD into use. -/
def unlockedRow (x : Facet) : Bool :=
  x.optic.rings.any fun r => (r.2.loop != 2 || r.2.ident != 1) && carries x (r.1 / 128)

/-- Passes may be issued (R74, R75, R341). -/
def passesRun (x : Facet) : Bool :=
  x.lock == .locked && !x.dipping && !x.degraded && !x.optic.inPlace && !unlockedRow x

/-- The handles of a dowel queue that no run still has to pop (R153): a PASS takes its tile from the first of them. -/
def freeItems (s : State) (f q : Nat) : List QItem :=
  (queueAt s f q).filter fun i => !(facetN s f).runs.any fun r => r.popQ == some (q, i)

/-- The priority queue has a run to issue. -/
def prioRunning (x : Facet) : Bool := x.runs.any fun r => r.prio && !r.done

def headOf (s : State) (e : Nat) (prio : Bool) : Option (BitVec 128) := ((engineN s e).queue prio).cmds.head?

/-- The head of the priority queue is ready to issue a symbol or a flip (R163). -/
def prioReady (s : State) (f : Nat) : Bool :=
  let x := facetN s f
  prioRunning x ||
  match headOf s f true, ((engineN s f).queue true).binding with
  | some w, some _ =>
    let loaded := fun (g : Plane → Bool) => match x.shadow with
      | some h => h.loaded && g h.plane
      | none => false
    if cmdOp w = 0x03 then
      if flipZeroBit w then loaded fun p => p.id.zero && p.prio else loaded fun p => p.named (srcKind w) (srcField w)
    else cmdOp w == 0x10
      && (loaded (fun p => p.named (srcKind w) (srcField w)) || x.active.named (srcKind w) (srcField w))
      && !(freeItems s f (passInQ w)).isEmpty
  | _, _ => false

/-- The first run of a queue with symbols to issue; one that repeats a tile goes ahead of the next tile's, which waits for the
drain (R120, R138). -/
def queueRun (x : Facet) (prio : Bool) : Option Run :=
  let rs := x.runs.filter fun r => r.prio == prio && !r.done
  (rs.find? fun r => r.scale != 0).or rs.head?

/-- The run that may issue its next symbol: the priority queue's, else the fill queue's while the priority head is not ready and
the run is not preempted (R163). -/
def currentRun (s : State) (f : Nat) : Option Run :=
  let x := facetN s f
  match queueRun x true with
  | some r => some r
  | none => if x.preempted || prioReady s f then none else queueRun x false

def setRun (x : Facet) (r : Run) : Facet := { x with runs := x.runs.map fun q => if q.serial == r.serial then r else q }

/-- The symbols of 1,024 ticks, rounded down (R19). -/
def capInterval : Nat := 533333

/-- The present interval of 1,024 ticks, and the symbols that capped passes of facet f have issued in it (R525). -/
def capCount (s : State) (f : Nat) : Nat × Nat :=
  let w := s.now / 1024
  (w, if (facetN s f).capUse.1 = w then (facetN s f).capUse.2 else 0)

/-- A cap is enforced on facet f, and the run's task is of stream or fill class (R525). -/
def capped (s : State) (f : Nat) (r : Run) : Bool :=
  s.num (fam 0x8410_02 f) != 100 && s.tasks.any fun t => t.num == r.task && t.cls != .slot

/-- The interval's share of a capped run is used up (R525). -/
def capFull (s : State) (f : Nat) (r : Run) : Bool :=
  capped s f r && capInterval * s.num (fam 0x8410_02 f) ≤ 100 * (capCount s f).2

/-- A symbol of a capped run is counted. -/
def countCap (s : State) (f : Nat) (r : Run) (x : Facet) : Facet :=
  if capped s f r then { x with capUse := ((capCount s f).1, (capCount s f).2 + 1) } else x

/-- What one issue step comes to. -/
inductive IssueStep
  | none
  | error (run : Run) (rule : Nat)
  | malformed (run : Run)
  | next (s : State)

/-- The handle of a run's tile popped at its first symbol, where IN_POP is set; its buffer stays pinned (R153, R228). -/
def popInput (s : State) (f : Nat) (r : Run) : State × Run :=
  match r.popQ with
  | none => (s, r)
  | some (q, i) => (popItem s f q i, { r with popQ := none, hold := holdOf f q i })

/-- The PASS of a run whose last symbol has been issued is complete and leaves its queue (R153, R162, R178). -/
def endPass (s : State) (f : Nat) (r : Run) : State :=
  if !r.done then s else
  let out := fun (q : CmdQueue) =>
    if q.running == some r.serial then
      { q with cmds := q.cmds.drop 1, popped := q.popped + 1, waitAt := none, drainWait := none, running := none }
    else q
  (modEngine s f fun x => x.mapAll r.prio out).inc (fam 0x3700_02 f)

/-- The next symbol of the current run of facet f, or its pass skipped under R57. Only the vector that a symbol carries is
checked for malformed containers, as it is issued (R103; DESIGN CHOICE, log entry 88). -/
def issueStep (s : State) (f : Nat) : IssueStep :=
  let x := facetN s f
  if !passesRun x || runHeld x || x.restoring || !x.reissue.isEmpty || 24 ≤ x.inflight.length || 64 ≤ outstanding x then .none
  else
  match currentRun s f with
  | Option.none => .none
  | some r =>
    if x.active.id != r.plane || capFull s f r then .none else
    let lanes := if x.active.id.zero then 128 else recField x.active.bytes 26 2
    if !tileVecOk r.aFormat lanes (tileVec r.aFormat r.tile r.next) then .malformed r else
    match judgePass x r with
    | .wait => .none
    | .bad rule => .error r rule
    | .ok y =>
      let sym := symOf s r x.active x.nextSym
      let (s, r) := popInput (modFacet s f fun _ => countCap s f r { y with nextSym := y.nextSym + 1 }) f r
      let r := { r with next := r.next + 1, slotNext := r.slotNext + modeSlots r.mode }
      let s := endPass (modFacet s f fun x => setRun x r) f r
      if s.num 0x3000_01 = 1 && sym.digits.all (· == 0) then
        .next (touch ((modFacet s f fun x => { x with writes := x.writes ++ [codeWriteOf x sym (List.replicate 512 0)] }).inc
          (fam 0x3100_02 f)) r.task)
      else
        .next (touch ((modFacet s f fun x => { x with inflight := x.inflight ++ [sym] }).inc (fam 0x3100_01 f)) r.task)

/-! ### Releases (R64, R153) -/

/-- No symbol of a run is unjudged. -/
def runJudged (x : Facet) (serial : Nat) : Bool :=
  let m := fun (y : Sym) => y.run == serial
  !(x.inflight.any m || x.sweeps.any m || x.reissue.any m || x.confirm.any fun c => m c.sym)

/-- A plane that the queues or the rings still need (R64, R164). -/
def planeKept (x : Facet) (p : Plane) : Bool :=
  let m := fun (o : Option Plane) => match o with
    | some q => q.id == p.id
    | none => false
  x.active.id == p.id || m x.fillPlane || m x.fillPending || x.displaced.any (fun q => q.id == p.id)
    || m (x.shadow.map fun h => h.plane) || x.runs.any fun r => r.plane == p.id

/-- Runs whose every symbol has an accepted verdict end and release their tiles; a plane flipped out without unjudged
symbols is released. -/
def finishRuns (s : State) (f : Nat) : State :=
  let x := facetN s f
  let ended := x.runs.filter fun r => r.done && runJudged x r.serial
  let s := modFacet s f fun x => { x with runs := x.runs.filter fun r => !(r.done && runJudged x r.serial) }
  let s := ended.foldl (fun s r => releaseHold s r.hold) s
  let x := facetN s f
  match x.flippedOut with
  | none => s
  | some p =>
    let open_ := fun (y : Sym) => y.plane == p.id
    if x.inflight.any open_ || x.sweeps.any open_ || x.reissue.any open_ || x.confirm.any (fun c => open_ c.sym) then s
    else
      let s := modFacet s f fun x => { x with flippedOut := none }
      if planeKept (facetN s f) p then s else releaseHold s p.hold

/-! ### Stops and restarts (R74) -/

/-- A symbol among others in the order of issue (R71, R74). -/
def insertSym (y : Sym) : List Sym → List Sym
  | [] => [y]
  | z :: l => if y.num ≤ z.num then y :: z :: l else z :: insertSym y l

/-- A stop: the codes of every symbol issued but not yet accepted are discarded, those that wait for a sweep among them, and
the symbols are kept for re-issue in their order; the codes of a confirmation attempt are discarded alike. -/
def stopFacet (s : State) (f : Nat) : State :=
  modFacet s f fun x =>
    { x with reissue := (x.inflight ++ x.sweeps).foldl (fun l y => insertSym { y with bad := [], phys := [] } l) x.reissue
             inflight := []
             sweeps := []
             confirm := x.confirm.map fun c => { c with issued := false } }

/-- The symbols and ticks charged in the present frame so far; a new frame starts at nothing (R274). -/
def chargeFrame (s : State) (x : Facet) : Facet :=
  let n := s.now / frameTicks
  if x.chargeFrame = n then x else { x with chargeFrame := n, charge := 0, chargeTicks := 0 }

/-- The unjudged symbols that a restart issues again now: those on the plane in the rings, or on the plane flipped out last,
which it restores first. -/
def dueAgain (x : Facet) : List Sym :=
  let older := x.reissue.filter fun y => y.plane != x.active.id
  if x.restoring || older.isEmpty then x.reissue.filter fun y => y.plane == x.active.id else older

/-- A confirmation attempt waits for its issue, on the plane in the rings (R67, R74, R75). -/
def confirmAgain (x : Facet) : Bool := x.confirm.any fun c => !c.issued && c.sym.plane == x.active.id

/-- The symbols that a restart charges (R274): the re-issues, and 123 where a plane is restored. -/
def restartCharge (x : Facet) : Nat :=
  if !passesRun x || x.swapping then 0
  else (dueAgain x).length + (if confirmAgain x then 1 else 0) + (if !x.restoring && x.reissue.any (fun y => y.plane != x.active.id) then 123 else 0)

/-- The plane flipped out last is loaded while passes are stopped and flipped in again, the newer one loads behind it, and a
preloaded plane is displaced (R74). -/
def restorePlane (x : Facet) : Facet :=
  match x.flippedOut with
  | none => x
  | some p =>
    let aside := match x.shadow with
      | some h => [h.plane]
      | none => []
    let x := calArm (calReach (calArm x))
    { x with active := p, flippedOut := none, shadow := some { plane := x.active, loaded := false },
             displaced := aside ++ x.displaced, restoring := true }

/-- A restart (R74): the unjudged symbols are issued again in symbol order, on the plane flipped out last first; the newer plane
and its symbols follow its flip. A symbol keeps the number of its attempt (DESIGN CHOICE, log entry 89). -/
def restartFacet (s : State) (f : Nat) : State :=
  let x := facetN s f
  if !passesRun x || x.swapping then s else
  let s := if confirmAgain x then
    (modFacet s f fun x => { x with confirm := x.confirm.map fun c => { c with issued := true } }).inc (fam 0x3100_01 f) else s
  let due := dueAgain x
  if due.isEmpty then s else
  let restore := !x.restoring && due.any fun y => y.plane != x.active.id
  let s := if restore then (modFacet s f restorePlane).inc (fam 0x3700_03 f) else s
  let s := modFacet s f fun x =>
    { x with inflight := x.inflight ++ due.map fun y => { y with stamp := s.now }, reissue := x.reissue.filter fun y => !due.contains y }
  (s.add (fam 0x3100_01 f) due.length).faultRetried

/-- A preempted fill run whose plane is active goes on when the priority queue has nothing ready (R164). -/
def resumeFill (s : State) (f : Nat) : State :=
  let x := facetN s f
  if x.preempted && !prioReady s f && (match queueRun x false with
      | some r => x.active.id == r.plane
      | none => true)
  then modFacet s f fun x => { x with preempted := false } else s

/-- A priority PRELOAD stands at the head with its record at hand (R164). -/
def prioPreload (s : State) (f : Nat) : Bool :=
  match headOf s f true, (engineN s f).prio.binding with
  | some w, some _ => cmdOp w == 0x02 && (srcKind w == 0 || !(queueAt s f (srcQueue w)).isEmpty)
  | _, _ => false

/-- A plane begins to load into the free shadow, through the map as it stands (R52). -/
def beginLoad (x : Facet) (p : Plane) : Facet := { calArm x with shadow := some { plane := p, loaded := false } }

/-- The next plane takes the free shadow: a displaced one, then the preempted fill plane and the fill queue's pending
preload, unless a priority PRELOAD is ready (R67, R74, R164). -/
def reloadShadow (s : State) (f : Nat) : State :=
  let x := facetN s f
  if x.shadow.isSome || x.swapping || x.degraded then s else
  match x.displaced with
  | p :: rest => modFacet s f fun x => { beginLoad x p with displaced := rest }
  | [] =>
    if prioPreload s f then s else
    let pending := match x.fillPending with
      | some q => modFacet s f fun x => { beginLoad x q with fillPending := none }
      | none => s
    match x.fillPlane with
    | some p => if x.preempted && x.active.id != p.id then modFacet s f fun x => beginLoad x p else pending
    | none => pending

/-- The rings idle for the load in the shadow (R178): the reload of a swap holds the run; or no run can issue, and a queue waits
for that plane: its head asks for it, or it is the plane of a preempted run or of a run whose symbols are issued again. -/
def idlesForLoad (s : State) (f : Nat) : Bool :=
  let x := facetN s f
  passesRun x && (match x.shadow with
    | some h =>
      if x.swapping then true else
      !h.loaded && (currentRun s f).isNone && !runHeld x
        && (x.restoring || (x.preempted && (queueRun x false).any fun r => r.plane == h.plane.id)
          || [true, false].any fun prio => match headOf s f prio with
            | some w =>
              if cmdOp w = 0x03 && flipZeroBit w then h.plane.id.zero && h.plane.prio == prio
              else (cmdOp w == 0x03 || cmdOp w == 0x10) && h.plane.named (srcKind w) (srcField w)
            | none => false)
    | none => false)

/-- LOAD_IDLE advanced at the end of a time in which the rings idled for a load (R178). -/
def noteIdle (s : State) (f : Nat) : State :=
  match (facetN s f).idleSince, idlesForLoad s f with
  | none, true => modFacet s f fun x => { x with idleSince := some s.up }
  | some t, false => (modFacet s f fun x => { x with idleSince := none }).add (fam 0x3700_06 f) (symbolOf (s.since t))
  | _, _ => s

/-! ### Units of facets -/

/-- The facets of a pair. -/
def pairFacets (n : Nat) : List Nat := [4 * n, 4 * n + 1, 4 * n + 2, 4 * n + 3]

end Sys2Proof.Machine
end

