-- ==== Sys2Proof/Machine/Waves.lean ====
section
/-! DEFINITION. Waves.lean: analogue outputs with their deglitchers and freezes (R550, R551), pending playbacks and the feed-forward
of the region heaters (R347, R554, R555), as shared operations. -/

namespace Sys2Proof.Machine

/-- The output key of region heater r of facet f (`Analog.outs`). -/
def heaterKey (f r : Nat) : Nat := 16 + 16 * f + r

/-- Ring heater outputs of a facet: keys of `Analog.outs`. -/
def ringKey (f row lane : Nat) : Nat := 1024 + 128 * (520 * f + row) + lane

/-! ### Deglitchers and freezes (R550, R551) -/

/-- The key of an output in `Analog.outs`. -/
def outKey : Output → Nat
  | .external k => k.val
  | .region f r => heaterKey f.val r.val
  | .ring f row lane => ringKey f.val row.val lane.val

/-- Mid-scale, and the weight of the lowest bit whose change is a major transition. -/
def midScale (key : Nat) : Nat := if key < 16 then 0x8000 else if key < 1024 then 0x2000 else 512
def majorStep (key : Nat) : Nat := if key < 16 then 4096 else if key < 1024 then 1024 else 64
def outMax (key : Nat) : Nat := if key < 16 then 65535 else if key < 1024 then 16383 else 1023

def outDefault (key : Nat) : OutState := { code := midScale key, hold := none, kept := none, changedAt := 0 }

def outOf (s : State) (key : Nat) : OutState := sparseGet outDefault s.analog.outs key

def modAnalog (s : State) (g : Analog → Analog) : State := { s with analog := g s.analog }

def putOut (s : State) (key : Nat) (o : OutState) : State :=
  modAnalog s fun a => { a with outs := sparsePut outDefault a.outs key o }

/-- Every output is frozen: during a supply dip, but for the rails of LNK, whose dips stop nothing, and in the power-fail
sequence (R493, R497, R518). -/
def frozen (s : State) : Bool := s.power.dips.any (fun d => d.1 != 2 && d.1 != 3) || s.power.failing

/-- A code through the deglitcher: a major transition holds the old output; other transitions pass. A code that arrives
while the output is held takes the place of the one that waits. -/
def OutState.change (o : OutState) (key code up : Nat) : OutState :=
  if o.hold.isSome || o.code / majorStep key != code / majorStep key then { o with hold := some code, kept := none }
  else { o with code := code, kept := none, changedAt := if o.code = code then o.changedAt else up }

/-- A code change of an output: kept in a freeze. -/
def setOut (s : State) (key code : Nat) : State :=
  let o := outOf s key
  putOut s key (if frozen s then { o with kept := some code } else o.change key code s.up)

/-- The output connected to a code at once. -/
def connectOut (s : State) (key code : Nat) : State :=
  putOut s key { code := code, hold := none, kept := none, changedAt := s.up }

/-- The code that the output shows once every transition is over. -/
def outTarget (s : State) (key : Nat) : Nat :=
  let o := outOf s key
  o.kept.getD (o.hold.getD o.code)

/-- The latest codes kept in a freeze are applied at its release, each as one transition. -/
def releaseOuts (s : State) : State :=
  s.analog.outs.foldl (fun s e => match e.2.kept with
    | some c => putOut s e.1 ({ e.2 with hold := none }.change e.1 c s.up)
    | none => s) s

/-! ### Playbacks -/

/-- A waveform scheduled on an output at a counter value; a start already past counts LATE and plays at once. -/
def addPlay (s : State) (out wave scale start : Nat) (ahead : Bool) : State :=
  let late := s.isPast start
  let p : Playback := {
    out := out, wave := wave, scale := scale, start := if late then s.now else start, next := 0, loop := 0, running := false,
    ahead := ahead && !late }
  let s := { s with analog := { s.analog with plays := s.analog.plays ++ [p] } }
  if late then s.inc 0x9120_05 else s

/-- The rise or fall waveform on the 16 region heaters of facet f for a duty change of num / den; `ahead`: of its reserved duty. -/
def feedForward (s : State) (f : Nat) (up : Bool) (num den start : Nat) (ahead : Bool) : State :=
  if s.num 0x7300_01 = 0 then s else
  (List.range 16).foldl (fun s i =>
    let gain := fieldAt (s.blob 0x7300_06) (4 * (16 * f + i)) 4
    let scale := (fmul (round32 false num den 0).1 gain).1
    addPlay s (heaterKey f i) (s.num (if up then 0x7300_03 else 0x7300_04)) scale start ahead) s

/-- Symbols reserved on facet f inside the k-th interval of 1,024 ticks of the counter, times 6. -/
def dutyOf (tables : List Reservation) (f k : Nat) : Nat :=
  let lo := 1024 * 3125 * k
  let hi := lo + 1024 * 3125
  (tables.filter fun r => r.engine == f).foldl
    (fun a r => a + (min hi (6 * r.ends) - max lo (6 * r.begins))) 0

/-- The duty change into interval k passes the threshold: its direction and size. -/
def dutyStep (s : State) (tables : List Reservation) (f k : Nat) : Option (Bool × Nat) :=
  let a := dutyOf tables f (k - 1)
  let b := dutyOf tables f k
  let d := if a < b then b - a else a - b
  if s.num 0x7300_05 * (1024 * 3125) < 100 * d then some (decide (a < b), d) else none

/-- The reservations that make up the duty once the tables have changed from `old`: those that stand, and what has passed of those
that are gone. -/
def dutyTables (s : State) (old new : List Reservation) : List Reservation :=
  let now := symbolOf s.now
  new ++ (old.filter fun r => !new.contains r && decide (r.begins < now)).map fun r => { r with length := min r.length (now - r.begins) }

/-- The stamp that triggers the waveform of interval k (R347). -/
def aheadStamp (s : State) (k : Nat) : Nat := (1024 * k + stampPeriod - s.num 0x7300_02) % stampPeriod

/-- The waveform of one interval of facet f after a change of the tables (R347): while its trigger is still to come it is scaled
anew, or withdrawn; one that is asked for only after that plays late. -/
def retuneAt (s : State) (old new : List Reservation) (f k : Nat) : State :=
  let was := dutyStep s old f k
  let is := dutyStep s new f k
  let at_ := aheadStamp s k
  if is = was then s
  else if s.isPast at_ then
    match was, is with
    | none, some (up, d) => feedForward s f up d (1024 * 3125) at_ true
    | _, _ => s
  else
    let mine := fun (p : Playback) => p.ahead && !p.running && p.start == at_ && decide (heaterKey f 0 ≤ p.out)
      && decide (p.out < heaterKey (f + 1) 0)
    let s := { s with analog := { s.analog with plays := s.analog.plays.filter fun p => !mine p } }
    match is with
    | some (up, d) => feedForward s f up d (1024 * 3125) at_ true
    | none => s

/-- The feed-forward follows every change of the schedule tables, here from `old` to those that now stand: for each interval not yet
over whose duty, or whose predecessor's, it touches. -/
def retune (s : State) (old : List Reservation) : State :=
  let new := dutyTables s old s.tables
  let changed := (old.filter fun r => !new.contains r) ++ new.filter fun r => !old.contains r
  let ks := ((changed.filter fun r => r.engine < 32).map fun r =>
    let a := max (6 * r.begins / (1024 * 3125)) (s.now / 1024)
    let b := (6 * r.ends - 1) / (1024 * 3125) + 1
    (List.range (b + 1 - a)).map fun i => (r.engine, a + i)).flatten.dedup
  ks.foldl (fun s k => retuneAt s old new k.1 k.2) s

/-- The schedule tables changed, with the feed-forward. -/
def setTables (s : State) (tables : List Reservation) : State := retune { s with tables := tables } s.tables

/-- The waveform of a fill run in unreserved time at its first symbol (rise), its last or its preemption (fall). The
manual does not state the duty change that scales it: free (log entry 4). -/
def fillWave (s : State) (f task : Nat) (up : Bool) : State :=
  match findTask s task with
  | none => s
  | some t =>
    if t.cls != .fill || s.tables.any (fun r => r.task == task && r.engine == f) then s
    else
      let (d, s) := s.drawNat 101
      feedForward s f up d 100 s.now false

end Sys2Proof.Machine
end

