-- ==== Sys2Proof/Machine/Task.lean ====
section
/-! DEFINITION. Task.lean: ending and aborting tasks (R139, R165, R222, R243, R478, R489), certificates at risk and
re-certification (R282-R285), degradation (R69, R512) and the start of a relock (R342), as shared operations. -/

namespace Sys2Proof.Machine

/-! ### Ending a task -/

/-- The commands of a queue less those of task n, given the task in force at the head (R165). -/
def dropCmds (n : Nat) : Option Nat → List (BitVec 128) → List (BitVec 128)
  | _, [] => []
  | cur, w :: ws =>
    let cur := if cmdOp w = 1 then some (bindOf w).task else cur
    if cur = some n then dropCmds n cur ws else w :: dropCmds n cur ws

/-- The task in force behind the last of some commands. -/
def lastTask : Option Nat → List (BitVec 128) → Option Nat
  | cur, [] => cur
  | cur, w :: ws => lastTask (if cmdOp w = 1 then some (bindOf w).task else cur) ws

/-- A queue without the commands of task n; where n is in force behind the last of them, its further commands are discarded as
they come, up to the next BIND with a different TASK (R165). -/
def clearQueue (n : Nat) (q : CmdQueue) : CmdQueue :=
  let ws := dropCmds n (q.binding.map fun b => b.task) q.cmds
  let b := match q.binding with
    | some b => if b.task = n then none else some b
    | none => none
  { q with cmds := ws
           popped := q.popped + (q.cmds.length - ws.length)
           binding := b
           waitAt := if b == q.binding then q.waitAt else none
           pushing := if b == q.binding then q.pushing else none
           drainWait := if b == q.binding then q.drainWait else none
           running := if b == q.binding then q.running else none
           discard := if lastTask (q.binding.map fun b => b.task) q.cmds = some n then some n else q.discard }

/-- An engine without the commands of task n, those of its repeats among them. -/
def clearEngine (n : Nat) (x : Engine) : Engine := (x.mapAll true (clearQueue n)).mapAll false (clearQueue n)

def clearPlane (n : Nat) (p : Plane) : Plane := if p.task = n then { p with hold := none } else p

def clearOpt (n : Nat) : Option Plane → Option Plane
  | some p => if p.task = n then none else some p
  | none => none

/-- The slot indices that an abort makes INVALID (R139). -/
def ownedSlots (x : Facet) (n : Nat) : Nat :=
  ((x.slots.filter fun e => e.2.owner == n).map fun e => e.2.span).foldl (fun a b => a + b) 0

/-- A facet without the work of task n; its elements are INVALID. -/
def clearFacet (x : Facet) (n : Nat) : Facet :=
  let mine := fun (y : Sym) => y.task != n
  { x with
    runs := x.runs.filter fun r => r.task != n
    inflight := x.inflight.filter mine
    reissue := x.reissue.filter mine
    sweeps := x.sweeps.filter mine
    writes := x.writes.filter fun c => c.task != n
    drains := x.drains.filter fun d => d.task != n
    merges := x.merges.filter fun d => d.task != n
    reduces := x.reduces.filter fun d => d.task != n
    inbound := x.inbound.filter fun d => d.task != n
    trees := x.trees.filter fun d => d.task != n
    active := clearPlane n x.active
    flippedOut := x.flippedOut.map (clearPlane n)
    shadow := match x.shadow with
      | some h => if h.plane.task = n && !x.swapping then none else some { h with plane := clearPlane n h.plane }
      | none => none
    flipWanted := match x.shadow with
      | some h => x.flipWanted && (h.plane.task != n || x.swapping)
      | none => false
    restoring := x.restoring && (x.swapping || match x.shadow with
      | some h => h.plane.task != n
      | none => false)
    fillPlane := clearOpt n x.fillPlane
    fillPending := clearOpt n x.fillPending
    displaced := x.displaced.filter fun p => p.task != n
    preempted := x.preempted && x.runs.any fun r => r.task != n && !r.prio && !r.done
    slots := x.slots.map fun e =>
      if e.2.owner = n then (e.1, { e.2 with state := .invalid, inTree := 0, owner := 0xFFFF, closing := false }) else e }

/-- The streams of a task end: their handles leave the queues, blocks and biscuit entries are freed, jigs stop (R222,
R243). -/
def endStreams (s : State) (n : Nat) : State :=
  let mine := s.streams.filter fun x => x.desc.task == n
  let is := fun (eic stream : Nat) => mine.any fun x => x.desc.eic == eic && x.desc.stream == stream
  { s with
    stations := s.stations.map fun st =>
      { st with
        queues := st.queues.map fun l => l.filter fun i => !is i.eic i.stream
        biscuits := st.biscuits.map fun b => match b with
          | some b => if is b.eic b.stream then none else some b
          | none => none }
    jigs := s.jigs.filter fun j => !is j.eic j.stream
    converts := s.converts.map fun l => l.filter fun c => c.task != n
    streams := s.streams.filter fun x => x.desc.task != n }

/-- VEC_FLAGS when a task ends with vector flags set, for each vector unit that set some (R171, R181). -/
def flagEvent (s : State) (t : Task) : State :=
  if s.num 0x3800_03 = 1 then
    t.unitFlags.foldl (fun s u =>
      if u.2 = 0 then s
      else s.raise 0x3043 (u.1 % 32)
        (leBytes 1 u.1 ++ leBytes 2 t.context ++ leBytes 4 t.copy ++ leBytes 2 t.num ++ leBytes 1 u.2)) s
  else s

/-- The part of a gang task at an ordinal that the device carries (R454, R462). -/
def partAt (s : State) (gt ord : Nat) : Option Task := s.tasks.find? fun t => (t.gang.any fun g => g.1 == gt) && t.ordinal == ord

/-- An ordinal that an admitted gang task makes the device carry (R454). -/
def ordinalCarried (s : State) (o : Nat) : Bool := s.tasks.any fun q => q.gang.isSome && q.ordinal == o

/-- A task of the gang that is no longer admitted takes its grants with it, and the stand-in ordinals that only it held (R454, R463). -/
def endGangTask (s : State) (t : Task) : State :=
  if t.gang.isNone then s else
  modGang s fun q =>
    { q with grants := q.grants.filter fun e => e.1 != t.num, granted := q.granted.filter fun e => e.1 != t.num,
             leaving := q.leaving.filter (ordinalCarried s) }

/-- A task leaves the scheduler with its streams, reservations and tree (R156). -/
def removeTask (s : State) (t : Task) : State :=
  let s := endStreams (flagEvent s t) t.num
  let s := { s with facets := s.facets.map fun (x : Facet) => { x with trees := x.trees.filter fun d => d.task != t.num } }
  setTables (endGangTask { s with tasks := s.tasks.filter fun q => q.num != t.num } t) (withoutTask s.tables t.num)

/-! ### Aborts (R243) -/

/-- What follows an abort. -/
inductive AfterAbort
  /-- Completed without replay, with a result of R299. -/
  | complete (result : Nat)
  /-- Replayed (R489); a slot-class task only when certified for its deadline (R283). -/
  | replay
  /-- A certificate failed: replayed, stream class with a new target (R283). -/
  | newTarget
  /-- Held in the journal for a copy (R211, R213). -/
  | held
  deriving DecidableEq, Repr

/-- A replay of the task from the present stamp, on the engines in service, meets the deadline (R283). -/
def canReplaySlot (s : State) (t : Task) (r : Request) : Bool :=
  let g := graphOn s t.graph
  let p := graphPlan s s.tables .slot (startTick s) g
  enginesReady s g && inHorizon s p && s.meets p.cert r.deadline

/-- What becomes of the request of an aborted task. -/
def afterAbort (s : State) (t : Task) (after : AfterAbort) : State :=
  match findRequest s t.jsn with
  | none => s
  | some r =>
    let wait := fun (s : State) => awaitAdmission s r.jsn fun r => { r with wasReplayed := true, rebased := false }
    match after with
    | .complete result => endRequest s r.jsn result 0 0 0
    | .held =>
      let hurt := match (getCtx s t.context).holding t.copy with
        | some b => ((getCtx s t.context).slot b).damaged != []
        | none => false
      modRequest s r.jsn fun r =>
        { r with phase := .held, wasReplayed := true, rebased := false, damagedAt := if hurt then some s.up else none }
    | _ =>
      if r.cancel then endRequest s r.jsn 16 0 0 3
      else if r.notReplayable then endRequest s r.jsn 18 0 0 0
      else match t.cls with
        | .slot => if canReplaySlot s t r then wait s else missDeadline s r.jsn
        | .stream =>
          if after = .newTarget then
            modRequest (((wait s).inc 0x2200_07).raise 0x2022 0xFF []) r.jsn fun r => { r with targetBase := s.now, rebased := true }
          else wait s
        | .fill => wait s

/-- A part of a gang task aborted (R465): counted, GANG_ABORT raised; the owner tells every other member, a member tells the owner;
what the device carries itself is told by `abortTask`. `ord`: the part's ordinal. Causes 0 to 8 are those of R465 and R279; for an
abort that neither names, 256 stands for a cause that is free. -/
def gangTell (s : State) (gt ord cause : Nat) (others : List Nat) : State :=
  let (cause, s) := if cause < 256 then (cause, s) else s.drawNat 256
  let s := (s.inc 0xA020_03).raise 0xA030 0xFF (leBytes 4 gt ++ leBytes 1 cause)
  let dests := (if gt % 256 = ord then others else [gt % 256]).filter fun o => !ownOrdinal s o
  dests.foldl (fun s o => sendPart s ord o 0x24 (leBytes 4 gt ++ leBytes 1 cause) []) s

/-- The abort of a task or a part of one (R139, R243): streams torn down, commands discarded, elements INVALID; its fault counted
(R478) and its request handled. `cause` is that of an ABORT frame (`gangTell`). -/
def abortOne (s : State) (n : Nat) (after : AfterAbort) (cause : Nat) : State :=
  match findTask s n with
  | none => s
  | some t =>
    let torn := s.streams.filter fun x => x.desc.task == n
    let s := torn.foldl (fun s x => s.inc (fam 0x4200_0A x.desc.eic)) s
    let s := (List.range 32).foldl (fun s f =>
      let k := ownedSlots (facetN s f) n
      if k = 0 then s else s.add (fam 0x3500_06 f) k) s
    let s := { s with
      facets := s.facets.map fun x => clearFacet x n
      engines := s.engines.map (clearEngine n)
      batches := s.batches.map fun b => { b with tasks := b.tasks.filter fun k => k != n } }
    let s := removeTask s t
    let s := s.faultAborted (match after with
      | .complete _ => false
      | _ => true)
    let s := match t.gang with
      | some (gt, others) => gangTell s gt t.ordinal cause others
      | none => s
    afterAbort s t after

/-- The other parts of a gang task that the device carries itself and whose owner it is: they are aborted with any of them (R465). -/
def localParts (s : State) (n : Nat) : List Nat :=
  match (findTask s n).bind fun t => t.gang with
  | none => []
  | some (gt, _) =>
    if (partAt s gt (gt % 256)).isNone then []
    else (s.tasks.filter fun t => t.num != n && t.gang.any fun g => g.1 == gt).map fun t => t.num

/-- The abort of a whole task. -/
def abortTask (s : State) (n : Nat) (after : AfterAbort) (cause : Nat) : State :=
  (localParts s n).foldl (fun s k => abortOne s k .replay cause) (abortOne s n after cause)

/-- A part that the device refuses (R462): the owner hears of it, or is aborted where the device carries it. -/
def refusePart (s : State) (gt ord cause : Nat) : State :=
  let s := gangTell s gt ord cause []
  match partAt s gt (gt % 256) with
  | some t => abortTask s t.num .replay cause
  | none => s

/-! ### Re-certification (R282-R285) -/

/-- Tasks with work on an engine. -/
def tasksOn (s : State) (e : Nat) : List Nat :=
  (s.tasks.filter fun t => t.graph.engines.contains e || s.tables.any fun r => r.task == t.num && r.engine == e).map
    fun t => t.num

/-- A piece of work that re-placement has moved: its old end and its new one. -/
structure Moved where
  old : Nat
  new : Nat
  deriving DecidableEq, Repr

/-- What re-placement has made of a task's pieces so far. -/
structure Replaced where
  items : List PlacedItem
  made : List Reservation
  moved : List Moved

/-- One remaining piece of a task's work re-placed from the present on the engine that stands in for its own, delayed at least as much
as every piece that it came after, so that the order of R272 and the latencies between phases stand. -/
def replaceItem (s : State) (t : Task) (m : List (Nat × Nat)) (nowSym : Nat) (a : Replaced) (x : PlacedItem) : Replaced :=
  let from_ := max x.begins nowSym
  let ready := (a.moved.filter fun y => y.old ≤ x.begins).foldl (fun k y => max k (from_ + (y.new - y.old))) from_
  let len := x.ends - from_
  match x.engine with
  | none => { a with items := a.items ++ [{ x with begins := ready, ends := ready + len }]
                     moved := a.moved ++ [{ old := x.ends, new := ready + len }] }
  | some e =>
    let (rs, fin) := place s (withoutTask s.tables t.num ++ a.made) (engineOn m e) (clsCode t.cls) t.num x.kind len placeTries ready
    { items := a.items ++ [{ x with engine := some (engineOn m e), begins := fin - len, ends := fin }]
      made := a.made ++ rs, moved := a.moved ++ [{ old := x.ends, new := fin }] }

/-- The remaining work of a task re-placed from the present on the engines in service, and the new plan (R282); its checkpoints get
the certificate of the work up to their phases. -/
def replan (s : State) (t : Task) : Plan :=
  let start := ceilDiv s.now 6 * 6
  let nowSym := symbolOf start
  let es := graphEngines t.graph
  let m := standIns s es ((es.filter fun e => e < 64).map fun e => e % 32).dedup []
  let rest := (t.items.filter fun x => nowSym < x.ends).mergeSort fun a b => a.begins ≤ b.begins
  let a := rest.foldl (replaceItem s t m nowSym) { items := [], made := [], moved := [] }
  planFrom s (withoutTask s.tables t.num) t.num start (t.graph.phases.map (phaseOn m)) t.graph.checkpoints
    ((t.items.filter fun x => x.ends ≤ nowSym) ++ a.items) a.made

/-- Earliest bound first, slot class first at equal bounds (R18, R282). -/
def riskOrder (s : State) (a b : Task) : Bool :=
  let x := stampDiff s.now a.bound
  let y := stampDiff s.now b.bound
  x < y || (x == y && (a.cls == .slot || b.cls != .slot))

/-- How one re-certification went: tasks continued, replayed, completed as missed. -/
structure Recert where
  kept : Nat
  replayed : Nat
  missed : Nat
  deriving DecidableEq, Repr

/-- One task at risk (R282, R283). `lost`: its work lies on a facet that is lost, so it cannot continue. -/
def recertOne (s : State) (c : Recert) (n cause : Nat) (lost : Bool) : State × Recert :=
  match findTask s n with
  | none => (s, c)
  | some t =>
    if t.cls = .fill then
      if lost then (abortTask s n .replay 256, { c with replayed := c.replayed + 1 }) else (s, c)
    else
      let s := (s.inc 0x2200_05).raise 0x2020 0xFF
        (leBytes 2 n ++ leBytes 1 (clsCode t.cls) ++ leBytes 1 cause ++ leBytes 8 (stamp64 t.bound))
      let p := replan s t
      if !lost && enginesReady s (graphOn s t.graph) && inHorizon s p && s.meets p.cert t.bound then
        let s := setTables s (withoutTask s.tables n ++ p.made)
        ((modTask s n fun t => { t with cert := p.cert, checks := p.checks, items := p.items, path := p.path,
                                        graph := graphOn s t.graph }).inc 0x2200_0A, { c with kept := c.kept + 1 })
      else
        let missed := t.cls == .slot && (match findRequest s t.jsn with
          | some r => !canReplaySlot { s with tables := withoutTask s.tables n } t r
          | none => true)
        (abortTask s n .newTarget 256,
         if missed then { c with missed := c.missed + 1 } else { c with replayed := c.replayed + 1 })

/-- Tasks at risk handled in order; RECERTIFIED closes a change of R285. -/
def recertify (s : State) (ns : List Nat) (cause : Nat) (lost announce : Bool) : State :=
  let ts := (s.tasks.filter fun t => ns.contains t.num).mergeSort (riskOrder s)
  let (s, c) := ts.foldl (fun (a : State × Recert) t => recertOne a.1 a.2 t.num cause lost)
    (s, { kept := 0, replayed := 0, missed := 0 })
  if announce && !ts.isEmpty then s.raise 0x2023 0xFF (leBytes 4 c.kept ++ leBytes 4 c.replayed ++ leBytes 4 c.missed)
  else s

/-- Symbols and ticks charged against the frame allowance of a facet in the present frame (R274): relocks, sweeps, retries,
re-issues, restorations and dips alike. An excess puts the tasks with the facet on their path at risk (R282). A tick is 3,125 / 6
symbols. -/
def chargeFacet (s : State) (f symbols ticks : Nat) : State :=
  let s := modFacet s f fun x =>
    let x := chargeFrame s x
    { x with charge := x.charge + symbols, chargeTicks := x.chargeTicks + ticks }
  let w := (s.tables.filter fun r => r.engine == f && r.frame == s.now / frameTicks).foldl (fun a r => a + r.length) 0
  let x := facetN s f
  if 6 * (147 + 147 + s.num 0x2010_02 + ceilDiv (s.num 0x2010_01 * w) 1000000) + 3125 * (s.num 0x2010_03 + s.num 0x2010_04)
      < 6 * x.charge + 3125 * x.chargeTicks then recertify s ((s.tasks.filter fun t => t.path.any fun fs => fs.contains f).map fun t => t.num) 2 false false
  else s

/-! ### Facets leaving service (R69, R512) -/

/-- A facet's rings at the safe value with open loops. -/
def openRings (s : State) (f : Nat) : State :=
  let s := modFacet s f fun x => { x with optic := { x.optic with base := RingLoop.off, rings := [], cal := none } }
  { s with analog := { s.analog with
      outs := s.analog.outs.filter fun o => o.1 < ringKey f 0 0 || ringKey (f + 1) 0 0 ≤ o.1 } }

/-- The ring heaters of a row that is retired, at the safe value with open loops (R51, R337). -/
def openRow (s : State) (f p : Nat) : State :=
  let s := modFacet s f fun x =>
    { x with optic := { x.optic with rings := x.optic.rings.filter fun r => r.1 / 128 != p } }
  { s with analog := { s.analog with
      outs := s.analog.outs.filter fun o => o.1 < ringKey f p 0 || ringKey f (p + 1) 0 ≤ o.1 } }

/-- The digital domain of a facet goes off, and its vector unit with it (R512, R519). -/
def loseDigital (s : State) (f : Nat) : State :=
  let s := { s with power := { s.power with digOff := withBit s.power.digOff f true } }
  s.setUnits 6 (withBit (s.num 0x0020_06) f false)

/-- A facet degrades (R69): out of 0020h.01 for good, its analogue domain off, the digital domain and the vector unit as
well where the cause lies there; its tasks are aborted and re-certified. A facet already degraded can still lose its digital
domain. -/
def degradeFacet (s : State) (f phys logical synd stamp : Nat) (digital : Bool) : State :=
  if (facetN s f).degraded then
    if digital && !s.power.digOff.testBit f then recertify (loseDigital s f) (tasksOn s (32 + f)) 3 true true else s
  else
  let s := openRings s f
  let s := modFacet s f fun x =>
    { x with degraded := true, swapping := false, restoring := false, displaced := [], confirm := none, sweeps := [],
             inflight := [], reissue := [], flipWanted := false, idleSince := none }
  let s := { s with power := { s.power with anaOff := withBit s.power.anaOff f true } }
  let s := facetEvent s.faultDegraded f 0x3015 phys logical synd stamp
  let s := s.setFacets (withBit (s.num 0x0020_01) f false)
  let s := if digital then loseDigital s f else s
  recertify s (tasksOn s f ++ if digital then tasksOn s (32 + f) else []) 3 true true

/-- Facets leave service with other engines of theirs (R285, R498): the tasks on them cannot continue. -/
def loseUnits (s : State) (fs others : List Nat) : State :=
  let m := fs.foldl (fun m f => withBit m f false) (s.num 0x0020_01)
  let s := { s.setFacets m with power := { s.power with lost := fs.foldl (fun m f => withBit m f true) s.power.lost } }
  recertify s (((fs ++ others).map (tasksOn s)).flatten) 3 true true

def loseFacets (s : State) (fs : List Nat) : State := loseUnits s fs []

/-! ### Relocks (R342) -/

def ringNum (row lane : Nat) : Nat := 128 * row + lane

/-- A ring's loop (R337, R360): open in a retired row; the line of a confirmed ring is its own. -/
def ringLoop (x : Facet) (row lane : Nat) : RingLoop :=
  if (rowAt x row).role = .retired then RingLoop.off else
  let l := sparseGet (fun _ => x.optic.base) x.optic.rings (ringNum row lane)
  if l.ident = 1 then { l with line := lane % 64 } else l

def setRing (x : Facet) (row lane : Nat) (l : RingLoop) : Facet :=
  let base := x.optic.base
  { x with optic := { x.optic with
      rings := sparsePut (fun _ => base) x.optic.rings (ringNum row lane) (if l.ident = 1 then { l with line := 0 } else l) } }

/-- Step 3 of a relock for one ring in HOLD (R343): the code predicted from the temperature change since the hold; within capture the
loop locks, else it sweeps, from the safe value where the prediction lies outside the range. Neither the change nor the
resonance is a value of the machine: both are free (log entry 4). -/
def predictRing (s : State) (f row lane : Nat) : State :=
  let x := facetN s f
  let l := ringLoop x row lane
  if l.loop ≠ 3 then s else
  let (d, s) := s.drawNat 2047
  let (locks, s) := s.drawBool
  let p : Int := (outTarget s (ringKey f row lane) : Int) + 1023 - d
  let inside := decide (0 ≤ p) && decide (p ≤ 1023)
  let s := setOut s (ringKey f row lane) (if inside then p.toNat else 512)
  modFacet s f fun x => setRing x row lane { l with loop := if inside && locks then 2 else 1 }

/-- Step 3 of a relock (R343); a dip holds the loops until it ends. -/
def predictRings (s : State) (f : Nat) : State :=
  let x := facetN s f
  if x.dipping || x.lock == .dark then s
  else x.optic.rings.foldl (fun s r => predictRing s f (r.1 / 128) (r.1 % 128)) s

/-- A relock begins, or a further trigger is merged into the one in progress, that of start-up included: passes stop; rolling
calibration is abandoned and starts again afterwards with the same stand-in. A start-up that failed takes no trigger. -/
def startRelockAt (s : State) (f triggers : Nat) (acquires : Bool) (synd symAt : Nat) : State :=
  let x := facetN s f
  if x.degraded || (x.lock == .starting && x.optic.relock.isNone) then s else
  let s := stopFacet s f
  let s := modFacet s f fun x =>
    let k : Relock := match x.optic.relock with
      | some k =>
        { k with triggers := k.triggers ||| triggers, checkRepeated := false, checked := false, acquires := k.acquires || acquires,
                 synd := if triggers = 8 then synd else k.synd, symAt := if triggers = 8 then symAt else k.symAt }
      | none =>
        { triggers := triggers, since := s.up, checkRepeated := false, checked := false, acquires := acquires, synd := synd,
          symAt := symAt }
    { x with
      lock := if x.lock = .dark ∨ x.lock = .held ∨ x.lock = .starting then x.lock else .relocking
      optic := { x.optic with relock := some k, cal := x.optic.cal.map fun c => { c with since := s.up, failedOnce := false } } }
  predictRings s f

/-- A relock for a trigger that no failed symbol gives. -/
def startRelock (s : State) (f triggers : Nat) (acquires : Bool) : State := startRelockAt s f triggers acquires 0 s.now

/-! ### Errors that abort a task -/

/-- The lowest bit of a mask among n bits from lo. -/
def lowestIn (mask lo n : Nat) : Option Nat := ((List.range n).map (lo + ·)).find? fun i => mask.testBit i

/-- The tree of a task on a facet: the last declared. -/
def treeFor (x : Facet) (task : Nat) : Option TreeDecl := (x.trees.filter fun t => t.task == task).getLast?

/-- The facet that holds a position of a task's tree. -/
def facetAt (s : State) (task pos : Nat) : Option Nat :=
  (List.range 32).find? fun f => match treeFor (facetN s f) task with
    | some t => t.pos == pos
    | none => false

/-- The facet that holds the root of a task's tree on this device; the facet itself where the task has no tree (R145). -/
def rootFacet (s : State) (f task : Nat) : Nat :=
  match treeFor (facetN s f) task with
  | some t => ((lowestIn t.posMask 0 32).bind (facetAt s task)).getD f
  | none => f

/-- A slot program error (R116). -/
def slotError (s : State) (f task op rowTile slot rule : Nat) : State :=
  let (ctx, copy) := match findTask s task with
    | some t => (t.context, t.copy)
    | none => (0, 0)
  let f := rootFacet s f task
  let s := (s.inc (fam 0x3500_07 f)).raise 0x3032 f
    (leBytes 2 ctx ++ leBytes 4 copy ++ leBytes 4 op ++ leBytes 4 rowTile ++ leBytes 2 slot ++ leBytes 2 rule)
  abortTask s task (.complete 9) 256

/-- A malformed activation tile (R103, R110, R111). -/
def tileError (s : State) (f : Nat) (r : Run) : State :=
  let s := (s.inc 0x3300_08).raise 0x3021 f
    (leBytes 2 r.plane.context ++ leBytes 4 r.plane.copy ++ leBytes 4 r.plane.operand ++ leBytes 4 r.plane.rowTile
      ++ leBytes 4 r.plane.chunk)
  abortTask s r.task .replay 256

/-- Symbols issued while they can be (R153, R163). -/
def pump (f : Nat) : Nat → State → State
  | 0, s => s
  | k + 1, s =>
    match issueStep s f with
    | .none => s
    | .next s => pump f k s
    | .error r rule => slotError s f r.task r.plane.operand r.plane.rowTile r.slotNext rule
    | .malformed r => tileError s f r

/-- Symbols issued again after a stop, charged against the frame allowance (R74, R274). -/
def reissueFacet (s : State) (f : Nat) : State :=
  let n := restartCharge (facetN s f)
  let s := restartFacet s f
  if n = 0 then s else chargeFacet s f n 0

/-- Everything that a facet can do on its own after a change: symbols are issued again or anew, the next plane takes a free shadow,
a preempted run goes on, runs end. A run of skipped passes only is bounded by its length. -/
def settleFacet (s : State) (f : Nat) : State :=
  noteIdle (finishRuns (pump f 4096 (resumeFill (reloadShadow (reissueFacet s f) f) f)) f) f

end Sys2Proof.Machine
end

