-- ==== Sys2Proof/Machine/Image.lean ====
section
/-! DEFINITION. Image.lean: Usien images as lists of weight blocks: header, operand directory, checks, and the places that a
build pins (R189, R190, R193-R196), as shared operations. -/

namespace Sys2Proof.Machine

def blockAt (bs : List (Nat × Bytes)) (b : Nat) : Bytes := sparseGet (fun _ => []) bs b

def putBlock (bs : List (Nat × Bytes)) (b : Nat) (data : Bytes) : List (Nat × Bytes) := sparsePut (fun _ => []) bs b data

/-- The numbers of the blocks that carry bytes off to off + n - 1. -/
def blockSpan (off n : Nat) : List Nat :=
  if n = 0 then [] else (List.range ((off + n - 1) / 4096 - off / 4096 + 1)).map (off / 4096 + ·)

/-- Image bytes across blocks. -/
def imageRead (bs : List (Nat × Bytes)) (off n : Nat) : Bytes :=
  (((blockSpan off n).map (blockAt bs)).flatten.drop (off % 4096)).take n

/-- Header fields (R194). -/
def imgField (bs : List (Nat × Bytes)) (off n : Nat) : Nat := fieldAt (blockAt bs 0) off n

def imgOperands (bs : List (Nat × Bytes)) : Nat := imgField bs 28 4
def imgBlocks (bs : List (Nat × Bytes)) : Nat := imgField bs 32 4
def imgPayload (bs : List (Nat × Bytes)) : Nat := imgField bs 36 8

/-- An entry of the operand directory (R195). -/
structure OpEntry where
  operand : Nat
  format : Nat
  form : Nat
  home : Nat
  peer : Nat
  rowTiles : Nat
  chunks : Nat
  offset : Nat
  length : Nat
  deriving DecidableEq, Repr

def opEntry (b : Bytes) : OpEntry :=
  { operand := fieldAt b 0 4, format := fieldAt b 4 1, form := fieldAt b 5 1, home := fieldAt b 6 1, peer := fieldAt b 7 1,
    rowTiles := fieldAt b 8 4, chunks := fieldAt b 12 4, offset := fieldAt b 16 8, length := fieldAt b 24 8 }

def imgEntries (bs : List (Nat × Bytes)) : List OpEntry :=
  (List.range (imgOperands bs)).map fun i => opEntry (imageRead bs (64 + 32 * i) 32)

/-- Every block of the directory has arrived. -/
def dirArrived (bs : List (Nat × Bytes)) : Bool :=
  (blockSpan 0 (64 + 32 * imgOperands bs)).all fun b => (blockAt bs b) != []

/-- Items of an operand: plane records, or stored tiles. -/
def OpEntry.items (e : OpEntry) : Nat := e.rowTiles * e.chunks * (if e.form = 0 then fmtTrits e.format else 1)

def OpEntry.itemBytes (e : OpEntry) : Nat := if e.form = 0 then recordBytes else 512 * fmtRowBytes e.format

/-- Row tile, chunk and trit index of item i (R195). -/
def OpEntry.position (e : OpEntry) (i : Nat) : Nat × Nat × Nat :=
  let n := if e.form = 0 then max (fmtTrits e.format) 1 else 1
  (i / (n * max e.chunks 1), i / n % max e.chunks 1, i % n)

/-- A directory entry obeys R195. -/
def OpEntry.ok (payload : Nat) (e : OpEntry) : Bool :=
  e.format < 8 && e.form < 2 && e.home < 4 && !(e.home == 0 && e.form == 1) && (e.home == 2 || e.peer == 0)
    && 0 < e.rowTiles && 0 < e.chunks && 0 < e.length && e.length == e.items * e.itemBytes
    && e.offset + e.length ≤ payload

/-- The lowest cause of R196 that the header, and the directory once it has arrived, meet. -/
def imageCause (s : State) (model stage copy : Nat) (bs : List (Nat × Bytes)) : Option Nat :=
  let f := imgField bs
  if f 0 4 ≠ 0x314E5355 ∨ f 4 2 ≠ 1 then some 1
  else if f 6 2 ≠ s.num 0x0010_03 ∨ f 8 2 ≠ s.num 0x0010_05 ∨ f 10 1 ≠ s.num 0x0010_06 ∨ f 12 2 ≠ s.num 0x0010_0D
  then some 2
  else if f 14 2 ≠ s.num 0x3000_04 then some 3
  else if f 16 4 ≠ model ∨ f 20 1 ≠ stage ∨ f 24 4 ≠ copy then some 4
  else if imgOperands bs = 0 ∨ 65535 < imgOperands bs ∨ imgBlocks bs ≠ ceilDiv (imgPayload bs) 4096
    ∨ imgPayload bs < 64 + 32 * imgOperands bs then some 5
  else if !dirArrived bs then none
  else if !(imgEntries bs).all (OpEntry.ok (imgPayload bs)) then some 5
  else if f 11 1 ≠ 0 ∨ f 21 3 ≠ 0 ∨ f 44 8 ≠ 0 ∨ f 52 8 ≠ 0 ∨ f 60 4 ≠ 0 then some 6
  else none

/-! ### Record places (R190, R374) -/

/-- Places withdrawn on a pair (4600h + n.04). -/
def withdrawn (s : State) (pair : Nat) : List Nat :=
  let b := s.blob (fam 0x4600_04 pair)
  (List.range (b.length / 2)).map fun i => fieldAt b (2 * i) 2

def usablePlaces (s : State) (pair : Nat) : List Nat :=
  let w := withdrawn s pair
  (List.range shelfPlaces).filter fun p => !w.contains p

/-- The shelf places whose records the facets of a pair hold, in the rings, in the shadow or for a later reload (R64, R223). -/
def heldPlaces (s : State) (pair : Nat) : List Nat :=
  ((List.range 4).map fun i => match s.facets[4 * pair + i]? with
    | none => []
    | some x =>
      let ps := [x.active] ++ (x.shadow.map fun h => h.plane).toList ++ x.flippedOut.toList ++ x.fillPlane.toList ++ x.fillPending.toList
        ++ x.displaced
      (ps.filter fun p => p.id.kind == 0 && !p.id.zero).map fun p => p.id.src).flatten

/-- The places of the shelf cache: the highest-numbered 5000h.03 usable ones. -/
def cachePlaces (s : State) (pair : Nat) : List Nat :=
  let u := usablePlaces s pair
  u.drop (u.length - s.num 0x5000_03)

/-- Places pinned on a pair by any copy. -/
def pinnedPlaces (s : State) (pair : Nat) : List Nat :=
  (s.contexts.map fun c => (c.2.slotA.pins ++ c.2.slotB.pins).filterMap fun p => if p.pair = pair then some p.place else none).flatten

/-- The places free for pinning (5030h.03). -/
def freePlaces (s : State) (pair : Nat) : List Nat :=
  let u := usablePlaces s pair
  let taken := pinnedPlaces s pair
  let held := heldPlaces s pair
  (u.take (u.length - s.num 0x5000_03)).filter fun p => !taken.contains p && !held.contains p

/-- The pairs on which a build pins: SHELF_PAIRS of its descriptor, or every pair in service. -/
def buildPairs (s : State) (desc : Bytes) : List Nat :=
  let m := fieldAt desc 36 1
  (List.range 8).filter fun n => if m = 0 then s.unitUp 2 n else m.testBit n

/-- What a build takes: pins, operands spilled, HBM3E bytes. -/
structure Taken where
  pins : List Pin
  used : Nat
  spilled : Nat
  hbm : Nat
  deriving DecidableEq, Repr

/-- One operand taken: pinned on every pair named at the lowest free places, or spilled, or homed HBM. -/
def takeOperand (allot : Nat) (free : List (Nat × List Nat)) (t : Taken) (e : OpEntry) : Taken :=
  if e.home = 0 ∧ t.used + e.items ≤ allot ∧ free.all (fun n => decide (t.used + e.items ≤ n.2.length)) then
    let pin := fun (n : Nat × List Nat) => (List.range e.items).map fun i =>
      let q := e.position i
      ({ pair := n.1, operand := e.operand, rowTile := q.1, chunk := q.2.1, trit := q.2.2,
         place := n.2.getD (t.used + i) 0 } : Pin)
    { t with pins := t.pins ++ (free.map pin).flatten, used := t.used + e.items }
  else if e.home = 0 then { t with spilled := t.spilled + 1, hbm := t.hbm + e.length }
  else if e.home = 1 then { t with hbm := t.hbm + e.length }
  else t

/-- What the directory of an image takes from the allotments of a descriptor (R189, R190). -/
def takeImage (s : State) (desc : Bytes) (bs : List (Nat × Bytes)) : Taken :=
  let free := (buildPairs s desc).map fun n => (n, freePlaces s n)
  (imgEntries bs).foldl (takeOperand (fieldAt desc 8 2) free) { pins := [], used := 0, spilled := 0, hbm := 0 }

/-! ### The layout of the stacks (R368) -/

/-- The bytes of the library and of the key/value pool: those of the layout in force, or of the objects before the device first
enters Serving. -/
def libraryBytes (s : State) : Nat := (s.maint.layout.map Prod.fst).getD (s.num 0x5000_04)
def poolBytes (s : State) : Nat := (s.maint.layout.map Prod.snd).getD (s.num 0x6000_03)

/-- The top of the general region of every stack. -/
def generalTop (lib kv : Nat) : Nat := hbmBytes - lib / 8 - kv / 8

/-- An extent put in its place by its address. -/
def insertExtent (e : Nat × Nat) : List (Nat × Nat) → List (Nat × Nat)
  | [] => [e]
  | f :: l => if e.1 ≤ f.1 then e :: f :: l else f :: insertExtent e l

/-- The extents of every copy and BUILD on a stack, ascending. -/
def usedExtents (s : State) : List (Nat × Nat) :=
  (((s.contexts.map fun c => c.2.slotA.extents ++ c.2.slotB.extents).flatten).foldl (fun l e => insertExtent e l) [])

/-- The end of the highest extent. -/
def highestUsed (s : State) : Nat := (usedExtents s).foldl (fun a e => max a (e.1 + e.2)) 0

/-- The free extents from an address to the top, between those in use. -/
def freeExtents (top : Nat) : Nat → List (Nat × Nat) → List (Nat × Nat)
  | at_, [] => if at_ < top then [(at_, top - at_)] else []
  | at_, e :: l => (if at_ < min e.1 top then [(at_, min e.1 top - at_)] else []) ++ freeExtents top (max at_ (e.1 + e.2)) l

/-- `n` bytes out of free extents, the lowest first. -/
def takeExtents : List (Nat × Nat) → Nat → List (Nat × Nat)
  | [], _ => []
  | e :: l, n => if n = 0 then [] else if n ≤ e.2 then [(e.1, n)] else e :: takeExtents l (n - e.2)

/-- The extents that an allotment takes on every stack, an eighth of its bytes, the lowest free ones (R368; log entry 130); none
where there is no room. -/
def allotExtents (s : State) (bytes : Nat) : Option (List (Nat × Nat)) :=
  let free := freeExtents (generalTop (libraryBytes s) (poolBytes s)) 0 (usedExtents s)
  let n := ceilDiv bytes 8
  if n ≤ free.foldl (fun a e => a + e.2) 0 then some (takeExtents free n) else none

/-! ### Blocks of a copy (R213) -/

/-- The blocks that carry item i of an operand. -/
def OpEntry.itemBlocks (e : OpEntry) (i : Nat) : List Nat := blockSpan (e.offset + i * e.itemBytes) e.itemBytes

/-- The blocks that carry a pinned record. -/
def pinBlocks (x : CopySlot) (p : Pin) : List Nat :=
  match (imgEntries x.blocks).find? fun e => e.operand == p.operand with
  | none => []
  | some e => e.itemBlocks ((p.rowTile * e.chunks + p.chunk) * fmtTrits e.format + p.trit)

/-- Blocks of a copy found damaged: flag, range, event (R213). Their content is lost. -/
def damageCopy (s : State) (n : Nat) (b : Bool) (blks : List Nat) : State :=
  let x := (getCtx s n).slot b
  let s := modSlot s n b fun x => { x with damaged := (x.damaged ++ blks).dedup, damagedAt := s.up, blocks := x.blocks.filter fun k => !blks.contains k.1 }
  s.raise 0x5016 0xFF (ctxData n b x.copyId ++ leBytes 4 (blks.foldl min (blks.headD 0)) ++ leBytes 4 (blks.foldl max 0))

/-- A copy's pin at a place of a pair: its context, slot and pin. -/
def pinAt (s : State) (pair place : Nat) : Option (Nat × Bool × Pin) :=
  s.contexts.foldl (fun a c =>
    match a with
    | some _ => a
    | none =>
      let f := fun (x : CopySlot) => x.pins.find? fun p => p.pair == pair && p.place == place
      match f c.2.slotA, f c.2.slotB with
      | some p, _ => some (c.1, false, p)
      | _, some p => some (c.1, true, p)
      | none, none => none) none

end Sys2Proof.Machine
end

