-- ==== Sys2Proof/Machine/Safe.lean ====
section
/-! DEFINITION. Safe.lean: the last-resort sequencer (R434, R499): entering Safe, as a shared operation. -/

namespace Sys2Proof.Machine

/-- Passes stop on every facet; its rings are at mid-scale and its light is off. -/
def darkFacet (x : Facet) : Facet :=
  { x with reissue := x.reissue ++ x.inflight, inflight := [], lock := .dark, dipping := false,
           optic := { x.optic with base := RingLoop.off, rings := [], relock := none, cal := none } }

def modLight (s : State) (g : Light → Light) : State := { s with light := g s.light }

def inputOf (s : State) (i : Fin 2) : LightInput := s.light.inputs[i]

def modInput (s : State) (i : Fin 2) (g : LightInput → LightInput) : State :=
  modLight s fun l => { l with inputs := l.inputs.set i (g l.inputs[i]) }

/-- A state change of an input raises LIGHT_INPUT with the input and both states (R326). -/
def setInput (s : State) (i : Fin 2) (st : InputState) : State :=
  let old := (inputOf s i).state
  if old = st then s
  else (modInput s i fun x => { x with state := st }).raise 0x7010 0xFF
    (leBytes 1 i.val ++ leBytes 1 old.code ++ leBytes 1 st.code)

/-- The light-enable line of an input is asserted. -/
def lightEnable (s : State) (i : Fin 2) : Bool :=
  (inputOf s i).state == .waiting || (inputOf s i).state == .ready || (inputOf s i).state == .low

/-- The light-enable line of an input goes off (R434; log entry 27). -/
def darkInput (s : State) (i : Fin 2) : State := if lightEnable s i then setInput s i .opened else s

/-- The device enters Safe (R434): passes stop, amplifiers and light-enable go off, every DAC goes to mid-scale, the
converters stop, control cores are halted; the fault counts in class 5 (R478). Nothing changes in Safe. -/
def enterSafe (s : State) (cause : Nat) : State :=
  if s.node = .safe then s else
  let s := dropExpert s
  let s := { s with
    facets := s.facets.map darkFacet
    light := { s.light with amps := Vector.replicate 2 0, changing := [] }
    analog := { s.analog with
      outs := []
      plays := []
      convs := s.analog.convs.map fun (c : Conv) => { c with stopped := true, urgent := [], urgentRunning := false }
      exts := s.analog.exts.map fun (e : ExtOut) => { e with step := 0, service := false } }
    quiesce := 0 }
  let s := (List.finRange 2).foldl darkInput (s.setNum 0x7010_07 0)
  let s := (s.setNum 0x1000_02 0).setNum 0x1000_04 cause
  setNode s.faultSafe .safe cause

end Sys2Proof.Machine
end

