-- ==== Sys2Proof/Machine/Admit.lean ====
section
/-! DEFINITION. Admit.lean: admission, batches, tokens and aborts of tasks (R204-R213, R243, R277-R281, R302, R308-R315): one
meaning for each row. -/

namespace Sys2Proof.Machine

/-! ### Which request is next (R277, R489) -/

/-- A request may be admitted: settled, first of its session (which a pending CLOSE may still keep from opening, R318),
and, for a replay, with every copy of its record present (R211, R306, R495). -/
def admissible (s : State) (r : Request) : Bool :=
  let c := getCtx s r.context
  (r.phase == .waiting || (r.phase == .held && r.damagedAt.isNone)) && !s.tasks.any (fun t => t.jsn == r.jsn)
    && !s.journal.unsettled.contains r.jsn
    && (if r.session.isNone then r.tag == 0 || !s.sessions.any fun x => x.tag == r.tag && x.closing
        else !s.requests.any fun q => q.session == r.session && decide (q.jsn < r.jsn))
    && (!r.wasReplayed || (namedCopies s r).all fun k => k == 0 || (c.holding k).isSome)

/-- Replays go first, each kind in journal order. -/
def nextRequest (s : State) : Option Request :=
  let rs := s.requests.filter (admissible s)
  let best := fun (l : List Request) => l.foldl (fun (a : Option Request) r => match a with
    | none => some r
    | some q => if q.jsn ≤ r.jsn then a else some r) none
  (best (rs.filter fun r => r.wasReplayed)).or (best rs)

/-! ### The checks of R278 -/

/-- Step 1 (R118). -/
def kRunOk (g : TaskGraph) : Bool := g.kLanes ≤ (if g.bothI8 then 2 ^ 23 else 2 ^ 24)

/-- A stream's region on its EIC. -/
def regionOf (d : StreamDesc) : Nat × Nat := (d.poolBase, poolTotal d)

/-- The pair of an engine code: that of a facet, a vector unit or a fetch engine; none for an engine that reaches every
station. -/
def pairOf (e : Nat) : Option Nat :=
  if e < 32 then some (e / 4) else if e < 64 then some ((e - 32) / 4) else if e < 72 then some (e - 64) else none

/-- A producer reaches a receiver's queue (R221): a facet or a vector unit those of its own station, a fetch engine those of the
four stations of its pair, the remote fetch engine and the control cores every one. -/
def reaches (producer : Nat) (r : Nat × Nat) : Bool :=
  match pairOf producer, pairOf r.1 with
  | some p, some q => p == q && (64 ≤ producer || 64 ≤ r.1 || producer % 32 == r.1 % 32)
  | _, _ => true

/-- The EIC that holds a stream's description: for the remote fetch engine as producer, that of the first receiver (R229). -/
def eicOk (d : StreamDesc) : Bool :=
  d.producer != 0x48 || (((d.receivers.head?.bind fun r => pairOf r.1).map fun p => p == d.eic).getD true)

/-- The queues that a stream pushes into: station and number. -/
def queuesOf (d : StreamDesc) : List (Nat × Nat) :=
  (d.receivers.filter fun r => r.1 != 0x48).map fun r =>
    let v : Receiver := { engine := r.1, queue := r.2, inGroup := true, lag := 0, window := 0, unsent := [], sent := [] }
    (receiverStation d.eic v, receiverQueue v)

/-- A queue has exactly one producer and one consumer (R227). -/
def queuesOk (d : StreamDesc) (others : List StreamDesc) : Bool :=
  (queuesOf d).dedup.length == (queuesOf d).length
    && !others.any fun o => (queuesOf o).any fun q => (queuesOf d).contains q
        && (o.producer != d.producer || o.receivers.map Prod.fst != d.receivers.map Prod.fst)

/-- Step 2 for one stream: fields, engines, sizes and a region that meets no other (R221, R227, R229-R231, R249). -/
def streamOk (d : StreamDesc) (others : List StreamDesc) : Bool :=
  let (b, n) := regionOf d
  1 ≤ d.poolBlocks && d.poolBlocks ≤ 8191 && d.maxBuffer ≤ d.poolBlocks && b + n ≤ 8192 && (d.escape || d.escapeBlocks == 0)
    && (if d.multicast then
          2 ≤ d.receivers.length && d.receivers.length ≤ 16 && d.hbmCopy && d.lagBudget + 2 * d.maxBuffer ≤ d.poolBlocks
            && 2 * d.maxBuffer ≤ d.catchupBlocks
        else d.receivers.length == 1)
    && d.receivers.all (reaches d.producer) && eicOk d && queuesOk d others
    && !others.any fun o => o.eic == d.eic && (o.stream == d.stream || meets b n (regionOf o).1 (regionOf o).2)

/-- LAG_DEFAULT where the task graph gives no budget (R253). -/
def withLag (s : State) (d : StreamDesc) : StreamDesc :=
  if d.multicast && d.lagBudget == 0 then { d with lagBudget := s.num 0x4100_06 } else d

def streamsOk : List StreamDesc → List StreamDesc → Bool
  | [], _ => true
  | d :: ds, others => streamOk d others && streamsOk ds (d :: others)

/-- Step 3 (R244): pools that no cycle may pass, once those with an escape reserve of their largest buffer are set
aside; edges into a pool without a way on are taken away until none is left. -/
def pruneEdges : Nat → List ((Nat × Nat) × (Nat × Nat)) → List ((Nat × Nat) × (Nat × Nat))
  | 0, es => es
  | k + 1, es => pruneEdges k (es.filter fun e => es.any fun f => f.1 == e.2)

def escapeSafe (ds : List StreamDesc) (p : Nat × Nat) : Bool :=
  ds.any fun d => (d.eic, d.stream) == p && d.escape && decide (d.maxBuffer ≤ d.escapeBlocks)

def creditsOk (s : State) (g : TaskGraph) : Bool :=
  let ds := (s.streams.map fun x => x.desc) ++ g.streams
  let es := (s.tasks.map fun t => t.graph.edges).flatten ++ g.edges
  let es := es.filter fun e => !escapeSafe ds e.1 && !escapeSafe ds e.2
  (pruneEdges (es.length + 1) es).isEmpty

/-! ### Retry-after (R279) -/

/-- Ticks until a later stamp of the counter. -/
def ticksUntil (s : State) (t : Nat) : Nat := if stampBefore s.now t then (t + stampPeriod - s.now) % stampPeriod else 0

/-- Ticks to the earliest certificate after which the streams of the tasks then ended leave room for the graph's. -/
def retryStaging (s : State) (g : TaskGraph) : Nat :=
  let ts := (s.tasks.filter fun t => t.cls != .fill).mergeSort fun a b =>
    stampDiff s.now a.cert ≤ stampDiff s.now b.cert
  let ds := g.streams.map (withLag s)
  let fits := fun (t : Task) =>
    let gone := (ts.filter fun u => stampDiff s.now u.cert ≤ stampDiff s.now t.cert).map fun u => u.num
    streamsOk ds ((s.streams.filter fun x => !gone.contains x.desc.task).map fun x => x.desc)
  match ts.find? fits with
  | some t => ticksUntil s t.cert
  | none => 0

/-- The least D for which the request, committed D ticks later with its target moved by D, would be certified: `g` on the engines in
service. -/
def retryTarget (s : State) (g : TaskGraph) (bound : Nat) : Nat :=
  let ok := fun (d : Nat) =>
    let p := graphPlan s s.tables .stream (ceilDiv (s.now + d + s.num 0x2010_06) 6 * 6) g
    inHorizon s p && s.meets p.cert (bound + d)
  ((List.range (s.num 0x2100_01 * frameTicks)).find? fun d => d != 0 && ok d).getD 0

/-- Ticks until the horizon covers a frame. -/
def retryHorizon (s : State) (frame : Nat) : Nat := (frame + 1 - s.num 0x2100_01) * frameTicks - s.now

/-- What the checks of R278 come to. -/
inductive Verdict278
  | refused (cause retry : Nat)
  | plan (p : Plan)

/-- R278: the first check that fails, or the plan, of a graph on the engines in service. Work for which no engine is left has no
place in any frame: cause 6 (log entry 131). -/
def judgeTask (s : State) (g : TaskGraph) (cls : Cls) (bound : Nat) : Verdict278 :=
  if cls = .slot ∧ s.num 0x2000_03 = 3 then .refused 7 0
  else if !kRunOk g then .refused 2 0
  else if !streamsOk (g.streams.map (withLag s)) (s.streams.map fun x => x.desc) then .refused 4 (retryStaging s g)
  else if !creditsOk s g then .refused 3 0
  else if g.homedNode && cls != .fill then .refused 5 0
  else if cls = .fill then .plan { start := s.now, made := [], items := [], path := [], cert := 0, lastFrame := 0, checks := [] }
  else
    let p := graphPlan s s.tables cls (startTick s) g
    if !enginesReady s g then .refused 6 0
    else if !inHorizon s p then .refused 6 (retryHorizon s p.lastFrame)
    else if !s.meets p.cert bound then .refused 1 (if cls = .slot then 0 else retryTarget s g bound)
    else .plan p

/-- REFUSED (2200h.04): eight counts, causes 1 to 8. -/
def countRefusal (s : State) (cause : Nat) : State :=
  let b := s.blob 0x2200_04
  let i := 4 * (cause - 1)
  s.setBlob 0x2200_04 (b.take i ++ leBytes 4 (fieldAt b i 4 + 1) ++ b.drop (i + 4))

/-! ### Key/value pages (R307-R311) -/

/-- Stacks in service. -/
def stacksUp (s : State) : Nat := ((List.range 8).filter fun n => s.unitUp 3 n).length

/-- The pages of the pool: its shares on the stacks in service, an eighth each (R307, R504; log entry 112). -/
def kvPages (s : State) : Nat := poolBytes s / 65536 * stacksUp s / 8

/-- Pages held or reserved. -/
def kvUsed (s : State) : Nat :=
  s.sessions.foldl (fun a x => a + x.pages) 0 + s.requests.foldl (fun a r => a + r.pages) 0

/-- The pages that keys and values of a number of positions take (R307): one page holds those of one layer for P positions. -/
def kvNeed (k : KvShape) (positions : Nat) : Nat :=
  let bytes := ceilDiv k.width 128 * fmtRowBytes k.format
  2 * k.layers * ceilDiv positions (max (65536 / max bytes 1) 1)

/-- The session position of a request's first token (R313, R483): before its first step, the length of its session's history,
which an earlier request of the session may have extended since the commit (log entry 92). -/
def startOf (s : State) (r : Request) : Nat :=
  if r.nextIndex ≠ 0 then r.startPos
  else ((r.session.bind fun n => s.sessions.find? fun x => x.num == n).map fun x => x.history.length).getD r.startPos

/-- The positions for which a request reserves pages (R308): its session's history, its prompt and MAX_TOKENS further ones, or
its input. -/
def kvPositions (s : State) (r : Request) : Nat :=
  if r.service = 1 then
    ((r.session.bind fun n => s.sessions.find? fun x => x.num == n).map fun x => x.history.length).getD r.startPos
      + r.prompt.length + r.maxTokens
  else r.prompt.length

/-- The next session that eviction takes (R308). -/
def kvVictim (s : State) (context : Nat) : Option Session :=
  let best := fun (l : List Session) => l.foldl (fun (a : Option Session) x => match a with
    | none => some x
    | some y => if x.lastAt < y.lastAt || (x.lastAt == y.lastAt && x.num < y.num) then some x else a) none
  let idle := s.sessions.filter fun x => x.state == .idle
  (best (idle.filter fun x => x.context != context)).or (best idle)

def evictSession (s : State) (n : Nat) : State :=
  (modSession s n fun x => { x with state := .evicted, pages := 0, lineage := [] }).inc 0x6010_07

/-- Sessions evicted until `need` pages more are free, and whether they then are; where they cannot be, every IDLE session has
been evicted (R308, R309). -/
def evictFor (context need : Nat) : Nat → State → State × Bool
  | 0, s => (s, false)
  | k + 1, s =>
    if kvUsed s + need ≤ kvPages s then (s, true) else
    match kvVictim s context with
    | none => (s, false)
    | some x => evictFor context need k (evictSession s x.num)

/-- The session of a request. -/
def sessionFor (s : State) (r : Request) : Option Session := r.session.bind fun n => s.sessions.find? fun x => x.num == n

/-- The session that is to hold a request's pages: a generation request's own (R308); none where the request itself holds them, the
pages of an embedding or a scoring input. -/
def pageHolder (s : State) (r : Request) : Option Session := if r.service = 1 then sessionFor s r else none

/-- The lineage of a request's session names a copy that its context no longer holds (R311). -/
def staleLineage (s : State) (r : Request) : Bool :=
  !r.wasReplayed && match sessionFor s r with
    | some x => x.lineage.any fun c => ((getCtx s r.context).holding c.2).isNone
    | none => false

/-- Pages and lineage of a request's session, set. -/
def setLineage (s : State) (r : Request) (pages : Nat) (lineage : List (Nat × Nat)) : State :=
  match r.session with
  | some n => modSession s n fun x => { x with pages := pages, lineage := lineage }
  | none => s

/-- The pages a request runs with: its own and, for a generation request, its session's. -/
def pagesOf (s : State) (r : Request) : Nat := r.pages + ((pageHolder s r).map fun x => x.pages).getD 0

/-- Pages reserved for a request on the stacks that its graph names (R307, R308), and whether the pool could supply them. -/
def reservePages (s : State) (r : Request) (pages : Nat) (onStacks : List Nat) : State × Bool :=
  let have_ := pagesOf s r
  if r.service = 2 ∨ pages ≤ have_ then (s, true) else
  match evictFor r.context (pages - have_) 65537 s with
  | (s, false) => (s, false)
  | (s, true) =>
    let s := { s with kvRaised := false }
    match pageHolder s r with
    | some x => (modSession s x.num fun x => { x with pages := pages, onStacks := onStacks }, true)
    | none => (modRequest s r.jsn fun r => { r with pages := pages }, true)

/-- Refusal under R309: its retry-after, KV_SHORT at the first. -/
def refuseKv (s : State) (r : Request) (pages : Nat) : State :=
  let certs := (s.tasks.filter fun t => t.cls != .fill && (match findRequest s t.jsn with
    | some q => decide (0 < pagesOf s q)
    | none => false)).map fun t => ticksUntil s t.cert
  let retry := certs.foldl min (certs.headD 0)
  let s := if s.kvRaised then s else
    { s with kvRaised := true }.raise 0x6011 0xFF (leBytes 2 r.context ++ leBytes 4 pages)
  endRequest s r.jsn 15 0 retry 0

/-! ### Admission (R278) -/

/-- The input of a task's request, which a stream may carry (R220, R293). -/
def inputOfTask (s : State) (jsn : Nat) : Bytes := ((findRequest s jsn).map fun r => r.input).getD []

/-- A stream described and its pool carved (R222, R229, R230). One that carries the input of the task's request has all of it to
push, as one buffer with tag 0 (log entry 134). -/
def openStream (s : State) (task jsn : Nat) (cls : Cls) (d : StreamDesc) : State :=
  let d := { withLag s d with task := task, cls := cls }
  let r := fun (e : Nat × Nat) => ({ engine := e.1, queue := e.2, inGroup := true, lag := 0, window := 0, unsent := [], sent := [] } : Receiver)
  let x : Stream := {
    desc := d, receivers := d.receivers.map r, nextBlock := d.poolBase, nextSerial := 0, bufs := [], ready := [],
    starvedAt := none, wants := false, source := none, incoming := [],
    arrived := if d.input then [(0, inputOfTask s jsn)] else [], granted := false, inner := none }
  { s with streams := s.streams ++ [x] }

def admittedOid : Cls → Nat
  | .slot => 0x2200_01
  | .stream => 0x2200_02
  | .fill => 0x2200_03

/-- SLACK_MIN (R290, R612): the least of the slacks, in ticks as S32, at the end of its range where one lies outside. -/
def noteSlack (s : State) (slack : Int) : State :=
  s.record 0x2200_0B (unsignedOf 32 (max (-(2 ^ 31)) (min (2 ^ 31 - 1) slack))) fun a b => signedOf 32 a < signedOf 32 b

/-- A task admitted with its plan: reservations, streams, feed-forward, counts. The owner of a gang task numbers it
(R456). -/
def admitTask (s : State) (g : TaskGraph) (cls : Cls) (bound : Nat) (p : Plan) (gang : Option (Nat × List Nat)) (ordinal : Nat) :
    State :=
  let gt := myOrdinal s + 256 * (s.gang.nextGang % 2 ^ 24)
  let owner := gang.isNone && !g.parts.isEmpty
  let gang := if owner then some (gt, g.parts.map fun p => p.1) else gang
  let t : Task := {
    num := g.task, jsn := g.jsn, cls := cls, context := g.context, copy := g.copy, graph := g, order := s.nextOrder,
    start := p.start, cert := p.cert, bound := bound, vflags := 0, unitFlags := [], progressAt := s.up, gang := gang,
    ordinal := ordinal, inexact := false, checks := p.checks, items := p.items, path := p.path, output := [], sampled := [] }
  let fresh := fun (q : CmdQueue) => if q.discard = some g.task then { q with discard := none } else q
  let s := { s with
    tasks := s.tasks ++ [t]
    nextOrder := s.nextOrder + 1
    engines := s.engines.map fun (e : Engine) => (e.withOwn true (fresh e.prio)).withOwn false (fresh e.fill) }
  let s := g.streams.foldl (fun s d => openStream s g.task g.jsn cls d) s
  let s := s.inc (admittedOid cls)
  let s := if cls = .fill then s else noteSlack s (stampDiff p.cert bound)
  let s := placeAll (setTables s (s.tables ++ p.made))
  if owner then modGang s fun q => { q with nextGang := q.nextGang + 1 } else s

/-- Blocks that the task reads are damaged in its copy (R213). -/
def needsDamaged (s : State) (g : TaskGraph) (copy : Nat) : Bool :=
  match (getCtx s g.context).holding copy with
  | some b => g.blocks.any fun k => ((getCtx s g.context).slot b).damaged.contains k
  | none => false

/-- A request that has not begun (R184): its context must serve it. A later token step of one that has begun goes on. -/
def Request.unbegun (r : Request) : Bool := !r.wasReplayed && r.tokens.isEmpty

/-- The copy that a request's next task reads (R204, R209, R490). -/
def copyToRead (s : State) (r : Request) : Nat :=
  if r.wasReplayed then r.copyFor r.nextIndex else ((getCtx s r.context).currentCopy).getD 0

/-- The pages of a request that passes R278 reserved, those of a stale lineage released first (R308, R311), and its task admitted; or
refused for want of pages, with its session as it was (R309). -/
def admitPlanned (s : State) (r : Request) (g : TaskGraph) (bound : Nat) (p : Plan) : State :=
  let old := sessionFor s r
  let stale := staleLineage s r
  let pages := kvNeed g.kv (kvPositions s r)
  match reservePages (if stale then setLineage s r 0 [] else s) r pages g.kv.onStacks with
  | (s, false) =>
    refuseKv (match old with
      | some x => if stale then setLineage s r x.pages x.lineage else s
      | none => s) r pages
  | (s, true) =>
    let s := modRequest s r.jsn fun q =>
      { q with phase := .running, targetBase := r.targetBase, rebased := r.rebased, startPos := r.startPos }
    admitTask s { g with copy := copyToRead s r, context := r.context } r.cls bound p none (myOrdinal s)

/-- The task of a request judged on the engines in service and admitted, refused, or left waiting for a repair. A slot-class replay that fails a check
cannot be certified for its deadline: it ends as deadline-missed (R283). -/
def admitRequest (s : State) (r : Request) (g : TaskGraph) : State :=
  let r := if r.wasReplayed && !r.rebased then { r with targetBase := s.now, rebased := true } else r
  let r := { r with startPos := startOf s r }
  let bound := boundOf r r.cls
  let g := graphOn s g
  if r.unbegun && (getCtx s r.context).state != .serving then endRequest s r.jsn 3 0 0 0
  else if needsDamaged s { g with context := r.context } (copyToRead s r) then
    modRequest s r.jsn fun r => { r with phase := .held, damagedAt := some s.up }
  else match judgeTask s g r.cls bound with
    | .refused cause retry =>
      if r.wasReplayed && r.cls == .slot then missDeadline s r.jsn
      else endRequest (countRefusal s cause) r.jsn 2 cause retry 0
    | .plan p => admitPlanned s r g bound p

/-- TASK_ADMISSION (R277, R278): the control cores admit or refuse one task: that of the next request in order, or
background work of fill class, which belongs to none and, while it would read a damaged block of its copy, is not admitted (R213). -/
def execTaskAdmission (graph : TaskGraph) (s : State) : Host.Outcome State Fault Refusal :=
  if s.node != .serving || s.quiesce != 0 || (findTask s graph.task).isSome then .next s else
  match findRequest s graph.jsn with
  | none =>
    if graph.cls != .fill || needsDamaged s graph (((getCtx s graph.context).currentCopy).getD 0) then .next s else
    match judgeTask s (graphOn s graph) .fill 0 with
    | .refused cause _ => .next (countRefusal s cause)
    | .plan p => .next (admitTask s (graphOn s graph) .fill 0 p none (myOrdinal s))
  | some r =>
    match nextRequest s with
    | some q => if q.jsn = r.jsn then .next (rearmBusy (admitRequest s r graph)) else .next s
    | none => .next s

/-! ### Aborts (R243, R478) -/

/-- What follows an abort of each cause (R478). -/
def abortAfter : AbortCause → AfterAbort
  | .planeRefused => .replay
  | .conversionRefused => .complete 8
  | .slotProgram => .complete 9
  | .saturation => .complete 10
  | .cmdMalformed => .complete 9
  | .nonFinite => .complete 11
  | .jigFault => .complete 9
  | .actMalformed => .replay
  | .uncorrectable => .replay
  | .stall => .replay
  | .retryBudget => .replay
  | .wideSuspect => .replay
  | .facetLost => .newTarget
  | .lateWait => .replay
  | .certificate => .newTarget
  | .gang => .replay
  | .withdrawn => .replay
  | .copyMissing => .held

/-- The symbols, runs and heads of every facet settled after a change that touched many. -/
def settleAllFacets (s : State) : State := (List.range 32).foldl settleFacet s

/-- TASK_ABORT (R243): the whole task is aborted; its request is replayed or completed as the cause's rule says. -/
def execTaskAbort (task : BitVec 16) (cause : AbortCause) (s : State) : Host.Outcome State Fault Refusal :=
  .next (settleAllFacets (abortTask s task.toNat (abortAfter cause) (match cause with
    | .gang => 0
    | _ => 256)))

/-! ### Batches (R204-R211) -/

/-- The mitre point (R205): the copy of the pending switch becomes CURRENT, the one before it DRAINING. DESIGN CHOICE (log entry
129): MITRE gives FFFFFFFFh for the batch where the point came without one. -/
def mitre (s : State) (n : Nat) (batch : Option Nat) : State :=
  let c := getCtx s n
  match c.pendingTo with
  | none => s
  | some b =>
    let old := c.currentCopy.getD 0
    let drain := fun (x : CopySlot) => if x.state = .current then { x with state := .draining } else x
    let c1 := { c with slotA := drain c.slotA, slotB := drain c.slotB, pendingTo := none, notBefore := none,
                       state := if c.state = CtxState.registered then CtxState.serving else c.state }
    let x := c1.slot b
    let s := setCtx s n (c1.setSlot b { x with state := .current })
    let s := (s.inc 0x5000_07).raise 0x5014 0xFF
      (ctxData n b x.copyId ++ leBytes 4 old ++ leBytes 4 (batch.getD 0xFFFFFFFF) ++ leBytes 8 s.stamp)
    settleCtx s n

/-- The pending switch of a context has reached its NOT_BEFORE. -/
def mitreDue (s : State) (c : Ctx) : Bool :=
  c.pendingTo.isSome && (match c.notBefore with
    | some t => !stampBefore s.now t
    | none => true)

/-- Contexts without a CURRENT copy reach their mitre point at NOT_BEFORE itself (R205). -/
def timedMitres (s : State) : State :=
  (s.contexts.map Prod.fst).foldl (fun s n =>
    let c := getCtx s n
    if c.currentCopy.isNone && mitreDue s c then mitre s n none else s) s

/-- The copy that a task's batch must have: the copy that BATCH carried for a part of another device's task (R208), that
of its record for a replay, else the CURRENT one (R204, R490). -/
def batchCopy (s : State) (current : Nat) (t : Task) : Nat :=
  if t.gang.any fun g => g.1 % 256 != t.ordinal then t.copy else
  match findRequest s t.jsn with
  | some r => if r.wasReplayed then r.copyFor r.nextIndex else current
  | none => current

/-- The pages of a replay after a restart or an adoption rebuilt (R491): on the copy that its PREFILL entry names, else on those
of the LINEAGE entries. -/
def rebuiltLineage (s : State) (r : Request) (x : Session) : List (Nat × Nat) :=
  match r.prefilled with
  | some p => [(0, p.2.2)]
  | none => (x.record.map (recordLineage s.journal.own)).getD []

/-- A request's record takes the copy of its batch where it changes (R209, R485), and its re-prefill (R310, R311); a replay from
the record repeats the re-prefill that the record gives (R491). -/
def recordCopy (s : State) (r : Request) (copy : Nat) : State :=
  let k := r.nextIndex
  let s := if r.copyFor k = copy then s else
    modRequest (jNote s [mkEntry 4 0 0 r.jsn (leBytes 4 k ++ leBytes 4 copy)]) r.jsn fun r =>
      { r with copies := (r.copies.filter fun c => c.1 < k) ++ [(k, copy)] }
  match r.session.bind fun n => s.sessions.find? fun x => x.num == n with
  | none => s
  | some x =>
    if x.history.isEmpty || !x.lineage.isEmpty then s
    else if r.rebuilt && !(rebuiltLineage s r x).isEmpty then
      modRequest (modSession s x.num fun x => { x with lineage := rebuiltLineage s r x }) r.jsn fun r => { r with rebuilt := false }
    else
    let n := x.history.length
    let s := jNote s [mkEntry 5 0 0 r.jsn (leBytes 4 0 ++ leBytes 4 n ++ leBytes 4 copy)]
    let s := match x.record with
      | some k => jNote (jFree s fun e => e.kind == 9 && e.jsn == k) [mkEntry 9 0 0 k (leBytes 4 0 ++ leBytes 4 copy)]
      | none => s
    (modRequest (modSession s x.num fun x => { x with lineage := [(0, copy)] }) r.jsn fun r =>
      { r with prefilled := some (0, n, copy), rebuilt := false }).inc 0x6010_08

/-- The task is a token step of a generation request. -/
def tokenStep (s : State) (t : Task) : Bool :=
  match findRequest s t.jsn with
  | some r => r.service == 1
  | none => false

/-- The token steps that a batch takes on a copy, given those that BATCH_ISSUE names: with one of them go those of every session of
the context that are ready and run on the copy, in order of admission, up to the batch size of the first one's graph (R312). -/
def gatherSteps (s : State) (context current copy : Nat) (named : List Task) : List Task :=
  match named with
  | [] => []
  | t :: _ =>
    let ready := s.tasks.filter fun u => u.context == context && tokenStep s u && batchCopy s current u == copy
      && !(s.batches.any fun b => b.tasks.contains u.num) && !(named.any fun v => v.num == u.num)
    (named ++ ready).take (max t.graph.batchMax 1)

/-- The tasks that BATCH_ISSUE names, of its context and in no batch. -/
def namedTasks (s : State) (context : Nat) (tasks : List Nat) : List Task :=
  let free := fun (t : Nat) => !s.batches.any fun b => b.tasks.contains t
  (tasks.filter free).filterMap fun t => (findTask s t).bind fun t => if t.context = context then some t else none

/-- The tasks of a new batch on a copy: those named that need it, with the token steps of R312. -/
def batchTasks (s : State) (context current copy : Nat) (named : List Task) : List Task :=
  let mine := named.filter fun t => batchCopy s current t == copy
  (mine.filter fun t => !tokenStep s t) ++ gatherSteps s context current copy (mine.filter (tokenStep s))

/-! ### Parts of gang tasks (R462) -/

/-- The number that no request bears: parts of gang tasks belong to requests of other devices. -/
def noRequest : Nat := 2 ^ 32

/-- A part of a gang task at an ordinal judged on the engines in service and admitted, or refused with the cause of R279 (R462); the
copy it carries must be held, and what it reads of it not damaged (R208, R213). Stream credits for its streams from other devices are
granted (R459). -/
def admitPart (s : State) (gt ord : Nat) (g : TaskGraph) (model stage copy bound : Nat) : State :=
  let ctx := s.contexts.find? fun c => c.2.model == model && c.2.stage == stage && (c.2.holding copy).isSome
  match ctx with
  | none => refusePart (s.faultAborted true) gt ord 256
  | some (n, _) =>
    let g := graphOn s { g with jsn := noRequest, copy := copy, context := n, parts := [] }
    if needsDamaged s g copy then refusePart (s.faultAborted true) gt ord 256 else
    match judgeTask s g g.cls bound with
    | .refused cause _ => refusePart (countRefusal s cause) gt ord cause
    | .plan p =>
      let s := admitTask s g g.cls bound p (some (gt, [gt % 256])) ord
      (g.streams.filter fun d => d.producer == 0x48).foldl (fun s d =>
        (sendFreeing s none ord (gt % 256) 0x11 0 2
          (leBytes 2 (d.stream + d.eic * 1024) ++ leBytes 1 0 ++ leBytes 2 d.poolBlocks) []).getD s) s

/-- A BATCH consumed (R462): no part is taken outside Serving, nor under a task number in use. -/
def takeBatch (s : State) (gt ord : Nat) (g : TaskGraph) (model stage copy bound : Nat) : State :=
  if s.node ≠ .serving ∨ s.quiesce ≠ 0 ∨ (findTask s g.task).isSome then refusePart s gt ord 256
  else admitPart s gt ord g model stage copy bound

/-- BATCH to every other ordinal of a gang task that the device owns, with the copy of its batch (R208, R462): its payload
is packed in the order of R456 (log entry 29). A part at an ordinal that the device stands in for is its own to admit (R454). -/
def sendBatches (s : State) (t : Task) (copy : Nat) : State :=
  let c := getCtx s t.context
  match t.gang with
  | none => s
  | some (gt, _) =>
    if gt % 256 ≠ t.ordinal then s else
    t.graph.parts.foldl (fun s p =>
      if ownOrdinal s p.1 then
        takeBatch s gt p.1 { Config.partGraph p.2.2 with cls := t.cls } c.model c.stage copy p.2.1
      else sendPart s t.ordinal p.1 0x20 (leBytes 4 gt)
        (leBytes 4 c.model ++ leBytes 1 c.stage ++ leBytes 4 copy ++ leBytes 1 (clsCode t.cls) ++ leBytes 8 (stamp64 p.2.1)
          ++ leBytes 4 p.2.2)) s

/-- BATCH_ISSUE (R204-R207, R312): the mitre point of a pending switch; the batch is bound to the CURRENT copy, a batch of
replays to the copy its records name; tasks that need another copy do not join. -/
def execBatchIssue (context : BitVec 12) (batch : Nat) (tasks : List Nat) (s : State) : Host.Outcome State Fault Refusal :=
  let n := context.toNat
  let named := namedTasks s n tasks
  if s.batches.any (fun b => b.num == batch) || named.isEmpty || (getCtx s n).state == .unregistered then .next s else
  let s := if mitreDue s (getCtx s n) then mitre s n (some batch) else s
  let current := ((getCtx s n).currentCopy).getD 0
  let copy := (named.head?.map (batchCopy s current)).getD current
  let mine := batchTasks s n current copy named
  match (getCtx s n).holding copy with
  | none => .next (mine.foldl (fun s t => abortTask s t.num .held 256) s)
  | some b =>
    let s := modSlot s n b fun x => { x with batches := x.batches + 1 }
    let s := { s with batches := s.batches ++ [{ num := batch, context := n, copy := copy, tasks := mine.map fun t => t.num }] }
    .next (settleAll (mine.foldl (fun s t =>
      let s := sendBatches (modTask s t.num fun t => { t with copy := copy }) t copy
      match findRequest s t.jsn with
      | some r => recordCopy s r copy
      | none => s) s))

/-- A running request that was cancelled ends at the batch boundary (R318). -/
def endCancelled (s : State) (jsn : Nat) : State :=
  match findRequest s jsn with
  | some r => if r.cancel then endRequest s jsn 16 0 0 3 else s
  | none => s

/-- BATCH_END (R209): the batch count of the copy falls; the batch's tasks leave the scheduler; a DRAINING copy without
references is retired. -/
def execBatchEnd (batch : Nat) (s : State) : Host.Outcome State Fault Refusal :=
  match s.batches.find? fun b => b.num == batch with
  | none => .next s
  | some b =>
    let ts := b.tasks.filterMap (findTask s)
    let s := { s with batches := s.batches.filter fun c => c.num != batch }
    let s := match (getCtx s b.context).holding b.copy with
      | some k => modSlot s b.context k fun x => { x with batches := x.batches - 1 }
      | none => s
    let s := ts.foldl (fun s t => endCancelled (removeTask s t) t.jsn) s
    .next (settleCtx s b.context)

/-! ### Tokens (R302, R312-R315) -/

/-- A divergence (R302, R492): the request ends with RESULT 19; in a record that the device committed itself, the device
enters Safe with cause 6. -/
def diverged (s : State) (r : Request) (token : Nat) : State :=
  let k := r.nextIndex
  let s := (s.inc 0xB000_09).raise 0x6012 0xFF
    (leBytes 8 r.id ++ leBytes 4 k ++ leBytes 4 (r.tokens.getD k 0) ++ leBytes 4 token)
  let s := match s.tasks.find? fun t => t.jsn == r.jsn with
    | some t => abortTask s t.num (.complete 19) 256
    | none => endRequest s r.jsn 19 0 0 0
  if r.adopted then s else enterSafe s 6

/-- Why a token ends its request: 1 stop token, 2 MAX_TOKENS, 0 not. -/
def stopReason (r : Request) (token count : Nat) : Nat :=
  if r.stops token then 1 else if r.maxTokens ≤ count then 2 else 0

/-- The frame of a token (R298). -/
def tokenFrame (s : State) (r : Request) (k token stop : Nat) (inexact : Bool) : State :=
  respond s r k 1 (if stop = 0 then 0 else 1) 0 0 ((if stop = 0 then 0 else 1) + if inexact then 4 else 0) stop 0 (leBytes 4 token)

/-- IMM of the operations that sample a token (R312): its request's TOP_K, and 1 / TEMPERATURE in FP32. -/
def topKImm (r : Request) : Nat := r.hdr 22 2
def tempImm (r : Request) : Nat := (frecip (r.hdr 24 4)).1

/-- The position of token k of a request in its session's history (R313). -/
def Request.position (r : Request) (k : Nat) : Nat := r.startPos + r.prompt.length + k

/-- u of token k: g(s, n, 0) of its session's seed and its position (R313). -/
def tokenU (seed : Nat) (r : Request) (k : Nat) : Nat := gen seed (r.position k) 0

/-- What an opcode's operations gave for one token step of a batch, as pairs of IMM and index, oldest first. The rows of a task's
operations are those of the batch's token steps in the order of the batch; a task that has sampled one row has sampled its own
(log entry 128). -/
def ownRows (op row rows : Nat) (own : Bool) (l : List (Nat × Nat × List Nat)) : List (Nat × Nat) :=
  let all := ((l.filter fun e => e.1 == op).map fun e => e.2.2.map fun i => (e.2.1, i)).flatten
  if all.length = rows then (all.drop row).take 1 else if own && all.length == 1 then all else []

/-- The sampling operations of R312 have been made on a token step's own row, and the last of them gave the token: what the vector
units noted of one task of its batch. -/
def sampledAs (r : Request) (seed k token row rows : Nat) (own : Bool) (l : List (Nat × Nat × List Nat)) : Bool :=
  let made := fun (op imm : Nat) => l.any fun e => e.1 == op && e.2.1 == imm
  let drawn := (ownRows 0x59 row rows own l).contains (tokenU seed r k, token)
  match r.hdr 19 1 with
  | 0 => (ownRows 0x55 row rows own l).any fun e => e.2 == token
  | 1 => made 0x58 (topKImm r) && made 0x50 (tempImm r) && drawn
  | _ => made 0x50 (tempImm r) && drawn

/-- The seed of a request's session (R313). -/
def seedFor (s : State) (r : Request) : Nat :=
  match r.session.bind fun n => s.sessions.find? fun x => x.num == n with
  | some x => x.seed
  | none => seedOf (r.hdr 48 8) r.tag r.id

/-- The step of a request that a batch runs: its task. -/
def stepOf (s : State) (jsn : Nat) : Option Task :=
  s.tasks.find? fun t => t.jsn == jsn && s.batches.any fun b => b.tasks.contains t.num

/-- A token may be released (R31, R312): no drain of its step is unfinished, and the vector operations of a task of its batch gave it
from its own row; a gang task's token is sampled here as well, on the device that holds STAGE 0 (R293). -/
def tokenReady (s : State) (r : Request) (t : Task) (token : Nat) : Bool :=
  !(s.facets.toList.any fun x => x.drains.any fun d => d.task == t.num)
    && s.batches.any fun b => b.tasks.contains t.num &&
      let steps := b.tasks.filter fun n => (findTask s n).any (tokenStep s)
      b.tasks.any fun n => match findTask s n with
        | some u => sampledAs r (seedFor s r) r.nextIndex token (steps.findIdx fun k => k == t.num) steps.length (n == t.num) u.sampled
        | none => false

/-- A token step is over: the next one waits for admission, with the release stamp as the base of its target (R296). -/
def nextStep (s : State) (jsn : Nat) : State := awaitAdmission s jsn fun r => { r with targetBase := s.now }

/-- The token of a running step: appended to the record, then sent; while a replay regenerates recorded tokens they are compared
and sent again from the first unacknowledged one (R302). -/
def releaseToken (s : State) (r : Request) (t : Nat) (inexact : Bool) : State :=
  let jsn := r.jsn
  let k := r.nextIndex
  if k < r.tokens.length then
    if r.tokens.getD k 0 ≠ t then diverged s r t else
    let more := k + 1 < r.tokens.length
    let stop := if more then 0 else stopReason r t (k + 1)
    let s := modRequest s jsn fun r => { r with replayed := if more then some (k + 1) else none }
    let sent := match r.acked with
      | some a => decide (k ≤ a)
      | none => false
    if stop ≠ 0 then complete s r 1 fun s => if sent then s else tokenFrame s r k t stop inexact
    else nextStep (if sent then s else tokenFrame s r k t 0 inexact) jsn
  else
    let s := (jNote s [mkEntry 3 0 1 jsn (leBytes 4 k ++ leBytes 4 t)]).inc 0x6010_05
    let s := modRequest s jsn fun r => { r with tokens := r.tokens ++ [t], replayed := none }
    let stop := stopReason r t (k + 1)
    if stop ≠ 0 then complete s { r with tokens := r.tokens ++ [t] } 1 fun s => tokenFrame s r k t stop inexact
    else settleAll (modRequest (nextStep (tokenFrame s r k t 0 inexact) jsn) jsn fun r =>
      { r with wasReplayed := false, rebased := false })

/-- TOKEN_RELEASE (R302, R312): the token of a step that a batch runs, once it has been sampled; its append waits while MRAM writes
are held (R518). -/
def execTokenRelease (jsn : Nat) (token : BitVec 32) (inexact : Bool) (s : State) : Host.Outcome State Fault Refusal :=
  match findRequest s jsn, stepOf s jsn with
  | some r, some t =>
    if r.service ≠ 1 ∨ r.phase ≠ .running ∨ !tokenReady s r t token.toNat ∨ mramHeld s then .next s
    else .next (releaseToken s r token.toNat (inexact || t.inexact))
  | _, _ => .next s

/-! ### Repairs that do not come (R213) -/

/-- REPAIR_TIMEOUT (R213): requests that have waited 5000h.05 frames for a damaged block of a copy end with
COPY_DAMAGED. -/
def execRepairTimeout (context : BitVec 12) (slot : Bool) (s : State) : Host.Outcome State Fault Refusal :=
  let x := (getCtx s context.toNat).slot slot
  if x.damaged.isEmpty then .next s else
  let late := s.requests.filter fun r => r.context == context.toNat && (match r.damagedAt with
    | some t => decide (s.num 0x5000_05 * frameTicks ≤ s.since t)
    | none => false)
  .next (late.foldl (fun s r => endRequest s r.jsn 13 0 0 0) s)

end Sys2Proof.Machine
end

