-- ==== Sys2Proof/Machine/Outputs.lean ====
section
/-! DEFINITION. Outputs.lean: the analogue outputs (R550-R558): deglitchers and freezes, span changes, waveforms and triggers,
urgent requests, with the meanings of DEGLITCH_HOLD_END, SPAN_STEP and WAVE_SAMPLE. -/

namespace Sys2Proof.Machine

/-! ### Deglitchers (R550) -/

/-- DEGLITCH_HOLD_END: the new value is connected; a freeze keeps the output held. -/
def execDeglitchHoldEnd (o : Output) (s : State) : Host.Outcome State Fault Refusal :=
  let k := outKey o
  match (outOf s k).hold with
  | some c => .next (if frozen s then s else connectOut s k c)
  | none => .next s

/-! ### Urgent requests (R546) -/

def modConv (s : State) (c : Fin 4) (g : Conv → Conv) : State :=
  modAnalog s fun a => { a with convs := a.convs.set c (g a.convs[c]) }

/-- A converter takes an urgent request, its own requests ahead of the control node's; the conversion that runs is
aborted. A fifth request is refused (none), as is any request of a converter that is stopped. -/
def pushUrgent (s : State) (c : Fin 4) (r : UrgentReq) : Option State :=
  let v := s.analog.convs[c]
  if 4 ≤ v.urgent.length || v.stopped then none else
  let q := if r.own then (v.urgent.filter fun u => u.own) ++ [r] ++ v.urgent.filter fun u => !u.own else v.urgent ++ [r]
  let s := if v.urgentRunning then s else s.inc (fam 0x9000_08 c.val)
  let q := if v.urgentRunning then
      (match v.urgent with
        | u :: us => u :: (if r.own then (us.filter fun u => u.own) ++ [r] ++ us.filter fun u => !u.own else us ++ [r])
        | [] => q)
    else q
  some (modConv s c fun v => { v with urgent := q, urgentRunning := true })

/-! ### External outputs (R550, R556) -/

def aoutCodeOid (k : Nat) : Nat := fam 0x9100_01 k
def aoutSpanOid (k : Nat) : Nat := fam 0x9100_02 k

def modExt (s : State) (k : Fin 16) (g : ExtOut → ExtOut) : State :=
  modAnalog s fun a => { a with exts := a.exts.set k (g a.exts[k]) }

/-- The code for 0 V in a span: bipolar 1 and 3, unipolar 0 and 2. -/
def zeroCode (span : Nat) : Nat := if span % 2 = 1 then 0x8000 else 0

/-- The voltage of an external output in units of 5 V / 65,536. -/
def extVolts (span code : Nat) : Int :=
  match span with
  | 0 => code
  | 1 => 2 * ((code : Int) - 32768)
  | 2 => 2 * code
  | _ => 4 * ((code : Int) - 32768)

/-! ### Waveforms (R554, R555) -/

/-- A descriptor of WAVE_TABLE. -/
structure WaveDesc where
  start : Nat
  length : Nat
  step : Nat
  form : Nat
  loops : Nat
  deriving DecidableEq, Repr

def waveDesc (table : Bytes) (w : Nat) : WaveDesc :=
  let b := table.drop (8 * w)
  { start := fieldAt b 0 2, length := fieldAt b 2 2, step := fieldAt b 4 2, form := fieldAt b 6 1, loops := fieldAt b 7 1 }

def WaveDesc.ok (d : WaveDesc) : Bool :=
  1 ≤ d.length && d.length ≤ 16384 && d.start + d.length ≤ 16384 && 32 ≤ d.step && d.form < 2 && 1 ≤ d.loops

def waveOf (s : State) (w : Nat) : WaveDesc := waveDesc (s.blob 0x9120_02) w

/-- Sample i of a waveform. -/
def waveSample (s : State) (d : WaveDesc) (i : Nat) : Int := signedOf 16 (fieldAt (s.blob 0x9120_01) (2 * (d.start + i)) 2)

/-- The instant of a playback's next sample, and of its end after the last. -/
def Playback.due (p : Playback) (d : WaveDesc) : Nat := (p.start + d.step * (p.loop * d.length + p.next)) % stampPeriod

def reached (s : State) (t : Nat) : Bool := !stampBefore s.now t

/-- RNE(SCALE × sample) for a finite SCALE. -/
def scaleSample (scale : Nat) (x : Int) : Int :=
  match fl32 scale with
  | .fin neg m e => let r := flRat neg m e; rneDiv (r.1 * x) r.2
  | _ => 0

/-- The code that a sample plays on an external output, and whether it was clamped. -/
def sampleCode (s : State) (k : Nat) (d : WaveDesc) (scale : Nat) (x : Int) : Nat × Bool :=
  let v := if d.form = 0 then x + 0x8000 else (s.num (aoutCodeOid k) : Int) + scaleSample scale x
  let c := max 0 (min 65535 v)
  (c.toNat, decide (c ≠ v))

def playCode (s : State) (k : Fin 16) (c : Nat × Bool) : State :=
  let s := if c.2 then s.inc 0x9120_06 else s
  if s.analog.exts[k].step = 0 then setOut s k.val c.1 else s

/-- The playback that runs on an output. -/
def playingOn (s : State) (key : Nat) : Option Playback := s.analog.plays.find? fun p => p.out == key && p.running

/-- A write of CODE (R555, R556): taken at step 4 of a span change, at the end of an absolute playback, or at once, as the
new base of an offset playback where one runs. -/
def aoutCode (s : State) (k : Fin 16) (v : Nat) : State :=
  let s := modExt (s.setNum (aoutCodeOid k.val) v) k fun e => { e with service := true }
  if s.analog.exts[k].step ≠ 0 then s else
  match playingOn s k.val with
  | none => setOut s k.val v
  | some p =>
    let d := waveOf s p.wave
    if d.form = 0 then s
    else playCode s k (sampleCode s k.val d p.scale (waveSample s d ((p.next + d.length - 1) % max d.length 1)))

/-- Step 1 of a span change: 0 V in the span in force; a playback that runs is stopped. -/
def spanStart (s : State) (k : Fin 16) (v : Nat) : State :=
  let s := modAnalog s fun a => { a with plays := a.plays.filter fun p => !(p.out == k.val && p.running) }
  let s := modExt s k fun e => { e with step := 1, toSpan := v, service := true }
  setOut s k.val (zeroCode s.analog.exts[k].span)

/-- A write of SPAN, of the value in force too (R556). -/
def spanWrite (s : State) (k : Fin 16) (v : Nat) : State := spanStart (s.setNum (aoutSpanOid k.val) v) k v

/-- SPAN_STEP (R556, R558): the wait of step 1 or the hold of step 2 is over. Step 2 switches the span; steps 3 and 4
release 0 V in the new span, apply CODE and ask for the read-back. In a freeze the sequence is paused. -/
def execSpanStep (k : Fin 16) (s : State) : Host.Outcome State Fault Refusal :=
  let e := s.analog.exts[k]
  if frozen s || e.step == 0 then .next s
  else if e.step = 1 then .next (modExt s k fun e => { e with step := 2, span := e.toSpan })
  else
    let s := connectOut (modExt s k fun e => { e with step := 0 }) k.val (zeroCode e.toSpan)
    let s := setOut s k.val (s.num (aoutCodeOid k.val))
    .next ((pushUrgent s 3 { channel := 202 + k.val, gain := 0, short := false, own := true }).getD s)

/-- The release of a freeze: outputs, and the step of a span change that was paused, start again (R551, R556). -/
def releaseFreeze (s : State) : State :=
  if frozen s then s else
  (List.finRange 16).foldl (fun s k =>
    if s.analog.exts[k].step = 1 then setOut s k.val (zeroCode s.analog.exts[k].span) else s) (releaseOuts s)

/-- A trigger of an external output (R555): its TRIGGER_RESULT. -/
def triggerOut (s : State) (v : Bytes) : Nat × State :=
  let k := fieldAt v 8 1
  let w := fieldAt v 9 1
  let finite := match fl32 (fieldAt v 12 4) with
    | .fin .. => true
    | _ => false
  match stampTicks (fieldAt v 0 8) with
  | none => (2, s)
  | some t =>
    if 15 < k ∨ 31 < w ∨ fieldAt v 10 2 ≠ 0 ∨ !finite ∨ !(waveOf s w).ok then (2, s)
    else if 4 ≤ (s.analog.plays.filter fun p => p.out == k && !p.running).length then (1, s)
    else (0, addPlay s k w (fieldAt v 12 4) t false)

/-- The next position of a playback after a sample. -/
def Playback.advance (p : Playback) (d : WaveDesc) : Playback :=
  if p.next + 1 < d.length then { p with next := p.next + 1, running := true }
  else { p with next := 0, loop := p.loop + 1, running := true }

/-- One sample of an external output: a pending trigger whose stamp has come replaces the playback that runs; after the
last sample's time the output returns to CODE. -/
def sampleExternal (s : State) (k : Fin 16) : State :=
  let mine := fun (p : Playback) => p.out == k.val
  let due := fun (p : Playback) => reached s (p.due (waveOf s p.wave))
  let first := s.analog.plays.find? fun p => mine p && !p.running && due p
  match first.orElse fun _ => s.analog.plays.find? fun p => mine p && p.running && due p with
  | none => s
  | some p =>
    let d := waveOf s p.wave
    let rest := s.analog.plays.filter fun q => q != p && !(mine q && q.running)
    if d.loops ≤ p.loop then
      let s := modAnalog s fun a => { a with plays := rest }
      if s.analog.exts[k].step = 0 then setOut s k.val (s.num (aoutCodeOid k.val)) else s
    else
      let s := modAnalog s fun a => { a with plays := rest ++ [p.advance d] }
      playCode (modExt s k fun e => { e with service := true }) k (sampleCode s k.val d p.scale (waveSample s d p.next))

/-- A heater code that the region loop drives: the manual gives no model of the loop or of the power table, so it is free
(log entry 4). -/
def freeHeater (s : State) (key : Nat) : State :=
  let (c, s) := s.drawNat 16384
  setOut s key c

/-- The playback of a list that started first. -/
def oldestPlay (l : List Playback) : Option Playback :=
  l.foldl (fun a p => match a with
    | none => some p
    | some q => if stampBefore p.start q.start then some p else a) none

/-- The two playbacks of a list that started last (R555). -/
def newestTwo : Nat → List Playback → List Playback
  | 0, l => l
  | n + 1, l => if l.length ≤ 2 then l else match oldestPlay l with
    | some p => newestTwo n (l.erase p)
    | none => l

/-- The playbacks of a region heater once those that are due have played a sample: a playback that starts counts in FF_TRIGGERS,
and of three that run the oldest ends (R347, R555). -/
def playHeater (s : State) (key : Nat) (due : List Playback) : State :=
  let starts := due.filter fun p => !p.running
  let plays := s.analog.plays.filterMap fun p =>
    if due.contains p then
      let d := waveOf s p.wave
      if d.loops ≤ p.loop then none else some (p.advance d)
    else some p
  let mine := plays.filter fun p => p.out == key && p.running
  let stay := newestTwo mine.length mine
  (modAnalog s fun a => { a with plays := plays.filter fun p => !mine.contains p || stay.contains p }).add 0x7300_07 starts.length

/-- One sample of each playback that is due on a region heater: their sum adds to the loop's drive; whether the sum is
clamped is free with it. -/
def sampleRegion (s : State) (key : Nat) : State :=
  let due := s.analog.plays.filter fun p => p.out == key && reached s (p.due (waveOf s p.wave))
  if due.isEmpty then s else
  let s := freeHeater (playHeater s key due) key
  let (c, s) := s.drawBool
  if c then s.inc 0x9120_06 else s

/-- WAVE_SAMPLE (R347, R554, R555): the next sample due on an output; a ring heater plays no waveform. -/
def execWaveSample (o : Output) (s : State) : Host.Outcome State Fault Refusal :=
  match o with
  | .external k => .next (sampleExternal s k)
  | .region f r => .next (sampleRegion s (heaterKey f.val r.val))
  | .ring _ _ _ => .next s

end Sys2Proof.Machine
end

