-- ==== Sys2Proof/Machine/MemOps.lean ====
section
/-! DEFINITION. MemOps.lean: what becomes of the data of a code word that cannot be corrected (R365, R378), as shared
operations. -/

namespace Sys2Proof.Machine

/-- A cache place emptied; false where the place caches nothing. -/
def emptyCache (s : State) (n place : Nat) : State × Bool :=
  let l := (s.cache[n]?).getD []
  if l.any fun e => e.2 == place then
    ({ s with cache := s.cache.setIfInBounds n (l.filter fun e => e.2 != place) }, true)
  else (s, false)

/-- What becomes of the data of an uncorrectable shelf word: the action and the context of R379. -/
def shelfData (s : State) (n place : Nat) : State × Nat × Nat :=
  match pinAt s n place with
  | some (c, b, p) => (damageCopy s c b (pinBlocks ((getCtx s c).slot b) p), 2, c)
  | none =>
    match ((s.cache[n]?).getD []).find? fun e => e.2 == place with
    | some e => ((emptyCache s n place).1, 5, e.1.context)
    | none => (s, 4, 0xFFFF)

/-- A confirmed uncorrectable error on a word of a shelf: its line is listed (R375). -/
def noteShelfBad (s : State) (n address kind task : Nat) : State :=
  let s := s.inc (uncorrectableOid .shelf n)
  let (s, a, ctx) := shelfData s n (address / recordBytes)
  let s := listLine s n (lineOf address)
  memEvent (logError s .shelf n kind 0xFF address a task ctx) .shelf n kind address a

/-- A confirmed uncorrectable error on a word of HBM3E: its unit qualifies (R370). -/
def noteHbmBad (s : State) (n address kind task action ctx : Nat) : State :=
  let s := s.inc (uncorrectableOid .hbm n)
  let s := qualifyUnit s n (address / unitBytes)
  memEvent (logError s .hbm n kind 0xFF address action task ctx) .hbm n kind address action

/-- The context of a task's data for an error record (R379); FFFFh unknown. -/
def contextOf (s : State) (task : Nat) : Nat := ((findTask s task).map fun t => t.context).getD 0xFFFF

/-- A word of the accumulator, staging or vector store memories that cannot be corrected on a read by a task. -/
def noteTaskBad (s : State) (m : MemKind) (unit address task : Nat) : State :=
  let s := s.inc (uncorrectableOid m unit)
  memEvent (logError s m unit 3 0xFF address 1 task (contextOf s task)) m unit 3 address 1

end Sys2Proof.Machine
end

