-- ==== Sys2Proof/Machine/Heads.lean ====
section
/-! DEFINITION. Heads.lean: what the head of a command queue comes to (R146-R166): popping, malformed commands, commands
without a binding, the sharing of the shadow and preemption, trees, as shared operations. -/

namespace Sys2Proof.Machine

/-! ### The head of a queue -/

/-- The opcodes that an engine accepts (R147): facet sequencers 0-31, vector units 32-63. -/
def acceptedBy (e op : Nat) : Bool :=
  if e < 32 then [0x01, 0x02, 0x03, 0x10, 0x20, 0x21, 0x22, 0x24, 0x30, 0x31].contains op
  else op == 0x01 || op == 0x30 || op == 0x31 || (decide (0x40 ≤ op) && decide (op ≤ 0x5B))

/-- The head leaves its queue, begun, which is progress of its task (R246). -/
def takeCmd (s : State) (e : Nat) (prio : Bool) : State :=
  let s := match ((engineN s e).queue prio).binding with
    | some b => touch s b.task
    | none => s
  modQueue s e prio fun q =>
    { q with cmds := q.cmds.drop 1, popped := q.popped + 1, waitAt := none, drainWait := none, pushing := none }

/-- A command of facet f is complete (R178). -/
def countCmd (s : State) (f : Nat) : State := s.inc (fam 0x3700_02 f)

/-- The head leaves its queue, complete: counted in CMDS_EXECUTED of a facet, a vector operation in VEC_OPS (R178, R180). -/
def popCmd (s : State) (e : Nat) (prio : Bool) : State :=
  let vec := match headOf s e prio with
    | some w => decide (0x40 ≤ cmdOp w)
    | none => false
  let s := takeCmd s e prio
  if e < 32 then countCmd s e else if vec then s.inc (fam 0x3900_01 (e - 32)) else s

/-- The head waits: the clock of its first waiting is kept. -/
def markWait (s : State) (e : Nat) (prio : Bool) : State :=
  modQueue s e prio fun q => { q with waitAt := some (q.waitAt.getD s.up) }

/-- Ticks the head has waited. -/
def waited (s : State) (e : Nat) (prio : Bool) : Nat :=
  match ((engineN s e).queue prio).waitAt with
  | some t => s.up - t
  | none => 0

/-- Commands of an aborted task that no task record covers leave their queue all the same. -/
def dropTask (s : State) (e : Nat) (prio : Bool) (n : Nat) : State := modEngine s e fun x => x.mapAll prio (clearQueue n)

/-! ### Malformed commands (R148, R166) -/

def cmdErrors (s : State) (e n : Nat) (w : BitVec 128) (cause : Nat) : State :=
  if e < 32 then (s.add (fam 0x3700_07 e) n).setNum (fam 0x3700_08 e) (cmdOp w + cause * 256)
  else s.add (fam 0x3900_05 (e - 32)) n

def malformedEvent (s : State) (e context copy task : Nat) (w : BitVec 128) (cause position : Nat) : State :=
  s.raise 0x3040 (e % 32)
    (leBytes 1 e ++ leBytes 2 context ++ leBytes 4 copy ++ leBytes 2 task ++ leBytes 1 (cmdOp w) ++ leBytes 1 cause
      ++ leBytes 4 position)

/-- A malformed command: counted, told, its task aborted and not replayed. -/
def malformed (s : State) (e : Nat) (prio : Bool) (w : BitVec 128) (b : Binding) (cause : Nat) : State :=
  let s := malformedEvent (cmdErrors s e 1 w cause) e b.context b.copy b.task w cause ((engineN s e).queue prio).popped
  dropTask (abortTask s b.task (.complete 9) 256) e prio b.task

/-- Commands without a binding are discarded up to the next BIND; one event for all of them (R148). It carries context 0 and
copy ID 0, which R181 asks for and such a command does not have (DESIGN CHOICE, log entry 121). -/
def discardUnbound (s : State) (e : Nat) (prio : Bool) (w : BitVec 128) : State :=
  let q := (engineN s e).queue prio
  let n := (q.cmds.takeWhile fun c => cmdOp c != 1).length
  let s := cmdErrors s e n w 10
  let s := if q.unbound then s else malformedEvent s e 0 0 0xFFFF w 10 q.popped
  modQueue s e prio fun q =>
    { q with cmds := q.cmds.drop n, popped := q.popped + n, unbound := true, waitAt := none, drainWait := none }

/-- What a command at the head comes to: it waits, is malformed, or takes effect. -/
inductive Judge
  | wait (s : State)
  | bad (cause : Nat)
  | done (s : State)

/-- More of the effect of a command that has taken effect. -/
def Judge.map (j : Judge) (g : State → State) : Judge :=
  match j with
  | .done s => .done (g s)
  | .wait s => .wait s
  | .bad c => .bad c

/-- After a command of facet e: runs end, symbols are issued; a fill run in unreserved time that has issued its last
symbol plays its fall waveform (R347). -/
def settleRuns (s : State) (f : Nat) : State :=
  let before := (facetN s f).runs.filter fun r => !r.prio && !r.done
  let s := settleFacet s f
  let after := (facetN s f).runs
  before.foldl (fun s r => if after.any fun q => q.serial == r.serial && !q.done then s else fillWave s f r.task false) s

def settleEngine (s : State) (e : Nat) : State := if e < 32 then settleRuns s e else s

/-- A vector unit whose own supply is in a dip stands still (R497). -/
def vectorDips (s : State) (e : Nat) : Bool := decide (32 ≤ e) && (s.dipping (21 + (e - 32) / 4) || s.dipping (64 + (e - 32)))

/-- The head of a queue executed when it is a command that `mine` selects. A head that the engine does not accept is
malformed with cause 1; a head without a binding is discarded (R148). -/
def runHead (s : State) (e : Nat) (prio : Bool) (mine : BitVec 128 → Bool)
    (body : State → BitVec 128 → Binding → Judge) : State :=
  if vectorDips s e then s else
  match headOf s e prio with
  | none => s
  | some w =>
    let ok := acceptedBy e (cmdOp w)
    if ok && !mine w then s else
    match ((engineN s e).queue prio).binding with
    | none => if cmdOp w = 1 then s else discardUnbound s e prio w
    | some b =>
      if !ok then settleEngine (malformed s e prio w b 1) e
      else if !reservedOk w then settleEngine (malformed s e prio w b 2) e
      else match body s w b with
        | .wait s => settleEngine s e
        | .bad c => settleEngine (malformed s e prio w b c) e
        | .done s => settleEngine s e

/-! ### The shadow and preemption (R151, R152, R163, R164) -/

def remembered (o : Option Plane) (kind src : Nat) : Bool :=
  match o with
  | some p => p.named kind src
  | none => false

/-- The fill run of facet f is preempted (R163). -/
def preempt (s : State) (f : Nat) : State :=
  let x := facetN s f
  match queueRun x false with
  | none => s
  | some r =>
    if x.preempted then s else
    fillWave ((modFacet s f fun x => { x with preempted := true }).inc (fam 0x3700_04 f)) f r.task false

/-- A plane takes the shadow (R151). A fill plane that a priority plane overwrites there is remembered for its queue (R164); any
other plane overwritten is released. -/
def takeShadow (s : State) (f : Nat) (p : Plane) : State :=
  let x := facetN s f
  let isFill := fun (q : Plane) => match x.fillPlane with
    | some o => o.id == q.id
    | none => false
  let old := x.shadow.map fun h => h.plane
  let keep := match old with
    | some q => if p.prio && !q.prio && !q.id.zero && !isFill q then some q else if p.prio then x.fillPending else none
    | none => if p.prio then x.fillPending else none
  let s := modFacet s f fun x => { beginLoad x p with fillPending := keep, flipWanted := false, flipAsk := none }
  (old.toList ++ x.fillPending.toList).foldl
    (fun s q => if q.id == p.id || planeKept (facetN s f) q then s else releaseHold s q.hold) s

/-- A PRELOAD or FLIP_ZERO of a queue waits for the shadow (R151): during a swap reload, while a plane is restored after a stop
(R74), and, in the fill queue, while a priority plane there has not been flipped in or the preempted fill plane is still to be
reloaded (R164; log entry 93). -/
def shadowBusy (x : Facet) (prio : Bool) : Bool :=
  x.swapping || x.restoring || !x.displaced.isEmpty
    || (!prio && ((match x.shadow with
        | some h => h.plane.prio
        | none => false) || (x.preempted && x.fillPlane.isSome)))

/-- Unissued symbols on the active plane that go ahead of a flip to plane p. -/
def runsAhead (x : Facet) (p : Plane) : Bool :=
  x.runs.any fun r => !r.done && r.plane == x.active.id && (r.prio || !(p.prio || x.preempted))

/-- The priority head is a TIME_WAIT whose stamp lies less than 123 symbols ahead, as far as whole ticks tell: its tick is
the next one (R163). -/
def stampClose (s : State) (f : Nat) : Bool :=
  match headOf s f true with
  | some w => cmdOp w == 0x31 && (match stampTicks (waitStamp w) with
    | some t => t == (s.now + 1) % stampPeriod
    | none => false)
  | none => false

/-- A flip may take place at this boundary (R54, R152, R163). The newer plane of a restoration flips in by itself (R74). -/
def flipDue (s : State) (f : Nat) : Bool :=
  let x := facetN s f
  match x.shadow with
  | none => false
  | some h =>
    let fill := !h.plane.prio && x.flipAsk != some true
    let back := fill && x.preempted && (match queueRun x false with
      | some r => r.plane == h.plane.id
      | none => false)
    h.loaded && !x.swapping && passesRun x && x.flippedOut.isNone
      && (if x.restoring then (dueAgain x).isEmpty
          else !runHeld x && (x.flipWanted || back) && !runsAhead x h.plane && !(fill && (stampClose s f || prioReady s f)))

/-- The plane that was newer when passes stopped is in the rings again behind the one restored for its symbols (R74). -/
def flipBack (x : Facet) (h : Shadow) : Facet :=
  { calReach x with active := h.plane, shadow := none, flippedOut := some x.active, restoring := false }

/-- The shadow plane becomes active (R46, R64, R164): the plane before it stays until its last verdict is accepted, or the fill
queue remembers it. -/
def flipOver (x : Facet) (h : Shadow) : Facet :=
  let p := h.plane
  let old := x.active
  { calReach x with
    active := p
    shadow := none
    flipWanted := false
    flipAsk := none
    flippedOut := some old
    fillPlane := if !p.prio then none else if old.prio || old.id.zero then x.fillPlane else some old
    preempted := x.preempted && p.prio }

/-- A load that has reached the rings has put a row with a ring in HOLD into use: the facet relocks (R75, R342; log entry 94). -/
def lockCheck (s : State) (f : Nat) : State :=
  let x := facetN s f
  if x.lock == .locked && x.optic.rings.any fun r => r.2.loop != 2 && r.2.loop != 4 && carries x (r.1 / 128) then
    startRelock s f 1 true
  else s

/-- The flip of facet f: a fill run that a priority plane displaces is preempted (R163); a plane that the fill queue has now left
behind is released, and the next one loads. -/
def flipIn (s : State) (f : Nat) : State :=
  let x := facetN s f
  match x.shadow with
  | none => s
  | some h =>
    if x.restoring then reloadShadow (finishRuns (modFacet s f fun x => flipBack x h) f) f else
    let past := if h.plane.prio then none else x.fillPlane
    let s := if h.plane.prio then preempt s f else s
    let y := flipOver (facetN s f) h
    let s := modFacet s f fun _ => y
    let s := match past with
      | some q => if planeKept y q || q.id == x.active.id then s else releaseHold s q.hold
      | none => s
    lockCheck (reloadShadow (finishRuns s f) f) f

/-! ### Trees (R134-R136, R156) -/

/-- What a leaf's holder does at a level of a tree. -/
inductive TreeRole
  | nothing
  | send (dest : Nat)
  | gather (source : Nat)
  deriving DecidableEq, Repr

/-- The role at level l of the leaf `me` in a tree over the leaves of a mask. -/
def nodeRole (mask me l : Nat) : TreeRole :=
  let h := 2 ^ (l - 1)
  let sub := me / h
  if lowestIn mask (sub * h) h ≠ some me then .nothing
  else if sub % 2 = 0 then match lowestIn mask ((sub + 1) * h) h with
    | some p => .gather p
    | none => .nothing
  else match lowestIn mask ((sub - 1) * h) h with
    | some p => .send p
    | none => .nothing

/-- The ordinal whose leaf a task is in the tree between devices (R135, R454). -/
def leafOf (s : State) (task : Nat) : Nat := ((findTask s task).map fun t => t.ordinal).getD (myOrdinal s)

/-- The facet holds its subtree at a level (R156): of the positions or, above level 5, of the ordinals under it, its own is the
lowest present. Above level 5 no facet holds anything but that of the device's root, and none where the tree ends there. -/
def holdsLevel (s : State) (t : TreeDecl) (l : Nat) : Bool :=
  let root := lowestIn t.posMask 0 32 == some t.pos
  if l ≤ 5 then lowestIn t.posMask (t.pos / 2 ^ l * 2 ^ l) (2 ^ l) == some t.pos
  else root && t.ordMask != 0
    && lowestIn t.ordMask (leafOf s t.task / 2 ^ (l - 5) * 2 ^ (l - 5)) (2 ^ (l - 5)) == some (leafOf s t.task)

/-- The role at level 1-5 by positions, at level 6-11 by ordinals for the facet of the device's root. -/
def treeRole (s : State) (t : TreeDecl) (l : Nat) : TreeRole :=
  if l ≤ 5 then nodeRole t.posMask t.pos l
  else if lowestIn t.posMask 0 32 = some t.pos ∧ t.ordMask ≠ 0 then nodeRole t.ordMask (leafOf s t.task) (l - 5)
  else .nothing

/-! ### Ranges of elements (R113, R116, R138, R149) -/

/-- Earlier commands of the queue, or of the repeat at a scale step, that address a range have issued, and its in-tree counts
are 0. -/
def rangeReady (x : Facet) (prio : Bool) (task scale base count : Nat) : Bool :=
  let g := slotsAt x base
  !(x.runs.any fun r => r.prio == prio && !r.done && r.scale == scale
      && meets r.slotNext (modeSlots r.mode * (r.stop - r.next)) base (g * count))
    && !readBefore x task scale base (g * count) && rangeQuiet x base count

/-- The first element of a range that a merge, reduce or drain of a task may not name, with the rule broken. -/
def rangeBad (x : Facet) (task base count : Nat) : Option (Nat × Nat) :=
  let mode := modeAt x base
  (rangeOf x base count).findSome? fun b =>
    let m := slotMeta x b
    if m.state != .complete || m.mode != mode then some (b, 116)
    else if m.owner != task then some (b, 149) else none

/-- A word that a command of engine e reads cannot be corrected: its task is aborted (R365). -/
def readAbort (s : State) (m : MemKind) (unit address e : Nat) (prio : Bool) (task : Nat) : State :=
  dropTask (abortTask (noteTaskBad s m unit address task) task .replay 256) e prio task

/-- Slots [lo, lo + n) of row banks [row, row + rows) of facet f read by a task, and what follows where every word is good (R364,
R365). -/
def readSlots (s : State) (f : Nat) (prio : Bool) (task row rows lo n : Nat) (go : State → State) : State :=
  match checkRows s f row rows lo n with
  | (s, some a) => readAbort s .accumulator f a f prio task
  | (s, none) => go s

/-- The same of the elements of a range in all row banks. -/
def readRange (s : State) (f : Nat) (prio : Bool) (task base count : Nat) (go : State → State) : State :=
  readSlots s f prio task 0 512 base (slotsAt (facetN s f) base * count) go

end Sys2Proof.Machine
end

