-- ==== Sys2Proof/Machine/Jigs.lean ====
section
/-! DEFINITION. Jigs.lean: jigs: their entries, addresses, faults, emissions and the plane converter's part (R107, R191,
R232-R238, R365, R459), as shared operations. -/

namespace Sys2Proof.Machine

/-! ### Entries (R233) -/

/-- A jig in the terms of R234: `ender` is its EMIT or PLANE, at entry `enderAt`. -/
structure JigShape where
  store : Bool
  remote : Bool
  stack : Nat
  base : Nat
  counts : List Nat
  strides : List Int
  wrap : Option Nat
  gather : Option (Nat × Bool × Nat)
  gatherAt : Nat
  ender : Nat
  enderAt : Nat
  deriving DecidableEq, Repr

def entryKind (e : Nat) : Nat := e % 16

def loopStride (e : Nat) : Int := signedOf 36 (bitsOf e 63 28)

/-- Entries before i of a kind. -/
def earlier (es : List Nat) (i : Nat) (g : Nat → Bool) : Bool := (es.take i).any g

/-- The bits of an entry that no field of its kind names are 0 (R6, R233). -/
def entryReservedOk (e : Nat) : Bool :=
  match entryKind e with
  | 1 => bitsOf e 7 7 == 0 && bitsOf e 11 11 == 0 && bitsOf e 63 52 == 0
  | 2 => bitsOf e 7 6 == 0
  | 3 => bitsOf e 7 4 == 0 && bitsOf e 63 40 == 0
  | 4 => bitsOf e 11 7 == 0 && bitsOf e 63 52 == 0
  | 5 => bitsOf e 7 4 == 0 && bitsOf e 63 55 == 0
  | 6 => bitsOf e 35 8 == 0 && bitsOf e 63 55 == 0
  | _ => bitsOf e 63 4 == 0

/-- Entry i breaks a rule of well-formedness, or names an address or length that is no multiple of 64 (R233, R235). -/
def entryBad (engine : Nat) (es : List Nat) (i e : Nat) : Bool :=
  let last := es.length - 1
  !entryReservedOk e || match entryKind e with
  | 1 => i != 0 || bitsOf e 51 12 % 64 != 0 || decide (2 ≤ bitsOf e 6 5) || (bitsOf e 6 5 == 1 && (engine != 8 || decide (6 ≤ bitsOf e 10 8)))
  | 2 => earlier es i (fun q => entryKind q == 2 && bitsOf q 5 4 == bitsOf e 5 4) || bitsOf e 63 28 % 64 != 0
  | 3 => earlier es i (fun q => entryKind q == 3) || bitsOf e 39 8 == 0
  | 4 =>
    earlier es i (fun q => entryKind q == 4) || bitsOf e 51 12 % 64 != 0
      || !es.any (fun q => entryKind q == 2 && bitsOf q 5 4 == bitsOf e 5 4)
  | 5 =>
    earlier es i (fun q => entryKind q == 5 || entryKind q == 6) || bitsOf e 23 8 == 0 || bitsOf e 35 24 == 0
      || (engine != 8 && bitsOf e 45 41 / 4 != engine)
  | 6 =>
    earlier es i (fun q => entryKind q == 5 || entryKind q == 6) || bitOf (es.headD 0) 4
      || (engine != 8 && bitsOf e 45 41 / 4 != engine)
  | 7 => i != last
  | _ => true

/-- The first entry at fault of a jig that is not well formed. -/
def jigBad (engine : Nat) (es : List Nat) : Option Nat :=
  if es.isEmpty then some 0
  else if 16 < es.length then some 16
  else match es.zipIdx.find? fun e => entryBad engine es e.2 e.1 with
    | some e => some e.2
    | none =>
      if entryKind (es.headD 0) ≠ 1 then some 0
      else if !es.any (fun e => entryKind e == 5 || entryKind e == 6) || entryKind (es.getLastD 0) ≠ 7 then some (es.length - 1)
      else none

def levelEntry (es : List Nat) (l : Nat) : Option Nat := es.find? fun e => entryKind e == 2 && bitsOf e 5 4 == l

/-- The shape of a well-formed jig. -/
def jigShape (es : List Nat) : JigShape :=
  let src := es.headD 0
  let at_ := (es.findIdx? fun e => entryKind e == 5 || entryKind e == 6).getD 0
  { store := bitOf src 4, remote := bitsOf src 6 5 == 1, stack := bitsOf src 10 8, base := bitsOf src 51 12,
    counts := (List.range 4).map fun l => ((levelEntry es l).map fun e => bitsOf e 27 8 + 1).getD 1,
    strides := (List.range 4).map fun l => ((levelEntry es l).map loopStride).getD 0,
    wrap := (es.find? fun e => entryKind e == 3).map fun e => 64 * bitsOf e 39 8,
    gather := (es.find? fun e => entryKind e == 4).map fun e => (bitsOf e 5 4, bitOf e 6, bitsOf e 51 12),
    gatherAt := (es.findIdx? fun e => entryKind e == 4).getD 0, ender := es.getD at_ 0, enderAt := at_ }

def JigShape.plane (j : JigShape) : Bool := entryKind j.ender == 6

/-- FORM 1: stored tiles through the plane converter. -/
def JigShape.tiles (j : JigShape) : Bool := j.plane && bitOf j.ender 4

def JigShape.format (j : JigShape) : Nat := bitsOf j.ender 7 5

/-- Bytes of one emission. -/
def JigShape.len (j : JigShape) : Nat :=
  if j.tiles then 512 * fmtRowBytes j.format else if j.plane then recordBytes else 64 * bitsOf j.ender 23 8

def JigShape.perBuf (j : JigShape) : Nat := if j.plane then 1 else bitsOf j.ender 35 24

def JigShape.total (j : JigShape) : Nat := j.counts.foldl (· * ·) 1

def JigShape.queue (j : JigShape) : Nat := bitsOf j.ender 40 36
def JigShape.station (j : JigShape) : Nat := bitsOf j.ender 45 41
def JigShape.tagStep (j : JigShape) : Nat := if bitOf j.ender 54 then 1 else 0

/-! ### Addresses (R234) -/

/-- The index of each level in emission k, innermost first. -/
def loopIndex : List Nat → Nat → List Nat
  | [], _ => []
  | n :: ns, k => k % max n 1 :: loopIndex ns (k / max n 1)

/-- Bytes of an index of a gather list. -/
def indexBytes (wide : Bool) : Nat := if wide then 4 else 2

/-- Index i of a gather list in the SOURCE stack. -/
def gatherIndex (s : State) (j : JigShape) (wide : Bool) (list i : Nat) : Nat :=
  let w := indexBytes wide
  if j.remote then Config.gatherIndex j.stack list i % 256 ^ w else leNat (memRead s.mem (hbmBase j.stack + list + w * i) w)

/-- The offset of a level; the address at fault where the list leaves its stack, 0 where a gathered index lies outside the
stride's 36-bit range (R235, log entry 26). -/
def levelOff (s : State) (j : JigShape) (l i : Nat) : Except Nat Int :=
  let st := j.strides.getD l 0
  match j.gather with
  | some (g, wide, list) =>
    if g ≠ l then .ok (i * st)
    else if !j.remote ∧ hbmBytes < list + indexBytes wide * (i + 1) then .error (list + indexBytes wide * i)
    else
      let v := gatherIndex s j wide list i
      if 2 ^ 35 ≤ (v * st.natAbs : Nat) then .error 0 else .ok (v * st)
  | none => .ok (i * st)

/-- The address of emission k; the entry at fault and the address where it is outside its stack or its remote home of
`limit` bytes. -/
def jigAddr (s : State) (j : JigShape) (limit k : Nat) : Except (Nat × Nat) Nat :=
  let offs := (loopIndex j.counts k).zipIdx.map fun i => levelOff s j i.2 i.1
  match offs.findSome? fun o => match o with
    | .error a => some a
    | .ok _ => none with
  | some a => .error (j.gatherAt, a)
  | none =>
  let a : Int := j.base + (offs.filterMap Except.toOption).foldl (fun x y => x + y) 0
  let a : Int := match j.wrap with
    | some w => j.base + (a - j.base) % (w : Int)
    | none => a
  if a < 0 ∨ (limit : Int) < a + j.len then .error (j.enderAt, unsignedOf 64 a) else .ok a.toNat

/-! ### Runs -/

/-- The jig in progress for a stream. -/
def runningJig (s : State) (eic stream : Nat) : Option JigRun := s.jigs.find? fun j => j.eic == eic && j.stream == stream && !j.ended

def modJig (s : State) (eic stream : Nat) (g : JigRun → JigRun) : State :=
  { s with jigs := s.jigs.map fun j => if j.eic == eic && j.stream == stream && !j.ended then g j else j }

/-- Data of a jig's stream: its task's number, context and copy. -/
def jigTask (s : State) (j : JigRun) : Nat := ((findStream s j.eic j.stream).map fun x => x.desc.task).getD 0xFFFF

/-- A jig fault (R235, R257): counted, told, the task's request completed with a program error. -/
def jigFault (s : State) (eic engine jig stream task entry addr : Nat) : State :=
  let s := (s.inc (fam 0x4200_0B eic)).raise 0x4042 eic
    (leBytes 1 (0x40 + engine) ++ leBytes 2 task ++ leBytes 2 stream ++ leBytes 1 jig ++ leBytes 1 entry ++ leBytes 8 addr)
  abortTask s task (.complete 9) 256

/-- The loops of a jig have ended, and nothing of it is on its way. -/
def endJig (s : State) (eic stream total : Nat) : State :=
  match runningJig s eic stream with
  | none => s
  | some j =>
    if total ≤ j.next && !j.converting then (modJig s eic stream fun j => { j with ended := true }).inc (fam 0x4200_03 eic)
    else s

/-- A buffer of a jig is written completely and pushed when it can be. -/
def jigPush (s : State) (j : JigRun) (sh : JigShape) (serial : Nat) (data : Bytes) : State :=
  finishBuf (modJig s j.eic j.stream fun j =>
    { j with tag := (j.tag + sh.tagStep) % 256, emitted := 0, openBuf := none, data := [] }) j.eic j.stream serial 0 data

def modConvert (s : State) (n : Nat) (g : List ConvertJob → List ConvertJob) : State :=
  { s with converts := s.converts.setIfInBounds n (g ((s.converts[n]?).getD [])) }

/-- The directory entry of the operand that a jig reads, from its task's copy. -/
def jigOperand (s : State) (j : JigRun) : Option OpEntry :=
  match j.what with
  | .weights op _ _ _ =>
    (findTask s (jigTask s j)).bind fun t =>
      ((getCtx s t.context).holding t.copy).bind fun b =>
        (imgEntries ((getCtx s t.context).slot b).blocks).find? fun e => e.operand == op
  | _ => none

/-- What a stored tile holds (R101, R195): its operand, row tile and chunk, and the rows and lanes that carry data. -/
structure TileId where
  operand : Nat
  rowTile : Nat
  chunk : Nat
  rows : Nat
  lanes : Nat
  deriving DecidableEq, Repr

/-- Of n rows or lanes in parts of `size`, those of part i. -/
def partOf (n size i : Nat) : Nat := max 1 (min size (n - size * i))

/-- Tile `item` in the order of R195 from a first row tile on. -/
def tileAt (operand first item chunks rows lanes : Nat) : TileId :=
  let t := first + item / max chunks 1
  let c := item % max chunks 1
  { operand := operand, rowTile := t, chunk := c, rows := partOf rows 512 t, lanes := partOf lanes 128 c }

/-- The tile of the emission at address a: an operand's by its address, others in the order of the emissions (log entry 25). -/
def jigTile (s : State) (j : JigRun) (sh : JigShape) (a : Nat) : TileId :=
  match j.what with
  | .weights op base rows lanes =>
    tileAt op 0 ((a - (if sh.remote then 0 else base)) / max sh.len 1) (((jigOperand s j).map fun e => e.chunks).getD 1) rows lanes
  | .pages n => tileAt n.operand n.rowTile j.next n.chunks n.rows n.lanes
  | .other n => tileAt n.operand n.rowTile j.next n.chunks n.rows n.lanes

/-- The jig reads an operand of a copy; its records go through the shelf cache (R191). -/
def JigRun.ofOperand (j : JigRun) : Bool :=
  match j.what with
  | .weights _ _ _ _ => true
  | _ => false

/-- A stored tile on its way into the plane converter. -/
def tileJob (s : State) (j : JigRun) (sh : JigShape) (data : Bytes) : ConvertJob :=
  let a := match jigAddr s sh (2 ^ 64) j.next with
    | .ok a => a
    | .error _ => 0
  let t := jigTile s j sh a
  let u := findTask s (jigTask s j)
  { eic := j.eic, stream := j.stream, task := jigTask s j, skip := j.skip, made := false, records := [],
    context := (u.map fun t => t.context).getD 0, copy := (u.map fun t => t.copy).getD 0, operand := t.operand,
    rowTile := t.rowTile, chunk := t.chunk, rows := t.rows, lanes := t.lanes, cached := j.ofOperand, format := sh.format,
    tile := data }

/-- The data of an emission has arrived: appended to the open buffer, a plane record, or a stored tile for the
converter. -/
def jigDeliver (s : State) (j : JigRun) (data : Bytes) : State :=
  let sh := jigShape j.entries
  let s := s.inc (fam 0x4200_04 j.eic)
  if sh.tiles then
    let c := tileJob s j sh data
    let s := modConvert s j.eic fun l => l ++ [c]
    modJig s j.eic j.stream fun j => { j with converting := true, skip := 0, reading := 0, got := [] }
  else
    let s := modJig s j.eic j.stream fun j =>
      { j with data := j.data ++ data, emitted := j.emitted + 1, next := j.next + 1, reading := 0, got := [] }
    match runningJig s j.eic j.stream, j.openBuf with
    | some k, some serial =>
      let s := if sh.perBuf ≤ k.emitted ∨ sh.total ≤ k.next then jigPush s k sh serial k.data else s
      endJig s j.eic j.stream sh.total
    | _, _ => s

/-! ### Reads of a stack (R236, R254, R364, R365) -/

/-- Bytes served by a port: the read or write share for the pair's own fetch engine, the remote share otherwise. -/
def countPort (s : State) (engine stack n : Nat) (write : Bool) : State :=
  s.add (fam (if engine = stack then (if write then 0x4010_02 else 0x4010_01) else 0x4010_03) stack) n

/-- The index of a gather list that an emission reads is served by the port as well (R236; log entry 104). -/
def countGather (s : State) (engine : Nat) (sh : JigShape) : State :=
  match sh.gather with
  | some (_, wide, _) => if sh.remote then s else countPort s engine sh.stack (indexBytes wide) false
  | none => s

/-- The pages of the session of a task's request are released (R365). -/
def dropPages (s : State) (task : Nat) : State :=
  match (findTask s task).bind fun t => findRequest s t.jsn with
  | none => s
  | some r =>
    let s := modRequest s r.jsn fun r => { r with pages := 0 }
    match r.session with
    | some n => modSession s n fun x => { x with pages := 0, onStacks := [], lineage := [] }
    | none => s

/-- A confirmed uncorrectable error on the word at address w that a jig reads: the action on the data that R365 gives, then the abort;
requests that need a damaged block of a copy wait for its repair (R213). -/
def jigUncorrectable (s : State) (j : JigRun) (sh : JigShape) (w : Nat) : State :=
  let task := jigTask s j
  match j.what with
  | .weights op base _ _ =>
    let s := noteHbmBad s sh.stack w 3 task 2 (contextOf s task)
    match findTask s task with
    | none => s
    | some t =>
      let s := match (getCtx s t.context).holding t.copy with
        | none => s
        | some b =>
          let x := (getCtx s t.context).slot b
          match (imgEntries x.blocks).find? fun e => e.operand == op with
          | none => s
          | some e => damageCopy s t.context b (blockSpan (e.offset + (w - base)) 32)
      abortTask s task .held 256
  | .pages _ => abortTask (dropPages (noteHbmBad s sh.stack w 3 task 1 (contextOf s task)) task) task .replay 256
  | .other _ => abortTask (noteHbmBad s sh.stack w 3 task 1 (contextOf s task)) task .replay 256

/-- The index of a gather list that emission k reads from its stack: its address and width. -/
def gatherWord (j : JigShape) (k : Nat) : List (Nat × Nat) :=
  match j.gather with
  | some (g, wide, list) =>
    if j.remote then [] else [(list + indexBytes wide * (loopIndex j.counts k).getD g 0, indexBytes wide)]
  | none => []

/-- The bytes that a load finds: an operand's data where the jig reads weights of a copy (log entry 25), else the stack. -/
def jigBytes (s : State) (j : JigRun) (sh : JigShape) (a : Nat) : Bytes :=
  match j.what, jigOperand s j with
  | .weights _ base _ _, some e =>
    match findTask s (jigTask s j) with
    | some t =>
      match (getCtx s t.context).holding t.copy with
      | some b => imageRead ((getCtx s t.context).slot b).blocks (e.offset + (a - base)) sh.len
      | none => memRead s.mem (hbmBase sh.stack + a) sh.len
    | none => memRead s.mem (hbmBase sh.stack + a) sh.len
  | _, _ => memRead s.mem (hbmBase sh.stack + a) sh.len

/-- Errors that an emission finds in its words, counted from its first: what the memory has come to since (R364). -/
def findErrors (s : State) (stack a len : Nat) (errors : List (Nat × ReadOutcome)) : State :=
  errors.foldl (fun s e => if 32 * e.1 < len then addErr s (hbmBase stack + (a + 32 * e.1) / 32 * 32) e.2 else s) s

/-- A load from a stack, its words read in turn (R364). -/
def jigRead (s : State) (j : JigRun) (sh : JigShape) (a : Nat) (errors : List (Nat × ReadOutcome)) : State :=
  let s := countPort s j.engine sh.stack sh.len false
  let s := if j.catchup then s.add (fam 0x4200_09 j.eic) sh.len else s
  match checkRead (findErrors s sh.stack a sh.len errors) .hbm sh.stack a sh.len with
  | (s, some w) => jigUncorrectable s j sh w
  | (s, none) => jigDeliver s j (jigBytes s j sh a)

/-! ### Remote homes (R188, R411, R456, R460) -/

/-- Bytes that a jig's addresses may reach. -/
def jigLimit (s : State) (j : JigRun) (sh : JigShape) : Nat :=
  if sh.remote then ((jigOperand s j).map fun e => e.length).getD 0 else hbmBytes

/-- BLOCK_REQ for n image blocks from `first` on, at most 1,024 to a request (R396). -/
def askBlocks (s : State) (model stage copy : Nat) : Nat → Nat → Nat → State
  | 0, _, _ => s
  | k + 1, first, n =>
    if n = 0 then s else
    let s := sendConfirmed s 0x61 (leBytes 4 model ++ leBytes 1 stage ++ leBytes 3 0 ++ leBytes 4 copy ++ leBytes 4 first)
      (leBytes 4 (min n 1024))
    askBlocks s model stage copy k (first + 1024) (n - 1024)

/-- The read of an emission from a remote home: READ to the holding peer, whose route begins at the port that SOURCE
names (R460), or BLOCK_REQ to the control node on a Kangeiz port (R411). None where the port differs. -/
def jigFetch (s : State) (j : JigRun) (sh : JigShape) (a : Nat) : Option State :=
  match jigOperand s j, findTask s (jigTask s j) with
  | some e, some t =>
    let c := getCtx s t.context
    if sh.stack < 4 then
      match routeTo s e.peer with
      | none => none
      | some (p, _) =>
        if p.val ≠ sh.stack then none else
        let s := sendToOr s e.peer 0x12 0 2 []
          (leBytes 4 c.model ++ leBytes 1 c.stage ++ leBytes 3 0 ++ leBytes 4 t.copy ++ leBytes 4 e.operand ++ leBytes 8 a
            ++ leBytes 4 sh.len ++ leBytes 2 (j.stream + 1024 * j.eic) ++ leBytes 1 0 ++ leBytes 1 0)
        some (modJig s j.eic j.stream fun j => { j with reading := sh.len, got := [] })
    else
      let bs := blockSpan (e.offset + a) sh.len
      let s := askBlocks s c.model c.stage t.copy (bs.length / 1024 + 1) (bs.headD 0) bs.length
      some (modJig s j.eic j.stream fun j => { j with reading := 4096 * bs.length, got := [] })
  | _, _ => none

/-- A part of an emission's data has come from its remote home; the last part completes the emission. -/
def jigReceive (s : State) (j : JigRun) (part : Bytes) : State :=
  let sh := jigShape j.entries
  let got := j.got ++ part
  let left := j.reading - part.length
  if 0 < left then modJig s j.eic j.stream fun j => { j with got := got, reading := left }
  else
    let off := match jigOperand s j, jigAddr s sh (2 ^ 64) j.next with
      | some e, .ok a => if sh.stack < 4 then 0 else (e.offset + a) % 4096
      | _, _ => 0
    jigDeliver (modJig s j.eic j.stream fun j => { j with reading := 0, got := [] }) j ((got.drop off).take sh.len)

/-! ### The shelf cache (R191) -/

/-- The identity of a converted record in the cache. -/
def cacheId (ctx copy op format rowTile chunk trit : Nat) : PlaneId :=
  { kind := 0, src := 0, context := ctx, copy := copy, operand := op, format := format, rowTile := rowTile, chunk := chunk,
    trit := trit, zero := false }

def cacheFind (s : State) (n : Nat) (id : PlaneId) : Option Nat :=
  (((s.cache[n]?).getD []).find? fun e => e.1 == id).map Prod.snd

/-- A converted record written to the cache of a pair: a free cache place, or that of the least recently used record, but no place
whose record a facet holds (R223). -/
def cachePut (s : State) (n : Nat) (id : PlaneId) (rec' : Bytes) : State :=
  let l : List (PlaneId × Nat) := ((s.cache[n]?).getD []).filter fun e => e.1 != id
  let held := heldPlaces s n
  let free := (cachePlaces s n).find? fun p => !held.contains p && !l.any fun e => e.2 == p
  let place := free.or ((l.find? fun e => !held.contains e.2).map Prod.snd)
  match place with
  | none => { s with cache := s.cache.setIfInBounds n l }
  | some p =>
    storeMem { s with cache := s.cache.setIfInBounds n ((l.filter fun e => e.2 != p) ++ [(id, p)]) } (shelfBase n + p * recordBytes) rec'

/-- Records of a converted tile handed to the jig's stream, one buffer each in trit order (R107, R234); the rest while a
buffer waits for credits. -/
def pushRecords (s : State) (eic stream : Nat) (sh : JigShape) : List Bytes → State × List Bytes
  | [] => (s, [])
  | r :: rs =>
    match runningJig s eic stream with
    | none => (s, [])
    | some j =>
      match takeBuf s eic stream recordBytes j.tag true with
      | none => (starve s eic stream, r :: rs)
      | some (s, serial) => pushRecords (jigPush s j sh serial r) eic stream sh rs

/-- The converter's job of a stream ends, and with it the emission. -/
def endConvert (s : State) (c : ConvertJob) (rest : List Bytes) : State :=
  let put := fun (q : ConvertJob) => if q.eic = c.eic ∧ q.stream = c.stream then { q with made := true, records := rest, tile := [] } else q
  if rest.isEmpty then
    let s := modConvert s c.eic fun l => l.filter fun q => !(q.eic == c.eic && q.stream == c.stream)
    modJig s c.eic c.stream fun j => { j with converting := false, next := j.next + 1 }
  else modConvert s c.eic fun l => l.map put

end Sys2Proof.Machine
end

