-- ==== Sys2Proof/Machine/Time.lean ====
section
/-! DEFINITION. Time.lean: the references of the frame-time counter (R261-R264, R408-R410, R598): offset checks, setting, the
edges and the TIME and PROBE frames, with one meaning for each row. -/

namespace Sys2Proof.Machine

/-! ### Exact parts of a tick -/

/-- Parts of a tick in which a 65,536th of a tick, half a picosecond and their sums are whole numbers. -/
def finePerTick : Int := 51200000000

/-- A picosecond and a 65,536th of a tick in these parts. -/
def finePs : Int := 1572864
def fineFrac : Int := 781250

/-- A length of time in nanoseconds as FP32 (R8). -/
def fineNs (v : Int) : Nat := (round32 (decide (v < 0)) v.natAbs (1572864 * 1000) 0).1

/-- Ticks nearest to a length of time. -/
def fineTicks (v : Int) : Int := rneDiv v 51200000000

/-! ### Checks (R262, R263) -/

def timeState (s : State) : Nat := s.num 0x2000_03

/-- One offset check: recorded and counted in every state; in SET and HOLDOVER it moves the time state. -/
def timeCheck (s : State) (offset : Int) : State :=
  let ns := fineNs offset
  let s := { (s.setNum 0x2000_04 ns).inc 0x2000_09 with checkAt := s.up }
  let st := timeState s
  if st = 0 ∨ st = 3 then s
  else if offset.natAbs ≤ s.num 0x2000_05 * 51200000000 then
    let s := { s with outside := none }
    if st = 2 then (s.setNum 0x2000_03 1).raise 0x2012 0xFF (leBytes 4 ns) else s
  else match s.outside with
    | none => { s with outside := some ns }
    | some before => ({ s with outside := none }.setNum 0x2000_03 3).raise 0x2013 0xFF (leBytes 4 before ++ leBytes 4 ns)

/-- The counter set to a reference stamp (R264). -/
def setCounter (s : State) (t : Nat) : State :=
  let old := s.stamp
  let s := { s with now := t % stampPeriod, setArmed := false, outside := none, checkAt := s.up }
  (s.setNum 0x2000_03 1).raise 0x2010 0xFF (leBytes 8 old ++ leBytes 8 s.stamp)

/-- A reference at an instant that lies `frac` after the counter's present value: the offset of R262, as the shorter way
round the full period. -/
def offsetOf (s : State) (ref frac : Int) : Int :=
  let p : Int := stampPeriod * finePerTick
  let d := (ref - (s.now * finePerTick + frac)) % p
  if 2 * d < p then d else d - p

/-! ### FRAME_IN and PPS_IN (R262, R598) -/

/-- An edge at `frac` 65,536ths after the present tick: its reference stamp is the nearest frame start. -/
def edgeCheck (s : State) (frac : Nat) : State :=
  let into : Int := (s.now % frameTicks : Nat) * finePerTick + frac * fineFrac
  let frame : Int := frameTicks * finePerTick
  timeCheck s (if 2 * into < frame then -into else frame - into)

/-- FRAME_IN_EDGE: an edge of a pulse outside the limits of R598, or within 10 ms of the one before, gives no check. -/
def execFrameInEdge (frac : BitVec 16) (valid : Bool) (s : State) : Host.Outcome State Fault Refusal :=
  let close := match s.frameInAt with
    | some t => decide (s.up - t < frameTicks)
    | none => false
  let s := { s with frameInAt := some s.up }
  if !valid || close then .next (s.inc 0x8600_05)
  else if (s.num 0x2000_01).testBit 0 then .next (edgeCheck s frac.toNat) else .next s

/-- PPS_IN_EDGE (R262). -/
def execPpsInEdge (frac : BitVec 16) (valid : Bool) (s : State) : Host.Outcome State Fault Refusal :=
  if !valid then .next (s.inc 0x8600_06)
  else if (s.num 0x2000_01).testBit 1 then .next (edgeCheck s frac.toNat) else .next s

/-- TIME_HOLDOVER (R263): no check for 2000h.06 frames. -/
def execTimeHoldover (s : State) : Host.Outcome State Fault Refusal :=
  if timeState s = 1 ∧ s.num 0x2000_06 * frameTicks ≤ s.since s.checkAt then
    .next ((s.setNum 0x2000_03 2).raise 0x2011 0xFF [])
  else .next s

/-- The effect of a write of 2000h.08 (R263, R264). -/
def timeReset (s : State) (v : Nat) : State :=
  if v = 0 then s else
  let s := { s with setArmed := true }
  if timeState s = 3 then { s.setNum 0x2000_03 0 with outside := none } else s

/-! ### TIME and PROBE frames (R408, R409) -/

/-- A frame from node 0 has been consumed (R412). -/
def heard (s : State) : State := { s with ring := { s.ring with node0At := s.up, node0Silent := false } }

/-- The reserved fields of the payload are zero and it has 32 bytes. -/
def timePayloadOk (probe : Bool) (b : Bytes) : Bool :=
  b.length == 32 && fieldAt b 10 2 == 0 && fieldAt b 18 2 == 0 && fieldAt b 24 8 == 0
    && (!probe || (fieldAt b 0 8 == 0 && fieldAt b 8 2 == 0 && fieldAt b 12 4 == 0))

/-- The port on which frames of a direction arrive (R390). -/
def arrivalPort (dir : Fin 2) : RingPort := 1 - dir

/-- The port from which time frames are taken (R261): 2000h.02, or the other while that one is down. -/
def timePort (s : State) : RingPort :=
  let p : RingPort := if s.num 0x2000_02 = 0 then 0 else 1
  if portUp s p then p else 1 - p

/-- Any change of an own port's state ends every probe pair (R409). -/
def dropPair (s : State) : State :=
  { s with ring := { s.ring with probes := Vector.replicate 2 none, pairs := [] } }.setNum 0x1120_05 0

/-- PROBE (R409): an unwrapped probe timestamped; two of one number that arrive within 1 ms form a pair, whose delays are each less its correction. -/
def execProbe (dir : Fin 2) (payload : Bytes) (frac : BitVec 16) (s : State) : Host.Outcome State Fault Refusal :=
  let s := heard s
  if !timePayloadOk true payload then .next (s.inc 0x1100_0E) else
  let id := fieldAt payload 16 2
  let came : Int := s.up * finePerTick + frac.toNat * fineFrac
  let seen : ProbeSeen := { id := id, came := came, at_ := came - fieldAt payload 20 4 * finePs }
  let s := { s with ring := { s.ring with probes := s.ring.probes.set dir (some seen) } }
  match s.ring.probes[0], s.ring.probes[1] with
  | some a, some b =>
    if a.id = b.id ∧ (b.came - a.came).natAbs ≤ 1000000000 * 1572864 then
      .next ({ s with ring := { s.ring with pairs := (s.ring.pairs.filter fun (p : Nat × Int) => p.1 != id) ++ [(id, b.at_ - a.at_)] } }.inc
        0x1120_06)
    else .next s
  | _, _ => .next s

/-- TIME (R261, R263, R264, R409): an unwrapped frame on the port in use that carries the probe of a valid pair gives a check,
and sets the counter where that is allowed; FAULT is left only through TIME_RESET. -/
def execTime (dir : Fin 2) (wrapped : Bool) (payload : Bytes) (frac : BitVec 16) (s : State) :
    Host.Outcome State Fault Refusal :=
  let s := heard s
  if !timePayloadOk false payload ∨ (stampTicks (fieldAt payload 0 8)).isNone then .next (s.inc 0x1100_0E) else
  match s.ring.pairs.find? fun p => p.1 == fieldAt payload 16 2, stampTicks (fieldAt payload 0 8) with
  | some (id, d), some t =>
    let l := fieldAt payload 12 4
    if wrapped || l == 0 || arrivalPort dir != timePort s then .next s else
    let a0 := (l * finePs - d) / 2
    let a1 := l * finePs - a0
    let s := ((((s.setNum 0x1120_01 (fineNs a0)).setNum 0x1120_02 (fineNs a1)).setNum 0x1120_03 (fineNs (l * finePs))).setNum
      0x1120_04 id).setNum 0x1120_05 1
    let ref : Int := t * finePerTick + fieldAt payload 8 2 * fineFrac + (if dir = 0 then a0 else a1)
      + fieldAt payload 20 4 * finePs
    let s := timeCheck s (offsetOf s ref (frac.toNat * fineFrac))
    if s.setArmed && timeState s != 3 && (s.node == .configuring || s.node == .quiesced) then
      .next (setCounter s (fineTicks (ref - frac.toNat * fineFrac) % stampPeriod).toNat)
    else .next s
  | _, _ => .next s

end Sys2Proof.Machine
end

