-- ==== Sys2Proof/Machine/Links.lean ====
section
/-! DEFINITION. Links.lean: the states of the Kangeiz and peer ports, lanes and eye safety (R386-R393, R447-R453), with the
meanings of the link rows. A retraining gap of up to 2 ms is not modelled (log entry 30). -/

namespace Sys2Proof.Machine

def modEye (s : State) (e : EyePort) (g : Eye → Eye) : State := { s with eyes := s.eyes.set e (g s.eyes[e]) }

/-- The eye-safety port of a Kangeiz port and of a peer port. -/
def ringEye (p : RingPort) : EyePort := ⟨p.val, by omega⟩
def peerEye (p : PeerPort) : EyePort := ⟨p.val + 2, by omega⟩

/-! ### Kangeiz ports (R387-R389, R393) -/

def linkState (s : State) (p : RingPort) : Nat := s.num (fam 0x1110_01 p.val)

/-- A change of WRAPPED (R393). -/
def setWrapped (s : State) (p : RingPort) (w : Nat) : State :=
  if s.num (fam 0x1110_0C p.val) = w then s else (s.setNum (fam 0x1110_0C p.val) w).raise 0x1014 p.val (leBytes 1 w)

/-- Admitted tasks with work over a port of R220 (0-3 peer, 4-5 Kangeiz): gang tasks with an ordinal routed through it, streams to
a receiver on it, jigs that read from it, traffic priced in its channels (R461). -/
def tasksOnPort (s : State) (port : Nat) : List Nat :=
  let gangs := (s.tasks.filter fun t => match t.gang with
    | some (_, others) => others.any fun o => (routeTo s o).any fun r => r.1.val == port
    | none => false).map fun t => t.num
  let streams := (s.streams.filter fun x => x.desc.receivers.any fun r => r.1 == 0x48 && r.2 == port).map fun x => x.desc.task
  let jigs := (s.jigs.filter fun j =>
    let sh := jigShape j.entries
    !j.ended && sh.remote && (sh.stack == port || (4 ≤ port && 4 ≤ sh.stack))).map (jigTask s)
  let priced := (s.tables.filter fun r => r.engine / 8 == 32 + port).map fun r => r.task
  (gangs ++ streams ++ jigs ++ priced).dedup

/-- PORTS_UP follows a change of a port; tasks with work over it are at risk (R38, R285). -/
def portChanged (s : State) (port : Nat) : State :=
  let old := s.num 0x0020_05
  let s := refreshPorts s
  if s.num 0x0020_05 = old then s else recertify s (tasksOnPort s port) 3 false true

/-- Each Kangeiz port wraps while it is not UP4 or UP3 (R393). -/
def settleWraps (s : State) : State :=
  (List.finRange 2).foldl (fun s p => setWrapped s p (if portUp s p then 0 else 1)) s

/-- A Kangeiz port comes up on the lanes of a mask: UP4 or UP3 (R387). -/
def ringUp (s : State) (p : RingPort) (mask : Nat) : State :=
  let s := (s.setNum (fam 0x1110_01 p.val) (if mask = 15 then 3 else 4)).setNum (fam 0x1110_02 p.val) mask
  let s := (dropPair s).raise 0x1011 p.val (leBytes 1 mask)
  settleWraps (portChanged s (4 + p.val))

/-- A Kangeiz port leaves UP4 or UP3, or another state, for one in which it is not up; `cause` of LINK_DOWN (R418). -/
def ringDown (s : State) (p : RingPort) (st cause : Nat) : State :=
  let was := portUp s p
  let s := dropPair ((s.setNum (fam 0x1110_01 p.val) st).setNum (fam 0x1110_02 p.val) 0)
  settleWraps (if was then portChanged (s.raise 0x1010 p.val (leBytes 1 cause)) (4 + p.val) else s)

/-- LINK_UP (R387, R418): training ends on four lanes, or on three where exactly one fails to align. A port that is up has lost
its alignment to train again: it goes down with cause 2 first (DEDUCED, log entry 136). -/
def execLinkUp (port : RingPort) (missing : Option (Fin 4)) (s : State) : Host.Outcome State Fault Refusal :=
  let e := s.eyes[ringEye port]
  if s.refclk ∧ linkState s port ≠ 1 ∧ e.txOn ∧ e.lit then
    let s := if portUp s port then ringDown s port 2 2 else s
    .next (ringUp s port (match missing with
      | some l => 15 - 2 ^ l.val
      | none => 15))
  else .next s

/-- The far end hears of a failed lane in the alignment markers (R388, R449). -/
def signalLane (s : State) (port : EyePort) (lane : Nat) : State := { s with out := s.out ++ [Out.laneFailed port lane] }

/-- LANE_FAIL (R388): UP4 goes on with three lanes, UP3 goes DOWN. -/
def execLaneFail (port : RingPort) (lane : Fin 4) (s : State) : Host.Outcome State Fault Refusal :=
  if !(s.num (fam 0x1110_02 port.val)).testBit lane.val then .next s
  else if linkState s port = 3 then
    let s := signalLane s (ringEye port) lane.val
    .next (ringUp ((s.inc (fam 0x1110_0A port.val)).raise 0x1012 port.val (leBytes 1 lane.val)) port (15 - 2 ^ lane.val))
  else if linkState s port = 4 then .next (ringDown s port 0 3)
  else .next s

/-- The effect of a write of LANE_RESTORE (R388). -/
def laneRestore (s : State) (p : RingPort) (v : Nat) : State := if v = 1 ∧ linkState s p = 4 then ringUp s p 15 else s

/-! ### Peer ports (R448-R453) -/

/-- Gang tasks that have lost the route to an ordinal of theirs (R465), and the mirror without a route (R469). -/
def routesChanged (s : State) : State :=
  let lost := s.tasks.filter fun t => match t.gang with
    | some (_, others) => others.any fun o => !ownOrdinal s o && !reachable s o
    | none => false
  let s := lost.foldl (fun s t => abortTask s t.num .replay 0) s
  let s := if lost.isEmpty then s else settleAllFacets s
  if buddy s = 255 then s
  else if !reachable s (buddy s) then mirrorLost s 3
  else if mirrorState s = 3 then mirrorResync s else s

/-- A peer port reaches UP8 or UP7 on its lanes (R448). -/
def peerLinkUp (s : State) (p : PeerPort) (mask : Nat) : State :=
  let s := (s.setNum (fam 0xA010_01 p.val) (if mask = 255 then 5 else 6)).setNum (fam 0xA010_02 p.val) mask
  let s := portChanged (s.raise 0xA011 p.val (leBytes 1 mask)) p.val
  routesChanged (pumpPeer s p)

/-- A peer port leaves for a state in which it is not up. -/
def peerDown (s : State) (p : PeerPort) (st : Nat) : State :=
  let was := peerUp s p
  let s := (s.setNum (fam 0xA010_01 p.val) st).setNum (fam 0xA010_02 p.val) 0
  if was then routesChanged (portChanged (s.raise 0xA010 p.val []) p.val) else s

/-- HELLO (R453): RING_ID, ordinal, port, serial. -/
def sendHello (s : State) (p : PeerPort) : State :=
  let s := sendLink s p 0x03 0
    (leBytes 4 (ringId s) ++ leBytes 1 (myOrdinal s) ++ leBytes 1 p.val ++ leBytes 8 (s.num 0x0000_06))
  modPeer s p fun q => { q with helloAt := s.up }

/-- PEER_LINK_TRAINED (R448, R453): an enabled port with light reaches CHECKING on eight or seven lanes and sends HELLO. -/
def execPeerLinkTrained (p : PeerPort) (missing : Option (Fin 8)) (s : State) : Host.Outcome State Fault Refusal :=
  let st := peerLink s p
  let e := s.eyes[peerEye p]
  if s.refclk ∧ (st = 1 ∨ st = 3) ∧ e.txOn ∧ e.lit then
    let mask := match missing with
      | some l => 255 - 2 ^ l.val
      | none => 255
    .next (sendHello ((s.setNum (fam 0xA010_01 p.val) 4).setNum (fam 0xA010_02 p.val) mask) p)
  else .next s

/-- PEER_LANE_FAIL (R449). -/
def execPeerLaneFail (p : PeerPort) (lane : Fin 8) (s : State) : Host.Outcome State Fault Refusal :=
  if !(s.num (fam 0xA010_02 p.val)).testBit lane.val then .next s
  else if peerLink s p = 5 then
    let s := signalLane s (peerEye p) lane.val
    .next (peerLinkUp ((s.inc (fam 0xA010_0B p.val)).raise 0xA012 p.val (leBytes 1 lane.val)) p (255 - 2 ^ lane.val))
  else if peerLink s p = 6 then .next (peerDown s p 1)
  else .next s

/-- The effect of a write of a peer port's LANE_RESTORE (R449). -/
def peerLaneRestore (s : State) (p : PeerPort) (v : Nat) : State := if v = 1 ∧ peerLink s p = 6 then peerLinkUp s p 255 else s

/-- The effect of a write of ENABLE (R451): a device without an ordinal enables no port. -/
def peerEnable (s : State) (p : PeerPort) (v : Nat) : State :=
  let s := s.setNum (fam 0xA010_04 p.val) v
  if v = 0 ∨ myOrdinal s = 255 then
    if peerLink s p = 0 then s else peerDown s p 0
  else if peerLink s p = 0 then
    if s.eyes[peerEye p].txOn then peerDown s p 1 else peerDown s p 2
  else s

/-! ### Eye safety (R389, R450) -/

/-- One second of the model's clock. -/
def second : Nat := 30720000

/-- The Kangeiz or peer port behind an optical port. -/
def ringOf (e : EyePort) : Option RingPort := if h : e.val < 2 then some ⟨e.val, h⟩ else none
def peerOf (e : EyePort) : Option PeerPort := if h : 2 ≤ e.val then some ⟨e.val - 2, by omega⟩ else none

/-- LOSS_OF_LIGHT (R389, R450): the transmitter goes off, the port is SHUT. -/
def execLossOfLight (port : EyePort) (s : State) : Host.Outcome State Fault Refusal :=
  let shut := fun (s : State) => modEye s port fun e => { e with lit := false, txOn := false, shutAt := s.up, lastPulse := s.up }
  match ringOf port, peerOf port with
  | some p, _ =>
    if linkState s p = 1 then .next (modEye s port fun e => { e with lit := false })
    else .next (ringDown (((shut s).inc (fam 0x1110_09 p.val)).raise 0x1013 p.val []) p 1 1)
  | none, some p =>
    if peerLink s p = 0 ∨ peerLink s p = 2 then .next (modEye s port fun e => { e with lit := false })
    else .next (peerDown (((shut s).inc (fam 0xA010_0A p.val)).raise 0xA013 p.val []) p 2)
  | none, none => .next s

/-- LIGHT_RETURN (R389, R450): a SHUT port turns its transmitter on and trains; a port that waits for light trains. -/
def execLightReturn (port : EyePort) (s : State) : Host.Outcome State Fault Refusal :=
  let on := fun (s : State) => modEye s port fun e => { e with lit := true, txOn := true }
  match ringOf port, peerOf port with
  | some p, _ => if linkState s p < 2 then .next (dropPair ((on s).setNum (fam 0x1110_01 p.val) 2)) else .next s
  | none, some p =>
    if peerLink s p = 1 ∨ peerLink s p = 2 then .next ((on s).setNum (fam 0xA010_01 p.val) 3)
    else if peerLink s p = 0 then .next (modEye s port fun e => { e with lit := true })
    else .next s
  | none, none => .next s

/-- EYE_PROBE (R389, R450): from 1 s after its shutdown a SHUT port emits a probe pulse once every second. -/
def execEyeProbe (port : EyePort) (s : State) : Host.Outcome State Fault Refusal :=
  let isShut := match ringOf port, peerOf port with
    | some p, _ => linkState s p == 1
    | none, some p => peerLink s p == 2
    | none, none => false
  let e := s.eyes[port]
  if isShut && decide (second ≤ s.since e.shutAt) && decide (second ≤ s.since e.lastPulse) then
    let s := modEye s port fun e => { e with lastPulse := s.up }
    .next { s with out := s.out ++ [Out.pulse port] }
  else .next s

/-- HELLO_RESEND (R453): an ISOLATED port repeats HELLO once per second. -/
def execHelloResend (p : PeerPort) (s : State) : Host.Outcome State Fault Refusal :=
  if peerLink s p = 7 ∧ second ≤ s.since s.peers[p].helloAt then .next (sendHello s p) else .next s

end Sys2Proof.Machine
end

