-- ==== Sys2Proof/Machine/Light.lean ====
section
/-! DEFINITION. Light.lean: light inputs, path amplifiers, bus sources and their failover (R324-R334), with one meaning for
each row that reports the light. -/

namespace Sys2Proof.Machine

/-! ### Paths and amplifiers (R324, R326, R327) -/

/-- The LC that a word of bus sources selects for bus 2f + b. -/
def sourceIn (word bus : Nat) : Fin 2 := if word.testBit bus then 1 else 0

def sourceActive (s : State) : Nat := s.num 0x7010_02

/-- An LC may run amplifiers: it is in service, and the device in one of the states of R326, out of the power-fail sequence. -/
def lcRuns (s : State) (lc : Fin 2) : Bool :=
  (s.node == .configuring || s.node == .serving || s.node == .quiesced || s.node == .inspect)
    && s.unitUp 4 lc.val && !s.power.failing

/-- The amplifier of a path may run: its input READY, or LOW with a valid feed; its LC running; and the amplifier able to
reach its set point. -/
def pathOk (s : State) (lc : Fin 2) (bus : Nat) : Bool :=
  let i := inputOf s lc
  (i.state == .ready || i.state == .low && !i.weak.testBit (bus / 8))
    && lcRuns s lc && !s.light.dead.testBit (64 * lc.val + bus)

/-- The amplifiers that run: for each bus that of its active source, where it may. -/
def wantedAmps (s : State) : Vector Nat 2 :=
  let on := fun (lc : Fin 2) => (List.range 64).foldl
    (fun a bus => if sourceIn (sourceActive s) bus = lc && pathOk s lc bus then a + 2 ^ bus else a) 0
  (Vector.replicate 2 0).set 0 (on 0) |>.set 1 (on 1)

/-- Neither amplifier of a bus is on. -/
def busDark (s : State) (bus : Nat) : Bool := !s.light.amps[0].testBit bus && !s.light.amps[1].testBit bus

/-- Both buses of a facet have light. -/
def facetLit (s : State) (f : Nat) : Bool := !busDark s (2 * f) && !busDark s (2 * f + 1)

/-- A facet that has light on both buses and is not yet in service starts up (R342, R349): its rings acquire. -/
def beginStart (now up : Nat) (x : Facet) : Facet :=
  { x with
    lock := .starting
    optic := { x.optic with
      base := { RingLoop.off with loop := 1 }
      rings := []
      relock := some { triggers := 32, since := up, checkRepeated := false, checked := false, acquires := true, synd := 0, symAt := now } } }

/-- Facets without light on both buses issue no pass and are DARK; light that returns brings a relock with source change, or the
start-up of a facet not yet in service (R327, R342, R346, R349). -/
def settleDark (s : State) : State :=
  (List.range 32).foldl (fun s f =>
    let x := facetN s f
    if x.degraded || s.power.lost.testBit f then s
    else if facetLit s f then
      if x.lock ≠ .dark then s
      else if s.facetUp f then startRelock (modFacet s f fun x => { x with lock := .relocking }) f 4 false
      else modFacet s f (beginStart s.now s.up)
    else if x.lock = .dark then s
    else if s.facetUp f then modFacet (stopFacet s f) f fun x => { x with lock := .dark }
    else modFacet s f fun x => { x with lock := .dark, optic := { x.optic with relock := none } }) s

/-! ### Headroom (R331) -/

/-- The least headroom of any path on: HEADROOM_LOW below the threshold, armed again after one frame 0.5 dB above it. -/
def noteHeadroom (s : State) (path db : Nat) : State :=
  let s := s.setNum 0x7010_07 db
  let th := s.num 0x7010_06
  if !fle th db then
    let s := modLight s fun l => { l with headroomAt := none }
    if s.light.headroomRaised then s
    else (modLight s fun l => { l with headroomRaised := true }).raise 0x7013 0xFF (leBytes 1 path ++ leBytes 4 db)
  else if fle (fadd th 0x3F000000).1 db then
    modLight s fun l => { l with headroomAt := l.headroomAt.orElse fun _ => some s.up }
  else modLight s fun l => { l with headroomAt := none }

/-- The paths on: bit 64 * LC + bus of 7013h's path. -/
def pathsOn (s : State) : List Nat :=
  (List.range 128).filter fun p => if p < 64 then s.light.amps[0].testBit p else s.light.amps[1].testBit (p - 64)

/-- The powers of an input's feeds (7000h.03, 7000h.04). -/
def feedOid (i : Fin 2) : Nat := if i = 0 then 0x7000_03 else 0x7000_04

/-- Every feed of the LCs that have paths on is at least 40 mW. -/
def feedsStrong (s : State) : Bool :=
  (List.finRange 2).all fun i => s.light.amps[i] == 0
    || (List.range 8).all fun n => fle 0x42200000 (fieldAt (s.blob (feedOid i)) (4 * n) 4)

/-- The headroom that R331 guarantees, as FP32: 3.0 dB with 32 paths on in each LC, 1.2 dB with one LC that carries the device. -/
def headroomFloor (s : State) : Nat :=
  let n := (pathsOn s).length
  let a := ((pathsOn s).filter (· < 64)).length
  if n ≠ 64 ∨ !feedsStrong s then 0 else if a = 32 then 0x40400000 else if a = 0 ∨ a = 64 then 0x3F99999A else 0

/-- The headroom measured anew: 0.0 dB with no path on. The manual gives no model of an amplifier: the least headroom, and the path
that has it, are free within R331 (log entry 4). -/
def sampleHeadroom (s : State) : State :=
  let on := pathsOn s
  if on.isEmpty then s.setNum 0x7010_07 0 else
  let (v, s) := s.drawNat (2 ^ 32)
  let (k, s) := s.drawNat on.length
  noteHeadroom s (on.getD k 0) (if isNan v || fle v (headroomFloor s) then headroomFloor s else v)

/-- At a frame start the headroom is measured; the event is armed again after one frame (R331). -/
def headroomFrame (s : State) : State :=
  let s := sampleHeadroom s
  match s.light.headroomAt with
  | some t => if frameTicks ≤ s.since t then modLight s fun l => { l with headroomRaised := false } else s
  | none => s

/-- The amplifiers set; a change of them is a change of headroom. -/
def setAmps (s : State) (amps : Vector Nat 2) : State :=
  if s.light.amps = amps then s else sampleHeadroom (modLight s fun l => { l with amps := amps })

/-- The active source of buses moved to the other LC. -/
def moveBuses (s : State) (buses : List Nat) : State :=
  s.setNum 0x7010_02 (buses.foldl (fun w b => withBit w b (!w.testBit b)) (sourceActive s))

/-- The buses that lose their light and fail over to the other LC (R329): that LC's input is READY. -/
def failsOver (s : State) (b : Nat) : Bool :=
  let a := sourceIn (sourceActive s) b
  s.num 0x7010_03 != 0 && s.light.amps[a].testBit b && !pathOk s a b && (inputOf s (1 - a)).state == .ready && lcRuns s (1 - a)

/-- A bus moves to the other LC, whose amplifier is tried afresh. -/
def moveOver (s : State) (buses : List Nat) : State :=
  let s := moveBuses s buses
  modLight s fun l => { l with dead := buses.foldl (fun d b => withBit d (64 * (sourceIn (sourceActive s) b).val + b) false) l.dead }

/-- The amplifiers follow inputs and sources (R326-R329): a bus that loses its light fails over to the other LC where
AUTO_FAILOVER is 1 and that input is READY, all in the same frame; its facet relocks. Else it goes dark. -/
def settleLight (s : State) : State :=
  let moved := (List.range 64).filter (failsOver s)
  let s := if moved.isEmpty then s
    else ((moveOver s moved).add 0x7010_05 moved.length).raise 0x7012 0xFF (leBytes 8 (moved.foldl (fun a b => a + 2 ^ b) 0))
  let s := settleDark (setAmps s (wantedAmps s))
  ((moved.map (· / 2)).dedup).foldl (fun s f => startRelock s f 4 false) s

/-! ### Sources (R328) -/

/-- The buses of facet f whose active source differs from the map. -/
def busesToMove (s : State) (f : Nat) : List Nat :=
  [2 * f, 2 * f + 1].filter fun b => (sourceActive s).testBit b != (s.num 0x7010_01).testBit b

/-- One facet's buses take the sources of SOURCE_MAP: counted; a relock with source change. -/
def changeSource (s : State) (f : Nat) : State :=
  let bs := busesToMove s f
  if bs.isEmpty then s else
  let s := (moveBuses s bs).add 0x7010_04 bs.length
  startRelock (settleDark (setAmps s (wantedAmps s))) f 4 false

/-- Every input that a map selects is READY. -/
def sourceMapOk (s : State) (v : Nat) : Bool := (List.range 64).all fun b => (inputOf s (sourceIn v b)).state == .ready

/-- The effect of an accepted write of SOURCE_MAP: at once for every facet, or in Serving one facet per frame (`Light.changing`). -/
def writeSourceMap (s : State) (v : Nat) : State :=
  let s := modLight (s.setNum 0x7010_01 v) fun l => { l with dead := 0 }
  let fs := (List.range 32).filter fun f => !(busesToMove s f).isEmpty
  if s.node = .serving then modLight s fun l => { l with changing := fs }
  else settleLight ((modLight s fun l => { l with changing := [] }) |> fun s => fs.foldl changeSource s)

/-- At a frame start in Serving the next facet changes its sources, unless it has used its relock allowance in this frame. -/
def sourceFrame (s : State) : State :=
  match s.light.changing with
  | [] => s
  | f :: rest =>
    let x := facetN s f
    if s.node ≠ .serving ∨ (x.chargeFrame = s.now / frameTicks ∧ s.num 0x2010_03 ≤ x.chargeTicks) then s
    else settleLight (changeSource (modLight s fun l => { l with changing := rest }) f)

/-- An input whose loop is closed takes WAITING, but in Safe, where its light-enable line stays off (R334). -/
def takeLight (s : State) (i : Fin 2) : State :=
  if s.node = .safe then s else if (inputOf s i).closed then setInput s i .waiting else s

/-- New enable bits of the inputs (R326); `rearm`: they come from a write of the control node, which re-arms a TRIPPED input
whose bit it writes 1 (R334). -/
def inputBits (s : State) (v : Nat) (rearm : Bool) : State :=
  let s := s.setNum 0x7000_01 v
  settleLight ((List.finRange 2).foldl (fun s i =>
    let x := inputOf s i
    if !v.testBit i.val then setInput s i .disabled
    else match x.state with
      | .disabled => if x.closed && s.node != .safe then setInput s i .waiting else setInput s i .opened
      | .tripped => if rearm then takeLight s i else s
      | _ => s) s)

/-- The effect of a write of INPUT_ENABLE. -/
def inputEnable (s : State) (v : Nat) : State := inputBits s v true

/-! ### Interlocks and trips (R333) -/

/-- An input trips: `feed` is FFh where no feed is the cause. -/
def tripInput (s : State) (i : Fin 2) (feed cause : Nat) : State :=
  if !lightEnable s i then s else
  let s := (s.inc 0x7000_0A).raise 0x7011 0xFF (leBytes 1 i.val ++ leBytes 1 feed ++ leBytes 1 cause)
  settleLight (setInput s i .tripped)

/-- INTERLOCK_OPEN: a trip while light-enable is asserted. -/
def execInterlockOpen (i : Fin 2) (s : State) : Host.Outcome State Fault Refusal :=
  .next (tripInput (modInput s i fun x => { x with closed := false }) i 0xFF 1)

/-- INTERLOCK_CLOSED: the loop has been closed continuously for 1 s; in Safe the input stays OPEN. -/
def execInterlockClosed (i : Fin 2) (s : State) : Host.Outcome State Fault Refusal :=
  let s := modInput s i fun x => { x with closed := true }
  .next (if (inputOf s i).state = .opened then takeLight s i else s)

/-- A value of an F32 object that holds the greatest since its last read (R612). -/
def noteMax (s : State) (oid v : Nat) : State := if isNan v then s else s.record oid v fun a b => !fle a b

/-- Strictly below. -/
def flt (a b : Nat) : Bool := fle a b && !fle b a

/-- -14 dB as FP32. -/
def returnLimit : Nat := 0xC1600000

/-- The returned power of a feed trips its input (R333): it rises by more than RETURN_JUMP, or exceeds -14 dB of the feed power. -/
def returnTrips (s : State) (ratio rise : Nat) : Bool := flt (s.num 0x7000_07) rise || flt returnLimit ratio

/-- RETURN_POWER_TRIP: the returned power of a feed, as a ratio to the feed power, and its rise within 10 µs; the ratio enters
RETURN_MAX. -/
def execReturnPowerTrip (i : Fin 2) (feed : Fin 8) (seen : ReturnPower) (s : State) : Host.Outcome State Fault Refusal :=
  let s := noteMax s 0x7000_05 seen.ratioDb.toNat
  .next (if returnTrips s seen.ratioDb.toNat seen.riseDb.toNat then tripInput s i feed.val 2 else s)

/-- The power of a feed as measured: the headroom is measured with it. -/
def setFeeds (s : State) (i : Fin 2) (mw : List (Nat × Nat)) : State :=
  let new := mw.foldl (fun (b : Bytes) e => b.take (4 * e.1) ++ leBytes 4 e.2 ++ b.drop (4 * e.1 + 4)) (s.blob (feedOid i))
  if new = s.blob (feedOid i) then s else sampleHeadroom (s.setBlob (feedOid i) new)

def setFeed (s : State) (i : Fin 2) (feed : Fin 8) (mw : Nat) : State := setFeeds s i [(feed.val, mw)]

/-- 85 mW and 80 mW as FP32. -/
def mw85 : Nat := 0x42AA0000
def mw80 : Nat := 0x42A00000

/-- A feed power is valid: from FEED_MIN to 80 mW. -/
def feedValid (s : State) (mw : Nat) : Bool := !isNan mw && fle (s.num 0x7000_06) mw && fle mw mw80

/-- FEED_OVER_POWER: a feed above 85 mW for 10 µs. -/
def execFeedOverPower (i : Fin 2) (feed : Fin 8) (mw : BitVec 32) (s : State) : Host.Outcome State Fault Refusal :=
  let s := setFeed s i feed mw.toNat
  .next (if isNan mw.toNat || fle mw.toNat mw85 then s else tripInput s i feed.val 3)

/-- FEED_VALID: every feed has been valid continuously for 10 ms. -/
def execFeedValid (i : Fin 2) (mw : Vector (BitVec 32) 8) (s : State) : Host.Outcome State Fault Refusal :=
  let s := setFeeds s i ((List.finRange 8).map fun n => (n.val, mw[n].toNat))
  let st := (inputOf s i).state
  if (st = .waiting ∨ st = .low) ∧ mw.toList.all fun p => feedValid s p.toNat then
    .next (settleLight (setInput (modInput s i fun x => { x with weak := 0 }) i .ready))
  else .next s

/-- FEED_LOW: a feed of a READY or LOW input below FEED_MIN for 50 µs. -/
def execFeedLow (i : Fin 2) (feed : Fin 8) (mw : BitVec 32) (s : State) : Host.Outcome State Fault Refusal :=
  let s := setFeed s i feed mw.toNat
  let st := (inputOf s i).state
  if (st = .ready ∨ st = .low) ∧ !fle (s.num 0x7000_06) mw.toNat then
    .next (settleLight (setInput (modInput s i fun x => { x with weak := withBit x.weak feed.val true }) i .low))
  else .next s

/-! ### Amplifiers (R329) -/

/-- SOURCE_FAILOVER (R329): the path amplifier of a bus cannot reach the set point for 50 µs. `headroomDb` is the least
headroom of the paths that are then on; which path has it is free (log entry 4). -/
def execSourceFailover (bus : Fin 64) (headroomDb : BitVec 32) (s : State) : Host.Outcome State Fault Refusal :=
  let a := sourceIn (sourceActive s) bus.val
  if s.light.amps[a].testBit bus.val then
    let s := settleLight (modLight s fun l => { l with dead := withBit l.dead (64 * a.val + bus.val) true })
    let on := pathsOn s
    if on.isEmpty then .next s else
    let (k, s) := s.drawNat on.length
    .next (noteHeadroom s (on.getD k 0) headroomDb.toNat)
  else .next s

end Sys2Proof.Machine
end

