-- ==== Sys2Proof/Machine/Power.lean ====
section
/-! DEFINITION. Power.lean: rails and their sequence, over-voltage, temperature sensors, groups, throttling and slot caps
(R511-R529), with the meanings of the rows that report a rail or a stack's temperature. -/

namespace Sys2Proof.Machine

def modPower (s : State) (g : Power → Power) : State := { s with power := g s.power }

/-! ### Rails (R511-R516) -/

/-- The number of a supply in `Power.dips`, and in events: rail r, digital domain 64 + f, analogue domain 96 + f. -/
def supplyNum : Supply → Nat
  | .rail r => r.val
  | .digital f => 64 + f.val
  | .analogue f => 96 + f.val

def railState (s : State) (r : Nat) : Nat := s.num (fam 0x8100_01 r)

/-- A rail's state and its bit of RAILS_GOOD: a rail in a dip still counts as good. -/
def setRail (s : State) (r st : Nat) : State :=
  (s.setNum (fam 0x8100_01 r) st).setNum 0x8000_05 (withBit (s.num 0x8000_05) r (st == 2 || st == 3))

def railGood (s : State) (r : Nat) : Bool := railState s r == 2 || railState s r == 3

/-- A regulator for the rail stands in RAIL_TABLE (R514). -/
def railPresent (s : State) (r : Nat) : Bool := (fieldAt (s.blob 0x8010_01) (8 * r) 1).testBit 7

/-- The step of the sequence a rail belongs to; 0 for the board's rails (R515). -/
def railStep (r : Nat) : Nat :=
  if r < 4 then 0 else if r = 4 then 1 else if r < 13 then 2 else if r < 21 then 3 else if r < 29 then 4
  else if r < 37 then 5 else if r < 39 then 6 else 7

/-- A rail that is off, for whatever reason. -/
def railOff (s : State) (r : Nat) : Bool := railState s r == 0 || railState s r == 4 || railState s r == 5

def seqRails : List Nat := (List.range 37).map (· + 4)

/-- The next step that has rails to bring up: all of them get OPERATION on. -/
def nextSeqStep (s : State) : State :=
  let ready := seqRails.filter fun r => railPresent s r && railState s r == 0
  match ready.map railStep |>.min? with
  | none => modPower s fun p => { p with seqStep := 0 }
  | some k => (ready.filter fun r => railStep r == k).foldl (fun s r => setRail s r 1) (modPower s fun p => { p with seqStep := k })

/-- The sequence of R515 over every rail that is off; it waits while PWRFAIL_N is low (R516). -/
def startSeq (s : State) : State :=
  if s.power.failLow then s else
  let s := (seqRails.filter fun r => railPresent s r && (railState s r == 4 || railState s r == 5)).foldl (fun s r => setRail s r 0) s
  if s.power.seqStep = 0 then nextSeqStep s else s

/-- The step ends when each of its rails has become good or has failed. -/
def advanceSeq (s : State) : State :=
  if s.power.seqStep = 0 ∨ seqRails.any fun r => railState s r == 1 then s else nextSeqStep s

/-- The rails that a facet's start-up needs: PAIR_CORE, PAIR_ANA and the heater rail of its pair (R511, R515). -/
def facetRails (f : Nat) : List Nat := [21 + f / 4, 29 + f / 4, 37 + f / 16]

/-- The rails of stack n. -/
def stackRails (n : Nat) : List Nat := [4, 5 + n, 13 + n]

/-- Vector units and LCs whose rails are good and that have not failed enter 0020h (R38, R515). -/
def unitsFromRails (s : State) : State :=
  let v := (List.range 32).foldl (fun m f =>
    if railGood s (21 + f / 4) && !s.power.digOff.testBit f then withBit m f true else m) (s.num 0x0020_06)
  let l := (List.range 2).foldl (fun m k =>
    if railGood s (39 + k) && !s.power.lcHot.testBit k then withBit m k true else m) (s.num 0x0020_04)
  (s.setUnits 6 v).setUnits 4 l

/-- The nominal voltage of a rail in mV (R511). -/
def railNominal (r : Nat) : Nat :=
  if r = 0 ∨ r = 2 then 750 else if r = 1 ∨ r = 4 then 1800 else if r = 3 ∨ r = 37 ∨ r = 38 then 3300
  else if r < 13 then 1100 else if r < 21 then 400 else if r < 29 then 850 else if r < 37 then 1100 else 2500

/-- One entry of RAIL_TABLE obeys R514; an entry without a regulator gives no set point (log entry 34). -/
def railEntryOk (r : Nat) (e : Bytes) : Bool :=
  fieldAt e 5 3 == 0 && (!(fieldAt e 0 1).testBit 7 ||
    (95 * railNominal r ≤ 100 * fieldAt e 2 2 && 100 * fieldAt e 2 2 ≤ 105 * railNominal r
      && 1 ≤ fieldAt e 4 1 && fieldAt e 4 1 ≤ 8))

def railEntry (b : Bytes) (r : Nat) : Bytes := (b.drop (8 * r)).take 8

def railTableOk (v : Bytes) : Bool := v.length == 328 && (List.range 41).all fun r => railEntryOk r (railEntry v r)

/-- Every sequenced rail whose entry changes is off (R514); rails 0-3 are never commanded (log entry 34). -/
def railTableFree (s : State) (v : Bytes) : Bool :=
  seqRails.all fun r => railEntry v r == railEntry (s.blob 0x8010_01) r || railOff s r

/-- The effect of an accepted write of RAIL_TABLE. -/
def railTable (s : State) (v : Bytes) : State := startSeq (s.setBlob 0x8010_01 v)

/-- A PMBus transaction that has failed three times (R513). -/
def pmbusFault (s : State) (r fails command : Nat) : State :=
  if fails < 3 then s
  else (s.inc (fam 0x8100_05 r)).raise 0x8012 0xFF (leBytes 1 r ++ leBytes 1 command)

/-- RAIL_GOOD (R515): the rail's comparators have shown it above warning plus hysteresis for 1 ms. `pmbusFailures`
counts the tries of its OPERATION command (01h) that failed. -/
def execRailGood (rail : Fin 41) (pmbusFailures : Nat) (s : State) : Host.Outcome State Fault Refusal :=
  let r := rail.val
  if railState s r = 1 ∨ (r < 4 ∧ railState s r = 0) then
    .next (settleLight (unitsFromRails (advanceSeq (pmbusFault (setRail s r 2) r pmbusFailures 1))))
  else .next s

/-- RAIL_FAULT (R515): not good within 5 ms of its OPERATION command; the rail is commanded off. -/
def execRailFault (rail : Fin 41) (volts : BitVec 32) (s : State) : Host.Outcome State Fault Refusal :=
  let r := rail.val
  if railState s r = 1 then
    .next (advanceSeq (((setRail s r 4).setNum (fam 0x8100_02 r) volts.toNat).raise 0x8010 0xFF (leBytes 1 r ++ leBytes 4 volts.toNat)))
  else .next s

/-! ### Units that lose their rails (R498, R504, R512, R518, R519) -/

/-- Blocks of a copy that lie in HBM3E: those of operands that no shelf place holds. -/
def hbmBlocks (x : CopySlot) : List Nat :=
  ((imgEntries x.blocks).filter fun e => e.home < 2 && !(x.pins.any fun p => p.operand == e.operand)).foldl
    (fun a e => a ++ blockSpan e.offset e.length) [] |>.dedup

/-- Sessions with a page on a stack lose their pages and are rebuilt by their next request (R310, R504). -/
def dropStackPages (s : State) (n : Nat) : State :=
  { s with sessions := s.sessions.map fun (x : Session) =>
      if x.pages = 0 || !x.onStacks.contains n then x
      else { x with pages := 0, lineage := [], onStacks := [], state := if x.state = .idle then .evicted else x.state } }

/-- A stack fails (R504). The manual gives no placement of a copy's data over the stacks: each copy in HBM3E counts as lying on
every stack; which library entries lay there is free (log entry 35). -/
def stackFailed (s : State) (n : Nat) : State :=
  if !s.unitUp 3 n then s else
  let s := (s.setUnits 3 (withBit (s.num 0x0020_03) n false)).faultDegraded
  let s := s.raise 0xB011 n []
  let s := loseUnits s ((pairFacets n).filter fun f => s.facetUp f) [64 + n]
  let s := (s.contexts.map Prod.fst).foldl (fun s c => [false, true].foldl (fun s b =>
    let x := (getCtx s c).slot b
    if 4 ≤ x.state.code ∧ x.hbmUsed ≠ 0 then damageCopy s c b (hbmBlocks x) else s) s) s
  let s := dropStackPages s n
  s.library.foldl (fun s e =>
    let (gone, s) := s.drawBool
    if gone then { s with library := s.library.filter fun q => q != e } else s) s

/-- What lay on the shelf of a pair is lost: copies with a record there are damaged, and its cache is empty (R213, R503). -/
def loseShelf (s : State) (n : Nat) : State :=
  let s := { s with cache := s.cache.setIfInBounds n [] }
  (s.contexts.map Prod.fst).foldl (fun s c => [false, true].foldl (fun s b =>
    let x := (getCtx s c).slot b
    let ps := x.pins.filter fun p => p.pair == n
    if 4 ≤ x.state.code ∧ ps ≠ [] then damageCopy s c b ((ps.map (pinBlocks x)).flatten.dedup) else s) s) s

/-- The units of some pairs leave service for good: their facets and vector units, their stacks and their shelves (R498, R503). -/
def losePairs (s : State) (ns : List Nat) : State :=
  let fs := (ns.map pairFacets).flatten
  let up := fs.filter fun f => s.facetUp f
  let s := modPower s fun p =>
    { p with digOff := fs.foldl (fun m f => withBit m f true) p.digOff, anaOff := fs.foldl (fun m f => withBit m f true) p.anaOff }
  let s := fs.foldl (fun s f => modFacet (openRings (stopFacet s f) f) f fun (x : Facet) => { x with degraded := true }) s
  let s := s.setUnits 6 (fs.foldl (fun m f => withBit m f false) (s.num 0x0020_06))
  let s := ns.foldl (fun s n => stackFailed (loseShelf s n) n) s
  settleAllFacets (loseUnits s up (fs.map (32 + ·) ++ ns.map (64 + ·)))

/-- An LC leaves 0020h.04 and its buses fail over (R518, R528). -/
def loseLc (s : State) (k : Nat) : State := settleLight (s.setUnits 4 (withBit (s.num 0x0020_04) k false))

/-- What the units of a rail 4-40 suffer when it is lost: stacks fail, pairs leave service, an LC's buses fail over. HTR0
and HTR1 take the facets of four pairs (R515). -/
def loseRail (s : State) (r : Nat) : State :=
  if r = 4 then (List.range 8).foldl stackFailed s
  else if r < 13 then stackFailed s (r - 5)
  else if r < 21 then stackFailed s (r - 13)
  else if r < 29 then losePairs s [r - 21]
  else if r < 37 then losePairs s [r - 29]
  else if r < 39 then
    loseFacets s (((List.range 16).map (16 * (r - 37) + ·)).filter fun f => s.facetUp f)
  else loseLc s (r - 39)

/-- A facet whose domain is lost degrades (R512, R518, R519). -/
def loseDomain (s : State) (f : Nat) (digital : Bool) : State :=
  settleAllFacets (degradeFacet s f 0x3FF 0x3FF 0 s.now digital)

/-- OVERVOLTAGE (R519): 10 µs above the over-voltage level. -/
def execOvervoltage (supply : Supply) (s : State) : Host.Outcome State Fault Refusal :=
  if s.power.failing then .next s else
  let told := fun (s : State) => s.raise 0x8011 0xFF (leBytes 1 (supplyNum supply))
  match supply with
  | .rail r =>
    if r.val < 4 then .next (enterSafe s 5)
    else if railGood s r.val then .next (loseRail (told (setRail s r.val 5)) r.val)
    else .next s
  | .digital f => if s.power.digOff.testBit f.val then .next s else .next (loseDomain (told s) f.val true)
  | .analogue f => if s.power.anaOff.testBit f.val then .next s else .next (loseDomain (told s) f.val false)

/-! ### Sensors (R521, R522) -/

/-- The entry of a pin sensor in SENSOR_TABLE; empty where the table does not describe it (log entry 36). -/
def pinEntry (s : State) (i : Nat) : Bytes :=
  let e := ((s.blob 0x8500_03).drop (32 * i)).take 32
  if e.all (· == 0#8) then [] else e

def pinGroup (s : State) (i : Nat) : Option Nat := if pinEntry s i = [] then none else some (fieldAt (pinEntry s i) 0 1)

/-- The neighbours of a sensor; numbers above 599 in a table entry name none. -/
def neighboursOf (s : State) (i : Nat) : List Nat :=
  if i < 24 then
    if pinEntry s i = [] then []
    else ((List.range 8).map fun k => fieldAt (pinEntry s i) (16 + 2 * k) 2).filter (· < 600)
  else if i < 600 then Config.neighbours i else []

/-- The die of an on-die or fast sensor, as a code: EIC 0-7, PIC 8-15, LC 16-17, SYS 18, LNK 19. -/
def dieOf (i : Nat) : Nat :=
  if i < 56 then (i - 24) / 4 else if i < 72 then 8 + (i - 56) / 2 else if i < 76 then 16 + (i - 72) / 2
  else if i < 84 then 18 else if i < 88 then 19 else (i - 88) / 64

/-- The sensors of a sensor's die, or of its group for a pin sensor. -/
def mates (s : State) (i : Nat) : List Nat :=
  (List.range 600).filter fun k =>
    if i < 24 then k < 24 && pinGroup s k == pinGroup s i else 24 ≤ k && dieOf k == dieOf i

/-- The last reading of a sensor. -/
def reading (s : State) (i : Nat) : Option Nat := (s.power.temps.find? fun e => e.1 == i).map Prod.snd

/-- A sensor's average over the last frame; its last reading where it was not read in that frame (R522). -/
def average (s : State) (i : Nat) : Option Nat := ((s.power.avgs.find? fun e => e.1 == i).map Prod.snd).or (reading s i)

/-- The averages of the frame that ends. -/
def closeAverages (s : State) : State :=
  modPower s fun p =>
    { p with avgs := p.sums.map (fun e => (e.1, (fdivNat e.2.1 e.2.2).1)), sums := [] }

/-- A reading counts for the frame's average. -/
def addReading (p : Power) (i v : Nat) : Power :=
  if isNan v then p else
  let a := ((p.sums.find? fun e => e.1 == i).map Prod.snd).getD (0, 0)
  { p with sums := p.sums.filter (fun e => e.1 != i) ++ [(i, (fadd a.1 v).1, a.2 + 1)] }

/-- A sensor whose own reading counts. -/
def sensorValid (s : State) (i : Nat) : Bool :=
  !s.power.replaced.contains i && (match reading s i with
    | some v => !isNan v
    | none => false)

def sub32 (a b : Nat) : Nat := (fadd a (b ^^^ 0x80000000)).1
def abs32 (a : Nat) : Nat := a % 2 ^ 31

/-- The neighbour estimate; without valid neighbours the highest valid reading of the die or group, plus 5 K. -/
def estimate (s : State) (i : Nat) : Option Nat :=
  let vs := ((neighboursOf s i).filter (sensorValid s)).filterMap (average s)
  if vs ≠ [] then some (fdivNat (fsum vs).1 vs.length).1
  else
    let ms := ((mates s i).filter fun k => k != i && sensorValid s k).filterMap (reading s)
    match ms with
    | [] => none
    | m :: ms => some (fadd (ms.foldl fmax m) 0x40A00000).1

/-- The value that counts for a sensor. -/
def sensorValue (s : State) (i : Nat) : Option Nat := if s.power.replaced.contains i then estimate s i else reading s i

/-- The cross-check of every sensor that has neighbours, once per frame, by the averages over the frame; three frames beyond the
tolerance replace it. -/
def crossCheck (s : State) : State :=
  let s := closeAverages s
  s.power.temps.foldl (fun s e =>
    let i := e.1
    let v := (average s i).getD e.2
    if neighboursOf s i = [] ∨ s.power.replaced.contains i ∨ isNan v then s else
    match estimate s i with
    | none => s
    | some est =>
      let n := sparseGet (fun _ => 0) s.power.deviant i
      let off := !fle (abs32 (sub32 v est)) (s.num 0x8500_01)
      let n := if off then n + 1 else 0
      let s := modPower s fun p => { p with deviant := sparsePut (fun _ => 0) p.deviant i n }
      if n < 3 then s else
      let s := modPower s fun p => { p with replaced := p.replaced ++ [i], deviant := sparsePut (fun _ => 0) p.deviant i 0 }
      let g := if i < 24 then (pinGroup s i).getD 4 else if dieOf i < 8 then 0 else if dieOf i < 16 then 5
        else if dieOf i < 18 then 2 else 3
      let s := if g < 5 then s.inc (fam 0x8300_06 g) else s
      s.raise 0x8024 0xFF (leBytes 2 i ++ leBytes 4 v ++ leBytes 4 est)) s

/-! ### Groups and limits (R523-R528) -/

/-- The sensors of a unit of a group. -/
def groupSensors (s : State) (g unit : Nat) : List Nat :=
  let pins := (List.range 24).filter fun i => pinGroup s i == some g
  pins ++ (match g with
    | 0 => [24 + 4 * unit, 25 + 4 * unit, 26 + 4 * unit, 27 + 4 * unit] ++ (List.range 64).map (88 + 64 * unit + ·)
    | 1 => [600 + unit]
    | 2 => [72 + 2 * unit, 73 + 2 * unit]
    | 3 => if unit = 0 then (List.range 8).map (76 + ·) else (List.range 4).map (84 + ·)
    | _ => [])

def groupUnits : Nat → Nat
  | 0 => 8
  | 1 => 8
  | 2 => 2
  | 3 => 2
  | _ => 1

/-- The facets that a unit governs; group 5 stands for the power limit (R527). -/
def governs (g unit : Nat) : Nat :=
  match g with
  | 0 => 15 * 16 ^ unit
  | 1 => 15 * 16 ^ unit
  | 4 => 2 ^ 32 - 1
  | 5 => 2 ^ 32 - 1
  | _ => 0

/-- The temperature of a unit: the highest valid value among its sensors; for group 5 the power drawn. -/
def unitTemp (s : State) (g unit : Nat) : Option Nat :=
  if g = 5 then some (s.num 0x8000_03) else
  match (groupSensors s g unit).filterMap (sensorValue s) with
  | [] => none
  | v :: vs => some (vs.foldl fmax v)

/-- POWER_LIMIT as FP32. -/
def powerLimit (s : State) : Nat := (round32 false (s.num 0x8000_02) 1 0).1

def warnTemp (s : State) (g : Nat) : Nat := s.num (fam 0x8300_01 g)
def throttleTemp (s : State) (g : Nat) : Nat := if g = 5 then powerLimit s else s.num (fam 0x8300_02 g)
def critTemp (s : State) (g : Nat) : Nat := s.num (fam 0x8300_03 g)
def hyst (s : State) (g : Nat) : Nat := if g = 5 then 0 else s.num (fam 0x8300_04 g)

/-- At or above the throttle level; for the power limit, above it. -/
def atThrottle (s : State) (g v : Nat) : Bool := if g = 5 then flt (powerLimit s) v else fle (throttleTemp s g) v

/-- A THROTTLE_REQUEST with its enforcement stamp (R525). -/
def requestThrottle (s : State) (g unit v : Nat) : State :=
  let at_ := (s.now / frameTicks + s.num 0x8400_01) * frameTicks % stampPeriod
  let s := modPower s fun p =>
    { p with throttles := p.throttles ++ [{ group := g, unit := unit, enforceAt := at_, enforced := false, cool := 0 }] }
  s.raise 0x8021 0xFF (leBytes 4 (governs g unit) ++ leBytes 4 v ++ leBytes 8 (stamp64 at_))

/-- The power block turns the rails of step k off, the steps in the reverse of their order, one every 1 ms (R516, R528). -/
def railsDown (s : State) (k : Nat) : State :=
  let s := (seqRails.filter fun r => railStep r == k && !railOff s r).foldl (fun s r => setRail s r 0) s
  modPower s fun p => { p with offStep := k - 1, offAt := s.up }

/-- The next step of a critical action whose millisecond is over. -/
def railsOff (s : State) : State :=
  if s.power.offStep ≠ 0 ∧ 30720 ≤ s.since s.power.offAt then railsDown s s.power.offStep else s

/-- A unit at its critical level for two successive readings (R528). -/
def criticalAction (s : State) (g unit : Nat) : State :=
  if g = 2 then loseLc (modPower s fun p => { p with lcHot := withBit p.lcHot unit true }) unit
  else railsDown (enterSafe s 5) 7

/-- A unit after a new reading: TEMP_MAX, the warning once per crossing, the throttle request when the level is reached, the
critical level, and an LC's return below its warning level. -/
def judgeUnit (s : State) (g unit : Nat) (before : Option Nat) : State :=
  match unitTemp s g unit with
  | none => s
  | some v =>
    let key := 64 * g + unit
    let tops := (List.range (groupUnits g)).filterMap (unitTemp s g)
    let s := s.setNum (fam 0x8300_05 g) (tops.foldl fmax v)
    let s := if fle (warnTemp s g) v then
        (if s.power.warned.contains key then s
        else (modPower s fun p => { p with warned := p.warned ++ [key] }).raise 0x8020 0xFF
          (leBytes 1 g ++ leBytes 1 unit ++ leBytes 4 v))
      else if fle v (sub32 (warnTemp s g) (hyst s g)) then modPower s fun p => { p with warned := p.warned.filter (· != key) }
      else s
    let reached := atThrottle s g v && !(match before with
      | some b => atThrottle s g b
      | none => false)
    let capped := s.power.throttles.any fun t => t.group == g && t.unit == unit && t.enforced
    let s := if reached && !capped then requestThrottle s g unit v else s
    let n := if fle (critTemp s g) v then sparseGet (fun _ => 0) s.power.critical key + 1 else 0
    let s := modPower s fun p => { p with critical := sparsePut (fun _ => 0) p.critical key n }
    if n = 2 then criticalAction s g unit
    else if g = 2 ∧ s.power.lcHot.testBit unit ∧ flt v (warnTemp s g) then
      settleLight (unitsFromRails (modPower s fun p => { p with lcHot := withBit p.lcHot unit false }))
    else s

/-- The groups and units that a sensor counts for. -/
def unitsOf (s : State) (i : Nat) : List (Nat × Nat) :=
  if i < 24 then match pinGroup s i with
    | some g => if g < 5 then (List.range (groupUnits g)).map fun u => (g, u) else []
    | none => []
  else if 600 ≤ i then [(1, i - 600)]
  else
    let d := dieOf i
    if d < 8 then [(0, d)] else if d < 16 then [] else if d < 18 then [(2, d - 16)] else [(3, d - 18)]

/-- The kinds of items of R529 that a sensor governs, each with the step of its sensor: 0 the PLLs (SYS and EIC diodes),
1 the converter references (SYS diodes), 2 the DAC references (diodes of every die), 3 the ring drift (region fast sensors). -/
def governed (i : Nat) : List (Nat × Nat) :=
  (if (24 ≤ i ∧ i < 56) ∨ (76 ≤ i ∧ i < 84) then [(0, 0x3F800000)] else [])
    ++ (if 76 ≤ i ∧ i < 84 then [(1, 0x3E800000)] else []) ++ (if 24 ≤ i ∧ i < 88 then [(2, 0x3E800000)] else [])
    ++ (if 88 ≤ i ∧ i < 600 then [(3, 0x3F000000)] else [])

/-- A correction of a DAC reference moves by at most 1 LSB at once (R529). -/
def stepToward (was target : Nat) : Nat := if was < target then was + 1 else was - (if target < was then 1 else 0)

/-- One item after a reading of its sensor: updated when the sensor has moved by the step since its last update. -/
def compensateItem (comp : List (Nat × Nat × Nat)) (i t : Nat) (k : Nat × Nat) : List (Nat × Nat × Nat) :=
  let key := 1024 * k.1 + i
  let last := comp.find? fun e => e.1 == key
  let at_ := match last with
    | some e => if fle k.2 (abs32 (sub32 t e.2.1)) then t else e.2.1
    | none => t
  let target := Config.compensation key at_
  let new := if k.1 = 2 then stepToward ((last.map fun e => e.2.2).getD 0) target else target
  (comp.filter fun e => e.1 != key) ++ [(key, at_, new)]

/-- Compensation over temperature (R529) at a reading of a sensor, by the value that counts for it. It changes no code and no
count of the machine (log entry 65). -/
def compensate (s : State) (i : Nat) : State :=
  match sensorValue s i with
  | some t =>
    if isNan t then s else modPower s fun p => { p with comp := (governed i).foldl (fun c k => compensateItem c i t k) p.comp }
  | none => s

/-- A new reading of a sensor. -/
def noteTemp (s : State) (i celsius : Nat) : State :=
  let us := unitsOf s i
  let before := us.map fun u => unitTemp s u.1 u.2
  let s := compensate (modPower s fun p =>
    addReading { p with temps := sparsePut (fun _ => 0x7FC00000) p.temps i celsius } i celsius) i
  let s := if 24 ≤ i ∧ i < 600 ∧ dieOf i < 8 ∧ !isNan celsius then s.setNum 0x0030_04 (fmax (s.num 0x0030_04) celsius) else s
  (us.zip before).foldl (fun s u => judgeUnit s u.1.1 u.1.2 u.2) s

/-- STACK_TEMPERATURE_READ (R521): the report of stack n. -/
def execStackTemperatureRead (n : PairId) (celsius : BitVec 32) (s : State) : Host.Outcome State Fault Refusal :=
  if s.node = .safe ∨ s.sysHeld then .next s else .next (noteTemp s (600 + n.val) celsius.toNat)

/-! ### Power (R527) -/

/-- The draw over the last frame: the sum of voltage times current over the rails. -/
def notePower (s : State) : State :=
  let p := (fsum ((List.range 41).map fun r => (fmul (s.num (fam 0x8100_02 r)) (s.num (fam 0x8100_03 r))).1)).1
  let s := s.setNum 0x8000_03 p
  let s := if isNan p then s else s.record 0x8000_04 p fun a b => !fle a b
  let was := s.power.powerOver
  let is := atThrottle s 5 p
  let s := modPower s fun q => { q with powerOver := is }
  let capped := s.power.throttles.any fun t => t.group == 5 && t.enforced
  if is && !was && !capped then requestThrottle s 5 0 p else s

/-! ### Enforcement (R525) -/

/-- The throttle level less the hysteresis. -/
def releaseLevel (s : State) (g : Nat) : Nat := sub32 (throttleTemp s g) (hyst s g)

/-- Still above the level at which a cap would end. -/
def stillHot (s : State) (g unit : Nat) : Bool :=
  match unitTemp s g unit with
  | some v => flt (releaseLevel s g) v
  | none => false

/-- Below that level. -/
def cooled (s : State) (g unit : Nat) : Bool :=
  match unitTemp s g unit with
  | some v => flt v (releaseLevel s g)
  | none => true

def facetsIn (mask : Nat) : List Nat := (List.range 32).filter fun f => mask.testBit f

/-- ENFORCED of each facet: one cap where any unit that governs it is capped. -/
def setCaps (s : State) : State :=
  let m := (s.power.throttles.filter fun t => t.enforced).foldl (fun m t => m ||| governs t.group t.unit) 0
  (List.range 32).foldl (fun s f => s.setNum (fam 0x8410_02 f) (if m.testBit f then s.num 0x8400_04 else 100)) s

/-- THROTTLE_ENFORCED: at the enforcement stamp of the oldest open request of a unit. -/
def execThrottleEnforced (group : Fin 6) (unit : Fin 8) (s : State) : Host.Outcome State Fault Refusal :=
  match s.power.throttles.find? fun t => t.group == group.val && t.unit == unit.val && !t.enforced && !stampBefore s.now t.enforceAt with
  | none => .next s
  | some t =>
    let s := modPower s fun p => { p with throttles := p.throttles.erase t }
    let capped := s.power.throttles.any fun q => q.group == t.group && q.unit == t.unit && q.enforced
    if !stillHot s t.group t.unit || capped then .next s
    else
      let s := setCaps (modPower s fun p => { p with throttles := p.throttles ++ [{ t with enforced := true }] })
      let m := governs t.group t.unit
      let s := recertify s ((facetsIn m).map (tasksOn s)).flatten.dedup 4 false true
      .next (settleAllFacets (s.raise 0x8022 0xFF (leBytes 4 m ++ leBytes 1 (s.num 0x8400_04))))

/-- THROTTLE_RELEASED: after GRACE frames below the throttle level less hysteresis. -/
def execThrottleReleased (group : Fin 6) (unit : Fin 8) (s : State) : Host.Outcome State Fault Refusal :=
  match s.power.throttles.find? fun t => t.group == group.val && t.unit == unit.val && t.enforced && s.num 0x8400_01 ≤ t.cool with
  | none => .next s
  | some t =>
    let s := setCaps (modPower s fun p => { p with throttles := p.throttles.erase t })
    .next (s.raise 0x8023 0xFF (leBytes 4 (governs t.group t.unit)))

/-- Frames below the release level counted for each cap, and the capped frames of each facet. -/
def throttleFrame (s : State) : State :=
  let s := modPower s fun p =>
    { p with throttles := p.throttles.map fun (t : Throttle) =>
        if !t.enforced then t else { t with cool := if cooled s t.group t.unit then t.cool + 1 else 0 } }
  (List.range 32).foldl (fun s f => if s.num (fam 0x8410_02 f) = 100 then s else s.inc (fam 0x8410_03 f)) s

/-! ### Slot caps (R526) -/

/-- The excess of a unit in thousandths of a kelvin, rounded; 10 W count as 1 K (R527). -/
def excess (s : State) (g unit : Nat) : Nat :=
  match unitTemp s g unit with
  | none => 0
  | some v =>
    match fl32 (sub32 v (throttleTemp s g)) with
    | .fin false m e =>
      let r := flRat false m e
      (rneDiv (r.1 * (if g = 5 then 100 else 1000)) r.2).toNat
    | .inf false => 10 ^ 9
    | _ => 0

/-- The slot target of a unit in percent, to the nearest percent. -/
def slotTarget (s : State) (milliK : Nat) : Nat :=
  let gain := match fl32 (s.num 0x8400_02) with
    | .fin false m e => flRat false m e
    | _ => (5, 1)
  let cut := (rneDiv (gain.1 * milliK) (gain.2 * 1000)).toNat
  max (s.num 0x8400_03) (100 - cut)

/-- The greatest excess among the units that govern a facet. -/
def facetExcess (s : State) (f : Nat) : Nat :=
  [(0, f / 4), (1, f / 4), (4, 0), (5, 0)].foldl (fun a u => max a (excess s u.1 u.2)) 0

/-- Once per frame the slot cap of each facet moves toward its target and stands for the frame that the horizon opens. -/
def slotCapFrame (s : State) : State :=
  let frame := s.now / frameTicks + s.num 0x2100_01
  let s := modPower s fun p => { p with slotCaps := p.slotCaps.filter fun c => s.now / frameTicks ≤ c.1.1 }
  (List.range 32).foldl (fun s f =>
    let cap := s.num (fam 0x8410_01 f)
    let target := slotTarget s (facetExcess s f)
    let step := s.num 0x8400_05
    let new := if cap < target then min target (cap + step) else max target (cap - step)
    let s := s.setNum (fam 0x8410_01 f) new
    if new = 100 then s else modPower s fun p => { p with slotCaps := p.slotCaps ++ [((frame, f), new)] }) s

end Sys2Proof.Machine
end

