-- ==== Sys2Proof/Machine/Contexts.lean ====
section
/-! DEFINITION. Contexts.lean: weight blocks, builds, repairs, the library and the context commands (R182-R219), with the
meanings of BUILD_VERIFY_COMPLETE and BUILD_STALL; the command writes call `ctxCommand`. -/

namespace Sys2Proof.Machine

/-! ### Blocks (R193-R196, R201) -/

/-- The peer port that a source's blocks come in by; none for the control node (R197). -/
def portOf (source : Nat) (d : Bytes) : Option Nat := if source = 1 then some (fieldAt d 10 1 % 4) else none

/-- The slot of a context receives blocks of a triple from a peer port, or from the control node: BUILDING from that source, or
a repair that waits for a block (R197, R201, R213). -/
def takesBlock (c : Ctx) (model stage copy block : Nat) (port : Option Nat) (b : Bool) : Bool :=
  let x := c.slot b
  c.model == model && c.stage == stage && x.copyId == copy
    && (x.state == .building && x.source != 2 && portOf x.source x.desc == port && (x.total == 0 || decide (block < x.total))
      || x.repairing.contains block && x.repairPort == port)

/-- Every block of the image has arrived. -/
def allBlocks (x : CopySlot) : Bool := x.total != 0 && (List.range x.total).all fun i => blockAt x.blocks i != []

/-- An image refused (R196): the build ends. -/
def refuseImage (s : State) (n : Nat) (b : Bool) (cause : Nat) : State :=
  let x := (getCtx s n).slot b
  let s := s.raise 0x5010 0xFF (ctxData n b x.copyId ++ leBytes 1 cause)
  clearSlot (buildFailed s n b 1) n b

/-- The pinned records of a copy written to their places (R190). -/
def writePins (s : State) (x : CopySlot) (pins : List Pin) : State :=
  let es := imgEntries x.blocks
  pins.foldl (fun s p =>
    match es.find? fun e => e.operand == p.operand with
    | none => s
    | some e =>
      let i := (p.rowTile * e.chunks + p.chunk) * fmtTrits e.format + p.trit
      let r := imageRead x.blocks (e.offset + i * recordBytes) recordBytes
      storeMem s (shelfBase p.pair + p.place * recordBytes) r) s

/-- Places and HBM3E space taken from the allotments once the directory is known (R189, R190). -/
def takeSpace (s : State) (n : Nat) (b : Bool) : State :=
  let x := (getCtx s n).slot b
  if !x.pins.isEmpty || x.spilled != 0 || x.hbmUsed != 0 then s else
  let t := takeImage s x.desc x.blocks
  if fieldAt x.desc 16 8 < t.hbm then clearSlot (buildFailed s n b 5) n b
  else
    let s := modSlot s n b fun x => { x with pins := t.pins, spilled := t.spilled, hbmUsed := t.hbm }
    if t.spilled = 0 then s else s.raise 0x5013 0xFF (ctxData n b x.copyId ++ leBytes 4 t.spilled)

/-- A build after a block has arrived: header and directory checked, space taken, and VERIFYING after the last block
(R194-R196, R199). -/
def settleBuild (s : State) (n : Nat) (b : Bool) : State :=
  let c := getCtx s n
  let x := c.slot b
  if x.state ≠ .building ∨ blockAt x.blocks 0 = [] then s else
  match imageCause s c.model c.stage x.copyId x.blocks with
  | some cause => refuseImage s n b cause
  | none =>
    let total := imgBlocks x.blocks
    let s := modSlot s n b fun x => { x with total := total, blocks := x.blocks.filter fun k => k.1 < total }
    if !dirArrived x.blocks then s else
    let s := takeSpace s n b
    let x := (getCtx s n).slot b
    if x.state = .building ∧ allBlocks x then
      writePins (modSlot s n b fun x => { x with state := .verifying }) x x.pins
    else s

/-- HBM3E traffic of builds, library copies and repairs: the remote share of the stack that holds the block (R198, R236, R254;
log entry 109). -/
def countBlock (s : State) (model stage copy block : Nat) : State :=
  s.add (fam 0x4010_03 (Config.imageStack model stage copy block).val) 4096

/-- A block for the slot of a context: kept when it is new. -/
def blockInto (s : State) (n : Nat) (b : Bool) (block : Nat) (data : Bytes) : State :=
  let x := (getCtx s n).slot b
  if blockAt x.blocks block ≠ [] then s else
  let s := countBlock s (getCtx s n).model (getCtx s n).stage x.copyId block
  let s := modSlot s n b fun x =>
    { x with blocks := putBlock x.blocks block (data ++ List.replicate (4096 - data.length) 0#8), gainAt := s.up,
             repairing := x.repairing.filter (· != block) }
  settleBuild s n b

/-- Blocks for the library (R202). -/
def libraryUsed (s : State) : Nat := s.library.foldl (fun a e => a + 4096 * e.total) 0

/-- The library's bytes on the stacks in service, an eighth each (R202, R504; log entry 112). -/
def libraryRoom (s : State) : Nat := libraryBytes s * stacksUp s / 8

/-- A block for a STORE in progress from its source, and whether it is taken; an image larger than the room left ends the STORE
(log entry 111). -/
def libBlock (s : State) (model stage copy block : Nat) (port : Option Nat) (data : Bytes) : Bool × State :=
  match s.library.find? fun e => e.model == model && e.stage == stage && e.copyId == copy && portOf e.source e.desc == port with
  | none => (false, s)
  | some e =>
    if e.total ≠ 0 ∧ e.total ≤ block then (false, s)
    else if blockAt e.blocks block ≠ [] then (true, s)
    else
      let bs := putBlock e.blocks block data
      let total := if blockAt bs 0 = [] then 0 else max (imgBlocks bs) 1
      let others := s.library.filter fun q => q != e
      if libraryRoom s < 4096 * (others.foldl (fun a q => a + q.total) 0 + total) then (false, { s with library := others })
      else
        let bs := if total = 0 then bs else bs.filter fun k => k.1 < total
        let s := countBlock s model stage copy block
        (true, { s with library := s.library.map fun q => if q = e then { e with blocks := bs, total := total } else q })

/-- The peer ports that a block of a triple goes on to, when it has come in by a port of its pipeline (R201). -/
def downPorts (s : State) (model stage copy : Nat) (port : Option Nat) : Nat :=
  s.contexts.foldl (fun m c =>
    if c.2.model ≠ model ∨ c.2.stage ≠ stage then m else
    c.2.pipes.foldl (fun m p => if p.copy = copy ∧ p.up = port then m ||| p.down else m) m) 0

/-- A block forwarded along the weight pipeline of every build of its triple (R201, R466). -/
def forwardBlock (s : State) (model stage copy block : Nat) (port : Option Nat) (data : Bytes) : State :=
  let mask := downPorts s model stage copy port
  (List.finRange 4).foldl (fun s (p : PeerPort) =>
    if !mask.testBit p.val then s else
    peerSend s p
      { type := 0x40, flags := 0, srcOrd := myOrdinal s, destOrd := s.num (fam 0xA010_05 p.val) % 256, hops := 1,
        channel := 3, seq := 0, ackSeq := 0, ringId := ringId s, creditField := 0,
        record := leBytes 4 model ++ leBytes 1 stage ++ leBytes 1 0 ++ leBytes 4 block, payload := leBytes 4 copy ++ data }) s

/-- The jigs that wait for a block of an operand homed NODE (R411): block `block` of the image of the task's copy. -/
def nodeJigs (s : State) (model stage copy block : Nat) : List JigRun :=
  s.jigs.filter fun j => !j.ended && j.reading != 0 && (match findTask s (jigTask s j), jigOperand s j with
    | some t, some e =>
      let c := getCtx s t.context
      let sh := jigShape j.entries
      c.model == model && c.stage == stage && t.copy == copy && sh.remote && decide (4 ≤ sh.stack)
        && (match jigAddr s sh (2 ^ 64) j.next with
          | .ok a => (blockSpan (e.offset + a) sh.len)[j.got.length / 4096]? == some block
          | .error _ => false)
    | _, _ => false)

/-- A weight block (R193) from a peer port, or from the control node: true where some build, repair, library entry or jig
takes it. -/
def receiveBlock (s : State) (model stage copy block : Nat) (port : Option Nat) (data : Bytes) : Bool × State :=
  let hits := (s.contexts.map fun c => [false, true].filterMap fun b =>
    if takesBlock c.2 model stage copy block port b then some (c.1, b) else none).flatten
  let s1 := hits.foldl (fun s h => blockInto s h.1 h.2 block data) s
  let js := if port.isNone then nodeJigs s model stage copy block else []
  let s2 := js.foldl (fun s j => jigReceive s j data) s1
  let (took, s3) := libBlock s2 model stage copy block port data
  (took || !hits.isEmpty || !js.isEmpty, s3)

/-! ### Verification (R199, R211, R213) -/

/-- The check of one item of an operand: 0 passed, 2 a record failed, 3 a stored tile refused. -/
def verifyItem (s : State) (n : Nat) (x : CopySlot) (e : OpEntry) (i : Nat) : Nat :=
  let p := e.position i
  let id : RecId := { context := n, copy := x.copyId, operand := e.operand, format := e.format, rowTile := p.1,
                      chunk := p.2.1, trit := p.2.2 }
  let d := imageRead x.blocks (e.offset + i * e.itemBytes) e.itemBytes
  if e.form = 0 then (if recordOk (s.num 0x3000_04) id d && girdleOk d then 0 else 2)
  else match convertTile (s.num 0x3000_04) id 512 128 d with
    | .ok _ => 0
    | .error _ => 3

/-- The cause of R210 that a copy's verification meets; 0 for none. `only`: the items to check. Where a record fails and a stored
tile is refused in one copy the manual gives no order: cause 2 (DESIGN CHOICE, log entry 139). -/
def verifyCopy (s : State) (n : Nat) (x : CopySlot) (only : OpEntry → Nat → Bool) : Nat :=
  let rs := ((imgEntries x.blocks).map fun e => ((List.range e.items).filter (only e)).map fun i => verifyItem s n x e i).flatten
  if rs.contains 2 then 2 else if rs.contains 3 then 3 else 0

/-- Requests that waited for a repair of a copy go on (R213). -/
def releaseWaiting (s : State) (n : Nat) (copy : Nat) : State :=
  (s.requests.filter fun r => r.context == n && r.damagedAt.isSome && (r.copyFor r.nextIndex == copy || !r.wasReplayed)).foldl
    (fun s r => awaitAdmission s r.jsn fun r => { r with damagedAt := none }) s

/-- The verification of a build ends. -/
def endBuild (s : State) (n : Nat) (b : Bool) : State :=
  let c := getCtx s n
  let x := c.slot b
  let cause := verifyCopy s n x fun _ _ => true
  if cause ≠ 0 then clearSlot (buildFailed s n b cause) n b
  else
    let wanted := s.needed.contains (c.model, c.stage, x.copyId)
    let s := modSlot s n b fun x => { x with state := if wanted then .draining else .complete }
    settleCtx (pruneNeeded (s.raise 0x5011 0xFF (ctxData n b x.copyId))) n

/-- The verification of a repair ends: the damaged flag cleared, the records of its blocks written again to their places. What a
verification that fails leaves the manual does not say: the blocks that came are dropped, the copy stays damaged and nothing
is raised (DESIGN CHOICE, log entry 141). -/
def endRepair (s : State) (n : Nat) (b : Bool) : State :=
  let x := (getCtx s n).slot b
  let hit := fun (e : OpEntry) (i : Nat) => (e.itemBlocks i).any x.damaged.contains
  if verifyCopy s n x hit ≠ 0 then
    modSlot s n b fun x => { x with blocks := x.blocks.filter fun k => !x.damaged.contains k.1 }
  else
    let pins := x.pins.filter fun p => (pinBlocks x p).any x.damaged.contains
    let s := writePins s x pins
    let s := modSlot s n b fun x => { x with damaged := [], repairing := [] }
    releaseWaiting (s.raise 0x5017 0xFF (ctxData n b x.copyId)) n x.copyId

/-- BUILD_VERIFY_COMPLETE (R199, R213): the checks of a copy in VERIFYING, or of a repair whose blocks have all come. -/
def execBuildVerifyComplete (context : BitVec 12) (slot : Bool) (s : State) : Host.Outcome State Fault Refusal :=
  let x := (getCtx s context.toNat).slot slot
  if x.state = .verifying then .next (endBuild s context.toNat slot)
  else if !x.damaged.isEmpty && x.repairing.isEmpty && x.damaged.all (fun k => blockAt x.blocks k != []) then
    .next (endRepair s context.toNat slot)
  else .next s

/-- BUILD_STALL (R200): no block gained for 5000h.06 frames. -/
def execBuildStall (context : BitVec 12) (slot : Bool) (s : State) : Host.Outcome State Fault Refusal :=
  let x := (getCtx s context.toNat).slot slot
  if x.state = .building ∧ s.num 0x5000_06 * frameTicks ≤ s.since x.gainAt then
    .next (modSlot (buildFailed s context.toNat slot 4) context.toNat slot fun x => { x with state := .stopped })
  else .next s

/-! ### Commands (R184, R197, R202-R215) -/

/-- A descriptor's own form (R215). -/
def descOk (d : Bytes) : Bool :=
  d.length == 64 && fieldAt d 5 3 == 0 && fieldAt d 12 4 == 0 && fieldAt d 37 27 == 0 && fieldAt d 11 1 < 16
    && (fieldAt d 24 8 == 0 || (stampTicks (fieldAt d 24 8)).isSome)

/-- UP_PORT of a command with a source: a peer port for source 1, FFh otherwise (R215). -/
def upPortOk (source : Nat) (d : Bytes) : Bool := if source = 1 then fieldAt d 10 1 < 4 else fieldAt d 10 1 == 0xFF

/-- Operations with a source (R215). -/
def sourced (op : Nat) : Bool := [3, 6, 8].contains op

/-- The operations and what they do with the pending descriptor. -/
def descNeeded (op : Nat) : Bool := [1, 3, 6, 7, 8, 9].contains op
def descUsed (op : Nat) : Bool := descNeeded op || op == 4

/-- Record places allotted on a pair (R189). -/
def allottedPlaces (s : State) (pair : Nat) : Nat :=
  s.contexts.foldl (fun a c => a + [false, true].foldl (fun a b =>
    let x := c.2.slot b
    if x.state = .empty || !(buildPairs s x.desc).contains pair then a else a + fieldAt x.desc 8 2) 0) 0

/-- Room for a build (R189): on every pair that it pins on, and in HBM3E. -/
def roomFor215 (s : State) (d : Bytes) : Bool :=
  (buildPairs s d).all (fun n =>
    allottedPlaces s n + fieldAt d 8 2 ≤ (usablePlaces s n).length - s.num 0x5000_03)
    && (allotExtents s (fieldAt d 16 8)).isSome

def findLib (s : State) (model stage copy : Nat) : Option LibEntry :=
  s.library.find? fun e => e.model == model && e.stage == stage && e.copyId == copy && e.total != 0
    && (List.range e.total).all fun i => blockAt e.blocks i != []

/-- All blocks of a library entry copied to a slot that takes them; each is read and written in HBM3E (R198). -/
def copyLib (s : State) (n : Nat) (b : Bool) (e : LibEntry) (only : Nat → Bool) : State :=
  e.blocks.foldl (fun s k =>
    if only k.1 then blockInto (countBlock s e.model e.stage e.copyId k.1) n b k.1 k.2 else s) s

/-- The state of a slot that a BUILD begins, with its extents, or resumes: a resumed one keeps its blocks and, of the first
descriptor, only the allotments that it holds (R189, R197). -/
def buildSlot (x : CopySlot) (resume : Bool) (source copy now : Nat) (d : Bytes) (extents : List (Nat × Nat)) : CopySlot :=
  if resume then
    let d := d.take 8 ++ (x.desc.drop 8).take 2 ++ (d.drop 10).take 6 ++ (x.desc.drop 16).take 8 ++ (d.drop 24).take 12
      ++ (x.desc.drop 36).take 1 ++ d.drop 37
    { x with state := .building, source := source, desc := d, gainAt := now }
  else { emptySlot with state := .building, copyId := copy, source := source, desc := d, gainAt := now, askedAt := now, extents := extents }

/-- BUILD (R197). -/
def cmdBuild (s : State) (n : Nat) (b : Bool) (source copy : Nat) (d : Bytes) : Nat × State :=
  let c := getCtx s n
  let x := c.slot b
  let resume := x.state == .stopped && x.copyId == copy
  if c.state = .closing ∧ !s.needed.contains (c.model, c.stage, copy) then (11, s)
  else if copy = 0 ∨ copy = (c.slot (!b)).copyId then (5, s)
  else if !resume && x.state != .empty then (4, s)
  else if source = 2 ∧ (findLib s c.model c.stage (fieldAt d 32 4)).isNone then (9, s)
  else if !resume && !roomFor215 s d then (6, s)
  else
    let pipe : List Pipe := if source = 2 then [] else [{ slot := b, copy := copy, up := portOf source d, down := fieldAt d 11 1 % 16 }]
    let s := setCtx s n { c with pipes := (c.pipes.filter fun p => p.slot != b) ++ pipe }
    let s := settleBuild (modSlot s n b fun x => buildSlot x resume source copy s.up d ((allotExtents s (fieldAt d 16 8)).getD [])) n b
    if source ≠ 2 then (0, s) else
    match findLib s c.model c.stage (fieldAt d 32 4) with
    | some e =>
      let s := modSlot s n b fun x => { x with fromLib := x.fromLib ++ [e.copyId] }
      (0, copyLib s n b e fun k =>
        let x := (getCtx s n).slot b
        x.state = .building && (x.total = 0 || k < x.total) && blockAt x.blocks k == [])
    | none => (0, s)

/-- DEREGISTER (R184). -/
def cmdDeregister (s : State) (n : Nat) : Nat × State :=
  let c := getCtx s n
  if c.state = .closing then (11, s) else
  let stop := fun (s : State) (b : Bool) =>
    match ((getCtx s n).slot b).state with
    | .building => clearSlot (buildFailed s n b 6) n b
    | .verifying => clearSlot (buildFailed s n b 6) n b
    | .stopped => clearSlot s n b
    | _ => s
  let s := setCtx s n { c with state := .closing, pendingTo := none, notBefore := none, pipes := [] }
  (0, settleCtx (stop (stop (saveReg s n) false) true) n)

/-- The certificate check of R281: each admitted slot-class and stream-class task of the context, priced at the other
copy's homes from its own start, meets its bound. -/
def switchOk (s : State) (n : Nat) (b : Bool) : Bool :=
  s.tasks.all fun t => t.context != n || t.cls == .fill ||
    (let p := planOf s (withoutTask s.tables t.num) t.cls t.num t.start (if b then t.graph.altB else t.graph.altA) []
     s.meets p.cert t.bound)

/-- SWITCH (R205, R206). R215 names no result for a damaged copy: 4 (DESIGN CHOICE, log entry 138). -/
def cmdSwitch (s : State) (n : Nat) (b : Bool) (notBefore : Nat) : Nat × State :=
  let c := getCtx s n
  let x := c.slot b
  if c.state = .closing then (11, s)
  else if x.state = .current then (0, settleCtx (setCtx s n { c with pendingTo := none, notBefore := none }) n)
  else if (x.state != .complete && x.state != .draining) || !x.damaged.isEmpty then (4, s)
  else if !switchOk s n b then (7, s)
  else
    let s := setCtx s n { c with pendingTo := some b, notBefore := if notBefore = 0 then none else stampTicks notBefore }
    let s := if c.currentCopy.isNone && mitreDue s (getCtx s n) then mitre s n none else s
    (0, settleCtx s n)

/-- DISCARD (R206, R210). -/
def cmdDiscard (s : State) (n : Nat) (b : Bool) : Nat × State :=
  let c := getCtx s n
  if c.pendingTo = some b then (10, s) else
  match (c.slot b).state with
  | .building => (0, settleCtx (dropPipe (clearSlot (buildFailed s n b 6) n b) n b) n)
  | .verifying => (0, settleCtx (dropPipe (clearSlot (buildFailed s n b 6) n b) n b) n)
  | .stopped => (0, settleCtx (dropPipe (clearSlot s n b) n b) n)
  | .complete => (0, settleCtx (retireSlot s n b) n)
  | _ => (4, s)

/-- REPAIR (R213). The manual gives no result for a copy that is not damaged: 5 (DESIGN CHOICE, log entry 140). -/
def cmdRepair (s : State) (n : Nat) (b : Bool) (source copy : Nat) (d : Bytes) : Nat × State :=
  let c := getCtx s n
  let x := c.slot b
  if x.state.code < 4 then (4, s)
  else if copy = 0 ∨ copy ≠ x.copyId ∨ x.damaged.isEmpty then (5, s)
  else
    let lib := findLib s c.model c.stage (fieldAt d 32 4)
    if source = 2 ∧ lib.isNone then (9, s) else
    let missing := x.damaged.filter fun k => blockAt x.blocks k == []
    let s := modSlot s n b fun x =>
      { x with
        repairing := if source = 2 then [] else missing
        repairPort := portOf source d
        gainAt := s.up
        askedAt := s.up }
    match lib with
    | some e => (0, if source = 2 then copyLib s n b e missing.contains else s)
    | none => (0, s)

/-- ABANDON (R212). -/
def cmdAbandon (s : State) (model stage copy : Nat) : Nat × State :=
  let rs := s.requests.filter fun r => r.model == model && r.stage == stage && (namedCopies s r).contains copy
  if copy = 0 ∨ (rs.isEmpty ∧ !s.needed.contains (model, stage, copy)) then (5, s) else
  let s := rs.foldl (fun s r =>
    match s.tasks.find? fun t => t.jsn == r.jsn with
    | some t => abortTask s t.num (.complete 12) 256
    | none => endRequest s r.jsn 12 0 0 0) s
  let s := { s with needed := s.needed.filter fun e => e != (model, stage, copy) }
  let s := s.raise 0x5019 0xFF (noSlotData (((s.contexts.find? fun c => c.2.model == model && c.2.stage == stage).map Prod.fst).getD 0xFFFF) copy ++ leBytes 4 rs.length)
  (0, settleAll s)

/-- STORE (R202). -/
def cmdStore (s : State) (source model stage copy : Nat) (d : Bytes) : Nat × State :=
  if copy = 0 then (5, s)
  else if source = 2 then (8, s)
  else if libraryRoom s ≤ libraryUsed s then (6, s)
  else if s.library.any fun e => e.model == model && e.stage == stage && e.copyId == copy then (0, s)
  else
    let e : LibEntry := { model := model, stage := stage, copyId := copy, blocks := [], total := 0, source := source, desc := d }
    (0, { s with library := s.library ++ [e] })

/-- UNSTORE (R202). -/
def cmdUnstore (s : State) (model stage copy : Nat) : Nat × State :=
  let used := s.contexts.any fun c => c.2.model == model && c.2.stage == stage && [false, true].any fun b =>
    let x := c.2.slot b
    x.state != .empty && x.fromLib.contains copy
  if used || !s.library.any (fun e => e.model == model && e.stage == stage && e.copyId == copy) then (9, s)
  else (0, { s with library := s.library.filter fun e => !(e.model == model && e.stage == stage && e.copyId == copy) })

/-- Requests adopted without a context take one that has just been registered with their MODEL and STAGE (R501). -/
def mapAdopted (s : State) (n : Nat) : State :=
  let c := getCtx s n
  let mine := s.requests.filter fun r => r.context == 0xFFFF && r.model == c.model && r.stage == c.stage
  let s := { s with
    requests := s.requests.map fun r => if mine.contains r then { r with context := n } else r
    sessions := s.sessions.map fun x =>
      if x.context = 0xFFFF ∧ mine.any (fun r => r.session == some x.num) then { x with context := n } else x }
  let s := mine.foldl (fun s r => awaitAdmission s r.jsn id) s
  (mine.filter fun r => s.sessions.any fun x => some x.num == r.session && x.context != n).foldl
    (fun s r => endRequest s r.jsn 14 0 0 0) s

/-- REGISTER (R182, R185). -/
def cmdRegister (s : State) (n model stage : Nat) : Nat × State :=
  if (getCtx s n).state ≠ .unregistered then (2, s)
  else (0, mapAdopted (saveReg (setCtx s n { noCtx with state := .registered, model := model, stage := stage }) n) n)

/-- A context command refused for the node state (R215, R613): LAST_RESULT, and a descriptor that it would use is consumed. -/
def ctxRefused (s : State) (op : Nat) : State :=
  (if descUsed op then { s with ctxDesc := none } else s).setNum 0x5010_03 3

/-- A context command judged and carried out (R215): node state, descriptor, context, then the command's own checks; the
result stands in LAST_RESULT. -/
def ctxCommand (s : State) (op n : Nat) (b : Bool) (source copy : Nat) : Nat × State :=
  let d := s.ctxDesc
  let s := if descUsed op then { s with ctxDesc := none } else s
  let desc := d.getD []
  let stateOk := s.node == .configuring || s.node == .serving || (s.node == .quiesced && [2, 5, 7].contains op)
  let descBad := (descNeeded op && d.isNone) || (descUsed op && d.isSome && !descOk desc)
    || (sourced op && !upPortOk source desc)
  let named := [2, 3, 4, 5, 6].contains op
  let (r, s) : Nat × State :=
    if !stateOk then (3, s)
    else if named && (getCtx s n).state == .unregistered then (1, s)
    else if descBad then (8, s)
    else match op with
      | 1 => cmdRegister s n (fieldAt desc 0 4) (fieldAt desc 4 1)
      | 2 => cmdDeregister s n
      | 3 => cmdBuild s n b source copy desc
      | 4 => cmdSwitch s n b (fieldAt desc 24 8)
      | 5 => cmdDiscard s n b
      | 6 => cmdRepair s n b source copy desc
      | 7 => cmdAbandon s (fieldAt desc 0 4) (fieldAt desc 4 1) copy
      | 8 => cmdStore s source (fieldAt desc 0 4) (fieldAt desc 4 1) copy desc
      | _ => cmdUnstore s (fieldAt desc 0 4) (fieldAt desc 4 1) copy
  (r, s.setNum 0x5010_03 r)

end Sys2Proof.Machine
end

