-- ==== Sys2Proof/Machine/Crypto.lean ====
section
/-! DEFINITION. Crypto.lean: SHA-512, MGF1 and RSASSA-PSS verification with RSA-4096 keys as R565 to R569 use them. Octet
strings are most significant byte first here (R567). The algorithms are those of the standards the manual names (log entry
40). -/

namespace Sys2Proof.Machine

/-! ### SHA-512 -/

/-- The 80 round constants, in four parts. -/
def shaK0 : List (BitVec 64) := [
  0x428A2F98D728AE22, 0x7137449123EF65CD, 0xB5C0FBCFEC4D3B2F, 0xE9B5DBA58189DBBC,
  0x3956C25BF348B538, 0x59F111F1B605D019, 0x923F82A4AF194F9B, 0xAB1C5ED5DA6D8118,
  0xD807AA98A3030242, 0x12835B0145706FBE, 0x243185BE4EE4B28C, 0x550C7DC3D5FFB4E2,
  0x72BE5D74F27B896F, 0x80DEB1FE3B1696B1, 0x9BDC06A725C71235, 0xC19BF174CF692694,
  0xE49B69C19EF14AD2, 0xEFBE4786384F25E3, 0x0FC19DC68B8CD5B5, 0x240CA1CC77AC9C65]

def shaK1 : List (BitVec 64) := [
  0x2DE92C6F592B0275, 0x4A7484AA6EA6E483, 0x5CB0A9DCBD41FBD4, 0x76F988DA831153B5,
  0x983E5152EE66DFAB, 0xA831C66D2DB43210, 0xB00327C898FB213F, 0xBF597FC7BEEF0EE4,
  0xC6E00BF33DA88FC2, 0xD5A79147930AA725, 0x06CA6351E003826F, 0x142929670A0E6E70,
  0x27B70A8546D22FFC, 0x2E1B21385C26C926, 0x4D2C6DFC5AC42AED, 0x53380D139D95B3DF,
  0x650A73548BAF63DE, 0x766A0ABB3C77B2A8, 0x81C2C92E47EDAEE6, 0x92722C851482353B]

def shaK2 : List (BitVec 64) := [
  0xA2BFE8A14CF10364, 0xA81A664BBC423001, 0xC24B8B70D0F89791, 0xC76C51A30654BE30,
  0xD192E819D6EF5218, 0xD69906245565A910, 0xF40E35855771202A, 0x106AA07032BBD1B8,
  0x19A4C116B8D2D0C8, 0x1E376C085141AB53, 0x2748774CDF8EEB99, 0x34B0BCB5E19B48A8,
  0x391C0CB3C5C95A63, 0x4ED8AA4AE3418ACB, 0x5B9CCA4F7763E373, 0x682E6FF3D6B2B8A3,
  0x748F82EE5DEFB2FC, 0x78A5636F43172F60, 0x84C87814A1F0AB72, 0x8CC702081A6439EC]

def shaK3 : List (BitVec 64) := [
  0x90BEFFFA23631E28, 0xA4506CEBDE82BDE9, 0xBEF9A3F7B2C67915, 0xC67178F2E372532B,
  0xCA273ECEEA26619C, 0xD186B8C721C0C207, 0xEADA7DD6CDE0EB1E, 0xF57D4F7FEE6ED178,
  0x06F067AA72176FBA, 0x0A637DC5A2C898A6, 0x113F9804BEF90DAE, 0x1B710B35131C471B,
  0x28DB77F523047D84, 0x32CAAB7B40C72493, 0x3C9EBE0A15C9BEBC, 0x431D67C49C100D4C,
  0x4CC5D4BECB3E42B6, 0x597F299CFC657E2A, 0x5FCB6FAB3AD6FAEC, 0x6C44198C4A475817]

def shaK : List (BitVec 64) := shaK0 ++ shaK1 ++ shaK2 ++ shaK3

/-- The eight working words. -/
structure Sha where
  a : BitVec 64
  b : BitVec 64
  c : BitVec 64
  d : BitVec 64
  e : BitVec 64
  f : BitVec 64
  g : BitVec 64
  h : BitVec 64
  deriving DecidableEq, Repr

def shaStart : Sha :=
  ⟨0x6A09E667F3BCC908, 0xBB67AE8584CAA73B, 0x3C6EF372FE94F82B, 0xA54FF53A5F1D36F1,
   0x510E527FADE682D1, 0x9B05688C2B3E6C1F, 0x1F83D9ABFB41BD6B, 0x5BE0CD19137E2179⟩

def shaRound (x : Sha) (k w : BitVec 64) : Sha :=
  let s1 := x.e.rotateRight 14 ^^^ x.e.rotateRight 18 ^^^ x.e.rotateRight 41
  let ch := (x.e &&& x.f) ^^^ (~~~x.e &&& x.g)
  let t1 := x.h + s1 + ch + k + w
  let s0 := x.a.rotateRight 28 ^^^ x.a.rotateRight 34 ^^^ x.a.rotateRight 39
  let maj := (x.a &&& x.b) ^^^ (x.a &&& x.c) ^^^ (x.b &&& x.c)
  ⟨t1 + (s0 + maj), x.a, x.b, x.c, x.d + t1, x.e, x.f, x.g⟩

/-- The rounds of one block: the constants still to come, and the window of 16 schedule words. -/
def shaRounds : List (BitVec 64) → List (BitVec 64) → Sha → Sha
  | k :: ks, w :: ws, x =>
    let w1 := ws.getD 0 0
    let w14 := ws.getD 13 0
    let next := (w14.rotateRight 19 ^^^ w14.rotateRight 61 ^^^ w14 >>> 6) + ws.getD 8 0
      + (w1.rotateRight 1 ^^^ w1.rotateRight 8 ^^^ w1 >>> 7) + w
    shaRounds ks (ws ++ [next]) (shaRound x k w)
  | _, _, x => x

def shaBlock (x : Sha) (ws : List (BitVec 64)) : Sha :=
  let y := shaRounds shaK ws x
  ⟨x.a + y.a, x.b + y.b, x.c + y.c, x.d + y.d, x.e + y.e, x.f + y.f, x.g + y.g, x.h + y.h⟩

/-- The number of an octet string, most significant byte first. -/
def beNat (b : Bytes) : Nat := b.foldl (fun a x => a * 256 + x.toNat) 0

/-- `n` octets of a number, most significant byte first. -/
def beBytes (n v : Nat) : Bytes := (leBytes n v).reverse

/-- The words of an octet string, eight bytes each; `fuel` words at most. -/
def beWords : Nat → Bytes → List (BitVec 64)
  | 0, _ => []
  | n + 1, b => BitVec.ofNat 64 (beNat (b.take 8)) :: beWords n (b.drop 8)

def shaBlocks : Nat → Bytes → Sha → Sha
  | 0, _, x => x
  | n + 1, b, x => shaBlocks n (b.drop 128) (shaBlock x (beWords 16 b))

/-- SHA-512. -/
def sha512 (m : Bytes) : Bytes :=
  let zeros := (239 - m.length % 128) % 128
  let p := m ++ 0x80#8 :: List.replicate zeros 0#8 ++ beBytes 16 (8 * m.length)
  let x := shaBlocks (p.length / 128) p shaStart
  ([x.a, x.b, x.c, x.d, x.e, x.f, x.g, x.h].map fun w => beBytes 8 w.toNat).flatten

/-! ### RSASSA-PSS (R569) -/

/-- MGF1 with SHA-512: `n` digests. -/
def mgf1 (seed : Bytes) (n : Nat) : Bytes := ((List.range n).map fun i => sha512 (seed ++ beBytes 4 i)).flatten

/-- `x` to the power 65,537 modulo `n` (R565). -/
def rsaPublic (n x : Nat) : Nat := (List.range 16).foldl (fun a _ => a * a % n) (x % n) * x % n

def xorBytes (a b : Bytes) : Bytes := (a.zip b).map fun p => p.1 ^^^ p.2

/-- The encoded message of 512 octets holds the digest: trailer, cleared top bit, padding, and the digest over eight zero
octets, the message's digest and the salt of 64 octets. -/
def pssCheck (digest em : Bytes) : Bool :=
  let masked := em.take 447
  let h := (em.drop 447).take 64
  let db := xorBytes masked (mgf1 h 7)
  let db := match db with
    | x :: xs => (x &&& 0x7F#8) :: xs
    | [] => []
  em.length == 512 && em.getLast? == some 0xBC#8 && (em.headD 0xFF#8).toNat < 128
    && db.take 383 == List.replicate 382 0#8 ++ [0x01#8]
    && h == sha512 (List.replicate 8 0#8 ++ digest ++ db.drop 383)

/-- RSASSA-PSS verification with a modulus of 512 octets (R569). -/
def pssVerify (modulus digest signature : Bytes) : Bool :=
  let n := beNat modulus
  let x := beNat signature
  signature.length == 512 && decide (x < n) && pssCheck digest (beBytes 512 (rsaPublic n x))

end Sys2Proof.Machine
end

