-- ==== Sys2Proof/Machine/Firmware.lean ====
section
/-! DEFINITION. Firmware.lean: firmware images and seal blocks (R566-R577): which image the D32 accepts, and the access map. -/

namespace Sys2Proof.Machine

/-! ### The seal block (R575, R576) -/

/-- A memory window. -/
structure Window where
  base : Nat
  size : Nat
  space : Nat
  rights : Nat
  rest : Nat
  deriving DecidableEq, Repr

/-- An access-map entry. -/
structure MapEntry where
  lo : Nat
  hi : Nat
  sub : Nat
  flags : Nat
  rest : Nat
  deriving DecidableEq, Repr

def windowAt (b : Bytes) : Window :=
  { base := fieldAt b 0 8, size := fieldAt b 8 4, space := fieldAt b 12 1, rights := fieldAt b 13 1, rest := fieldAt b 14 2 }

def mapEntryAt (b : Bytes) : MapEntry :=
  { lo := fieldAt b 0 2, hi := fieldAt b 2 2, sub := fieldAt b 4 1, flags := fieldAt b 5 1, rest := fieldAt b 6 2 }

/-- `n` pieces of `k` octets. -/
def pieces (k : Nat) : Nat → Bytes → List Bytes
  | 0, _ => []
  | n + 1, b => b.take k :: pieces k n (b.drop k)

/-- The windows' and the access map's octets of a seal block. -/
def sealWindows (b : Bytes) : Bytes := (b.drop 8).take (16 * fieldAt b 0 1)
def sealMap (b : Bytes) : Bytes :=
  let o := 8 + 16 * fieldAt b 0 1
  (b.drop (o + 8)).take (8 * fieldAt b o 2)

def windowsOf (b : Bytes) : List Window := (pieces 16 (b.length / 16) b).map windowAt
def mapOf (b : Bytes) : List MapEntry := (pieces 8 (b.length / 8) b).map mapEntryAt

def Window.bytes (w : Window) : Nat := 4096 * w.size

/-- Two ranges share a byte. -/
def rangesMeet (a n b m : Nat) : Bool := a < b + m && b < a + n

def Window.ok (w : Window) : Bool :=
  w.base % 4096 == 0 && 1 ≤ w.size && w.space ≤ 3 && w.rights < 64 && w.rest == 0
    && (w.rights == 0 || w.space != 0 || !rangesMeet w.base w.bytes Config.keyStore.1 Config.keyStore.2)

def windowsApart : List Window → Bool
  | [] => true
  | w :: ws => (ws.all fun v => w.space != v.space || !rangesMeet w.base w.bytes v.base v.bytes) && windowsApart ws

/-- An entry covers an index and a subindex. -/
def MapEntry.covers (e : MapEntry) (index sub : Nat) : Bool :=
  e.lo ≤ index && index ≤ e.hi && (e.sub == 0xFF || e.sub == sub)

/-- An entry covers an index of a range, at whatever subindex. -/
def MapEntry.meets (e : MapEntry) (lo hi : Nat) : Bool := e.lo ≤ hi && lo ≤ e.hi

def MapEntry.ok (e : MapEntry) : Bool :=
  e.lo ≤ e.hi && e.flags < 4 && e.rest == 0
    && !(e.flags.testBit 0 && ([0x0000, 0x0010, 0x0020, 0x1000].any (fun i => e.meets i i) || e.meets 0xC000 0xC030))
    && !(e.flags.testBit 1 && (e.meets 0x1001 0x1001 || e.covers 0xC030 1))

/-- A seal block is well formed; its length is that of its layout (log entry 41). -/
def sealOk (b : Bytes) : Bool :=
  let n := fieldAt b 0 1
  let o := 8 + 16 * n
  let m := fieldAt b o 2
  1 ≤ n && n ≤ 16 && fieldAt b 1 7 == 0 && m ≤ 128 && fieldAt b (o + 2) 6 == 0 && b.length == o + 8 + 8 * m
    && (windowsOf (sealWindows b)).all Window.ok && windowsApart (windowsOf (sealWindows b))
    && (mapOf (sealMap b)).all MapEntry.ok

/-- The access map in force refuses a read (bit 0) or a write (bit 1) of an entry. -/
def mapDenies (s : State) (index sub bit : Nat) : Bool :=
  (mapOf (s.blob 0xC010_04)).any fun e => e.flags.testBit bit && e.covers index sub

/-- The windows in force grant a right, as the bit of RIGHTS, over every access of 64 bytes of a range of a space (R575, R577). -/
def windowsGrant (s : State) (space bit base len : Nat) : Bool :=
  let ws := windowsOf (s.blob 0xC010_03)
  (List.range (ceilDiv len 64)).all fun k =>
    ws.any fun w => w.space == space && w.rights.testBit bit && w.base ≤ base + 64 * k
      && base + min len (64 * k + 64) ≤ w.base + w.bytes

/-! ### Images (R568-R570) -/

def fwVersion (b : Bytes) : Nat := fieldAt b 8 4
def fwSvn (b : Bytes) : Nat := fieldAt b 12 1
def fwLength (b : Bytes) : Nat := fieldAt b 16 4
def fwSeal (b : Bytes) : Bytes := (b.drop (fieldAt b 20 4)).take (fieldAt b 24 4)

def asciiBytes (l : List Nat) : Bytes := l.map (BitVec.ofNat 8)

/-- LDVF, LDVA and D32-A1. -/
def ldvf : Bytes := asciiBytes [0x4C, 0x44, 0x56, 0x46]
def ldva : Bytes := asciiBytes [0x4C, 0x44, 0x56, 0x41]
def target : Bytes := asciiBytes [0x44, 0x33, 0x32, 0x2D, 0x41, 0x31, 0, 0]

/-- The octets that are signed: the image with SIGNATURE taken as zero. -/
def fwSigned (b : Bytes) : Bytes :=
  let b := b.take (fwLength b)
  b.take 576 ++ List.replicate 512 0#8 ++ b.drop 1088

/-- M1 (R569, R579). -/
def fwDigest (b : Bytes) : Bytes := sha512 (fwSigned b)

def svnFloor (s : State) : Nat := s.num 0xC000_07

/-- The first check of R570 that fails; none where the image is accepted. -/
def fwCause (s : State) (img : Option Bytes) : Option Nat :=
  match img with
  | none => some 8
  | some b =>
    if b.take 4 ≠ ldvf ∨ fieldAt b 4 2 ≠ 1 ∨ fieldAt b 6 2 ≠ 0 ∨ 2 ≤ fieldAt b 13 1 ∨ fieldAt b 14 2 ≠ 0 ∨ fieldAt b 36 28 ≠ 0
      ∨ fieldAt b 1088 3008 ≠ 0 then some 1
    else if (b.drop 28).take 8 ≠ target then some 2
    else if fwLength b < 8192 ∨ 16777216 < fwLength b ∨ b.length < fwLength b ∨ fwLength b < fieldAt b 20 4 + fieldAt b 24 4 then
      some 3
    else if sha512 ((b.drop 64).take 512) ≠ Config.rootKeyHash then some 4
    else if !pssVerify ((b.drop 64).take 512) (fwDigest b) ((b.drop 576).take 512) then some 5
    else if fwSvn b < svnFloor s then some 6
    else if !sealOk (fwSeal b) then some 7
    else none

/-- The image in a slot or the buffer. -/
def imageIn (s : State) (k : Nat) : Option Bytes := (s.boot.images.toList[k]?).join

/-- FW_VERSION of an image that boot would accept; 0 when invalid (C000h.04 to C000h.06). -/
def slotFw (s : State) (k : Nat) : Nat :=
  match imageIn s k with
  | some b => if fwCause s (some b) = none then fwVersion b else 0
  | none => 0

end Sys2Proof.Machine
end

