-- ==== Sys2Proof/Machine/Engine.lean ====
section
/-! DEFINITION. Engine.lean: the commands of the facet sequencers and the fences and waits of every engine (R146-R166): one
meaning for each row. A row acts when the head of the queue it names is its command. -/

namespace Sys2Proof.Machine

/-! ### Queues and bindings -/

/-- The reservations of an engine among which one takes its place by its beginning. -/
def insertReserved (r : Reservation) : List Reservation → List Reservation
  | [] => [r]
  | q :: l => if r.begins < q.begins then r :: q :: l else q :: insertReserved r l

/-- The tasks of the reservations of an engine, in their order (R269). -/
def reservedTasks (s : State) (e : Nat) : List Nat :=
  ((s.tables.filter fun r => r.engine == e).foldl (fun l r => insertReserved r l) []).map fun r => r.task

/-- The tasks that the commands waiting in a queue belong to: that of the binding and of each BIND behind it. -/
def queuedTasks (q : CmdQueue) : List Nat :=
  (q.binding.map fun b => b.task).toList ++ (q.cmds.filter fun w => cmdOp w == 1).map fun w => (bindOf w).task

/-- Tasks follow one another as the reservations of an engine do (R269). -/
def followOrder : List Nat → List Nat → Bool
  | [], _ => true
  | t :: ts, rs => match rs.dropWhile fun r => r != t with
    | [] => false
    | r :: l => followOrder ts (r :: l)

/-- A BIND carries the context and the copy of the batch that its task was issued in (R204, R208). -/
def bindIssued (s : State) (b : Binding) : Bool :=
  s.batches.any fun x => x.tasks.contains b.task && x.context == b.context && x.copy == b.copy

/-- The scheduler writes a BIND of an admitted task once its batch has been issued, with the batch's copy (R204), to the queue of its
class (R146, R268), and to a priority queue in the order of the reservations on that engine (R269). -/
def bindInOrder (s : State) (e : Nat) (prio : Bool) (w : BitVec 128) : Bool :=
  match findTask s (bindOf w).task with
  | none => true
  | some t =>
    (t.cls != .fill) == prio && bindIssued s (bindOf w)
      && (!prio ||
        let rs := reservedTasks s e
        followOrder ((queuedTasks ((engineN s e).own prio) ++ [t.num]).filter rs.contains) rs)

/-- The binding under which a command behind all that a queue holds will run (R148). -/
def lastBinding (q : CmdQueue) : Option Binding :=
  (((q.cmds.filter fun w => cmdOp w == 1).getLast?).map bindOf).or q.binding

/-- The pinned records of an operand of a copy on a pair: its part of the copy's place table (R190). -/
def placesOf (s : State) (pair : Nat) (b : Binding) : List Pin :=
  match (getCtx s b.context).holding b.copy with
  | some k => ((getCtx s b.context).slot k).pins.filter fun p => p.pair == pair && p.operand == b.operand
  | none => []

/-- A command with another SRC. -/
def withSrc (w : BitVec 128) (place : Nat) : BitVec 128 :=
  BitVec.ofNat 128 (w.toNat - srcField w * 2 ^ 9 + place % 2 ^ 14 * 2 ^ 9)

/-- The place of the record that a shelf-sourced PRELOAD names by operand, row tile, chunk and trit index: the one pinned for the
bound copy (R190), or the one cached for it (R191). -/
def recordPlace (s : State) (f : Nat) (b : Binding) (w : BitVec 128) : Option Nat :=
  let is := fun (o r c t : Nat) => o == b.operand && r == preRowTile w && c == preChunk w && t == preTrit w
  match (placesOf s (f / 4) b).find? fun p => is p.operand p.rowTile p.chunk p.trit with
  | some p => some p.place
  | none => (((s.cache[f / 4]?).getD []).find? fun e => e.1.context == b.context && e.1.copy == b.copy
      && is e.1.operand e.1.rowTile e.1.chunk e.1.trit).map Prod.snd

/-- A shelf-sourced PRELOAD, FLIP or PASS as the scheduler writes it (R190): it puts the place of a PRELOAD's record into SRC; a FLIP
or PASS of an operand that the bound copy has pinned on the pair names one of its places, or is not written. A record that neither
the copy nor the cache holds is left to the checks of R53 (log entry 68). -/
def resolved (s : State) (e : Nat) (prio : Bool) (w : BitVec 128) : Option (BitVec 128) :=
  let shelf := decide (e < 32) && srcKind w == 0
  match lastBinding ((engineN s e).own prio) with
  | none => some w
  | some b =>
    if shelf && cmdOp w == 0x02 then some (((recordPlace s e b w).map (withSrc w)).getD w)
    else if shelf && (cmdOp w == 0x10 || (cmdOp w == 0x03 && !flipZeroBit w)) then
      let ps := placesOf s (e / 4) b
      if ps.isEmpty || ps.any fun p => p.place == srcField w && (cmdOp w != 0x10 || p.trit == passTrit w) then some w else none
    else some w

/-- What the scheduler writes into a queue (R146): not a BIND out of place, nor a further command of an aborted task (R165). -/
def enqueues (s : State) (e : Nat) (prio : Bool) (w : BitVec 128) : Bool :=
  let q := (engineN s e).own prio
  if cmdOp w = 1 then bindInOrder s e prio w && q.discard != some (bindOf w).task else q.discard.isNone

/-- COMMAND_ENQUEUE (R146): the scheduler writes a command; a full queue holds its writer back. The commands of an aborted task
are discarded up to the next BIND with a different TASK (R165). A command that the scheduler's own rules keep from the queue is
not written (log entry 95). -/
def execCommandEnqueue (e : EngineId) (prio : Bool) (w : BitVec 128) (s : State) : Host.Outcome State Fault Refusal :=
  let q := (engineN s e.val).own prio
  if (if prio then 256 else 128) ≤ q.cmds.length ∨ !enqueues s e.val prio w then .next s
  else match resolved s e.val prio w with
    | none => .next s
    | some w => .next (modEngine s e.val fun x => x.withOwn prio { q with cmds := q.cmds ++ [w], discard := none })

/-- BIND (R148). -/
def execBind (e : EngineId) (prio : Bool) (s : State) : Host.Outcome State Fault Refusal :=
  if vectorDips s e.val then .next s else
  match headOf s e.val prio with
  | none => .next s
  | some w =>
    if cmdOp w ≠ 1 then .next (runHead s e.val prio (fun w => cmdOp w == 1) fun s _ _ => .wait s) else
    let b := bindOf w
    let old := ((engineN s e.val).queue prio).binding
    let moved := match old with
      | some o => o.task == b.task && (o.context != b.context || o.copy != b.copy)
      | none => false
    let cause := if !reservedOk w then 2 else if b.aFormat = 0 then 3 else if moved then 10 else 0
    if cause ≠ 0 then .next (settleEngine (malformed s e.val prio w b cause) e.val)
    else
      let s := modQueue s e.val prio fun q => { q with binding := some b, unbound := false }
      .next (settleEngine (popCmd s e.val prio) e.val)

/-! ### Planes (R150-R152) -/

/-- A shelf source names a place above 8,737 or one withdrawn (R150). -/
def srcBad (s : State) (f : Nat) (w : BitVec 128) : Bool :=
  srcKind w == 0 && (decide (shelfPlaces ≤ srcField w) || (withdrawn s (f / 4)).contains (srcField w))

/-- The identity that a PRELOAD expects. -/
def preloadId (w : BitVec 128) (b : Binding) : PlaneId :=
  { kind := srcKind w, src := srcField w, context := b.context, copy := b.copy, operand := b.operand,
    format := b.wFormat, rowTile := preRowTile w, chunk := preChunk w, trit := preTrit w, zero := false }

/-- The address and bytes of a place of facet f's own shelf. -/
def placeAddr (f place : Nat) : Nat := shelfBase (f / 4) + place * recordBytes

/-- A record read from a shelf place: a hit in the cache is counted and becomes its most recently used (R191). -/
def touchCache (s : State) (n place : Nat) : State :=
  let l := (s.cache[n]?).getD []
  match l.find? fun (e : PlaneId × Nat) => e.2 == place with
  | some e =>
    let rest := l.filter fun e => e.2 != place
    { s with cache := s.cache.setIfInBounds n (rest ++ [e]) }.inc 0x5000_09
  | none => s

/-- An uncorrectable word at an address of a shelf aborts the task that reads it; in a copy's place, until the copy is repaired
(R213, R365). -/
def shelfAbort (s : State) (f : Nat) (prio : Bool) (task address : Nat) : State :=
  let held := (pinAt s (f / 4) (address / recordBytes)).isSome
  let s := noteShelfBad s (f / 4) address 3 task
  dropTask (abortTask s task (if held then .held else .replay) 256) f prio task

def preloadBody (f : Nat) (prio : Bool) (s : State) (w : BitVec 128) (b : Binding) : Judge :=
  if srcBad s f w then .bad 3
  else if shadowBusy (facetN s f) prio then .wait (markWait s f prio)
  else if srcKind w = 0 then
    let place := srcField w
    match checkRead s .shelf (f / 4) (place * recordBytes) recordBytes with
    | (s, some a) => .done (shelfAbort s f prio b.task a)
    | (s, none) =>
      let p : Plane := { id := preloadId w b, bytes := memRead s.mem (placeAddr f place) recordBytes, hold := none,
                         prio := prio, task := b.task }
      .done (takeShadow (touchCache (popCmd s f prio) (f / 4) place) f p)
  else
    match queueAt s f (srcQueue w) with
    | [] => .wait (markWait s f prio)
    | i :: _ =>
      if handleTag i.handle ≠ srcTag w then .bad 8
      else if handleBlocks i.handle ≠ 4 then .bad 3
      else match checkItem s i with
      | (s, some a) => .done (readAbort s .staging i.eic a f prio b.task)
      | (s, none) =>
        let p : Plane := { id := preloadId w b, bytes := (itemData s f i).take recordBytes,
                           hold := holdOf f (srcQueue w) i, prio := prio, task := b.task }
        .done (takeShadow (popQueue (popCmd s f prio) f (srcQueue w)) f p)

/-- PRELOAD (R150, R151). -/
def execPreload (f : FacetId) (prio : Bool) (s : State) : Host.Outcome State Fault Refusal :=
  .next (runHead s f.val prio (fun w => cmdOp w == 0x02) (preloadBody f.val prio))

/-- The flip of the shadow plane is asked for; a priority queue that is ready preempts the fill run (R163). -/
def wantFlip (s : State) (f : Nat) (prio loaded : Bool) : State :=
  let s := modFacet s f fun x => { x with flipWanted := true, flipAsk := some prio }
  if prio && loaded then preempt s f else s

/-- The planes of a queue that are loaded again: the fill queue's own plane and its pending preload after a preemption, and its
planes displaced from the shadow (R67, R74, R164). No priority plane is loaded again once it has been flipped out. -/
def queuePlanes (x : Facet) (prio : Bool) : List Plane :=
  (if prio then [] else x.fillPlane.toList ++ x.fillPending.toList) ++ x.displaced.filter fun p => p.prio == prio

/-- The plane that the fill queue remembers is loaded again when a command names it (R164). -/
def recallPlane (s : State) (f : Nat) (prio : Bool) (mine : Plane → Bool) : State :=
  let x := facetN s f
  if shadowBusy x prio then s else
  match (if prio then none else x.fillPlane) with
  | some p => if mine p then takeShadow s f p else reloadShadow s f
  | none => reloadShadow s f

/-- FLIP stays at the head until PLANE_FLIP makes its plane active (R152, R162). -/
def flipBody (f : Nat) (prio : Bool) (s : State) (w : BitVec 128) (_ : Binding) : Judge :=
  if srcBad s f w then .bad 3 else
  let x := facetN s f
  let mine := fun (p : Plane) => p.named (srcKind w) (srcField w)
  match x.shadow with
  | some h =>
    if mine h.plane && !x.restoring then .wait (wantFlip (if h.loaded then s else markWait s f prio) f prio h.loaded)
    else if (queuePlanes x prio).any mine || x.restoring then .wait (markWait s f prio) else .bad 4
  | none => if (queuePlanes x prio).any mine then .wait (recallPlane (markWait s f prio) f prio mine) else .bad 4

/-- FLIP (R152). -/
def execFlip (f : FacetId) (prio : Bool) (s : State) : Host.Outcome State Fault Refusal :=
  .next (runHead s f.val prio (fun w => cmdOp w == 0x03 && !flipZeroBit w) (flipBody f.val prio))

/-- FLIP with ZERO loads an all-zero plane and asks for its flip; it stays at the head until PLANE_FLIP (R152). -/
def flipZeroBody (f : Nat) (prio : Bool) (s : State) (w : BitVec 128) (b : Binding) : Judge :=
  if srcKind w ≠ 0 ∨ srcField w ≠ 0 then .bad 3 else
  let x := facetN s f
  let mine := match x.shadow with
    | some h => h.plane.id.zero && h.plane.prio == prio
    | none => false
  if mine then
    let loaded := match x.shadow with
      | some h => h.loaded
      | none => false
    .wait (wantFlip (if loaded then s else markWait s f prio) f prio loaded)
  else if shadowBusy x prio then .wait (markWait s f prio)
  else
    let p : Plane := { Plane.zeros with prio := prio, task := b.task }
    .wait (wantFlip (takeShadow (markWait s f prio) f p) f prio false)

/-- FLIP_ZERO (R152). -/
def execFlipZero (f : FacetId) (prio : Bool) (s : State) : Host.Outcome State Fault Refusal :=
  .next (runHead s f.val prio (fun w => cmdOp w == 0x03 && flipZeroBit w) (flipZeroBody f.val prio))

/-! ### PASS (R153-R155) -/

/-- A plane is the one that SRC names, of the context, copy, operand and format to which the queue is bound (R102, R148). -/
def Plane.bound (p : Plane) (w : BitVec 128) (b : Binding) : Bool :=
  p.named (srcKind w) (srcField w) && p.id.context == b.context && p.id.copy == b.copy && p.id.operand == b.operand
    && p.id.format == b.wFormat

/-- The plane that a PASS names, and whether it is active. -/
def passPlane (x : Facet) (w : BitVec 128) (b : Binding) : Option (Plane × Bool) :=
  if x.active.bound w b then some (x.active, true)
  else match x.shadow with
    | some h => if h.plane.bound w b then some (h.plane, false) else none
    | none => none

/-- The checks of R153 and R154 on the fields alone, given the plane: the cause of R166, 0 for none. Which cause a PASS that fails
several checks carries the manual does not say: 5, 6, 9 for the vector range, 3, then 8 and 9 for the tile length (DESIGN CHOICE,
log entry 122). -/
def passCause (w : BitVec 128) (b : Binding) (p : Plane) : Nat :=
  let g := modeSlots (modeOf (passMode w))
  if passTrit w ≠ p.id.trit ∨ fmtDigits b.aFormat ≤ passDigit w then 5
  else if (passMode w == 0) != (!fmtScaled b.wFormat && !fmtScaled b.aFormat) then 6
  else if passTileVecs w < passFirstVec w + passLen w then 9
  else if !rangeOk g (passSlot w) (passLen w) || (passMerge w && (!passLast w || !rangeOk g (passMergeDst w) (passLen w)))
  then 3 else 0

/-- The tile of V vectors has exactly the length that the handle gives (R154). -/
def tileLenOk (format vecs handle : Nat) : Bool :=
  let n := tileBytes format vecs
  if handleBlocks handle = 0 then bitsOf handle 26 19 + 1 == n else handleBlocks handle == blocksOf n

/-- The run of a PASS (R153). -/
def runOf (s : State) (f : Nat) (prio : Bool) (w : BitVec 128) (b : Binding) (p : Plane) (i : QItem) : Run :=
  { serial := (facetN s f).nextRun, prio := prio, task := b.task, plane := p.id,
    tile := (itemData s f i).take (tileBytes b.aFormat (passTileVecs w)), aFormat := b.aFormat, wFormat := b.wFormat,
    tileVecs := passTileVecs w, digit := passDigit w, next := passFirstVec w, stop := passFirstVec w + passLen w,
    slotNext := passSlot w, first := passFirst w, last := passLast w, mode := modeOf (passMode w), merge := passMerge w,
    mergeDst := passMergeDst w, count := passLen w, slotBase := passSlot w, budget := passBudget w, hold := none,
    popQ := if passInPop w then some (passInQ w, i) else none,
    scale := ((engineN s f).queue prio).scale }

/-- A PASS whose plane is active begins its run, and stays at the head until the run has issued its last symbol (R162); its merge
takes its place in the commanded order (R125, R155). -/
def startRun (s : State) (f : Nat) (prio : Bool) (w : BitVec 128) (b : Binding) (p : Plane) (i : QItem) : State :=
  let r := runOf s f prio w b p i
  let m : MergeJob := { prio := prio, task := b.task, operand := b.operand, scale := r.scale, aBase := r.mergeDst, bBase := r.slotBase,
                        count := r.count, run := some r.serial }
  let s := modQueue (touch s b.task) f prio fun q => { q with running := some r.serial, waitAt := none }
  let s := modFacet s f fun x =>
    { x with runs := x.runs ++ [r], nextRun := x.nextRun + 1, merges := if r.merge then x.merges ++ [m] else x.merges }
  if prio then preempt s f else fillWave s f b.task true

def passBody (f : Nat) (prio : Bool) (s : State) (w : BitVec 128) (b : Binding) : Judge :=
  if ((engineN s f).queue prio).running.isSome then .wait s
  else if srcBad s f w || passLen w == 0 || decide (2048 < passLen w) || passTileVecs w == 0 || decide (2048 < passTileVecs w)
    || passMode w == 3 then .bad 3
  else
    let x := facetN s f
    match passPlane x w b with
    | none =>
      let mine := fun (p : Plane) => p.bound w b
      if (queuePlanes x prio).any mine || x.restoring then .wait (recallPlane (markWait s f prio) f prio mine)
      else .bad 4
    | some (p, active) =>
      let c := passCause w b p
      if c ≠ 0 then .bad c else
      match freeItems s f (passInQ w) with
      | [] => .wait (markWait s f prio)
      | i :: _ =>
        if handleTag i.handle ≠ passInTag w then .bad 8
        else if !tileLenOk b.aFormat (passTileVecs w) i.handle then .bad 9
        else if x.restoring then .wait (markWait s f prio)
        else if !active then
          let loaded := match x.shadow with
            | some h => h.loaded
            | none => false
          .wait (wantFlip (if loaded then s else markWait s f prio) f prio loaded)
        else if !prio && (x.flipAsk == some true || prioReady s f) then .wait (markWait s f prio)
        else match checkItem s i with
          | (s, some a) => .done (readAbort s .staging i.eic a f prio b.task)
          | (s, none) => .done (startRun s f prio w b p i)

/-- PASS (R153, R154). No fill run begins while the priority queue is ready or has asked for its flip (R163). -/
def execPass (f : FacetId) (prio : Bool) (s : State) : Host.Outcome State Fault Refusal :=
  .next (runHead s f.val prio (fun w => cmdOp w == 0x10) (passBody f.val prio))

/-! ### TREE, MERGE, REDUCE, DRAIN (R156-R159) -/

def treeBody (f : Nat) (prio : Bool) (s : State) (w : BitVec 128) (b : Binding) : Judge :=
  let t := treeOf w b.task
  if !t.posMask.testBit t.pos || (t.ordMask != 0 && !t.ordMask.testBit (leafOf s t.task)) then .bad 7
  else .done (modFacet (popCmd s f prio) f fun x => { x with trees := (x.trees.filter fun q => q.task != b.task) ++ [t] })

/-- TREE (R156). -/
def execTree (f : FacetId) (prio : Bool) (s : State) : Host.Outcome State Fault Refusal :=
  .next (runHead s f.val prio (fun w => cmdOp w == 0x24) (treeBody f.val prio))

/-- A slot program error of a command at the head. -/
def headSlotError (s : State) (f : Nat) (prio : Bool) (b : Binding) (rowTile slot rule : Nat) : State :=
  dropTask (slotError s f b.task b.operand rowTile slot rule) f prio b.task

/-- The row tile of the element that covers a slot (R145); 0 for a slot that is FREE, or that a split left INVALID, which has none
(DESIGN CHOICE, log entry 123). -/
def rowTileAt (x : Facet) (slot : Nat) : Nat := (governing x slot).rowTile

/-- What is wrong with the ranges that a merge is about to combine: a slot and the rule broken (R116, R149). -/
def mergeBad (x : Facet) (task a b n : Nat) : Option (Nat × Nat) :=
  ((rangeBad x task a n).or (rangeBad x task b n)).or (if modeAt x a = modeAt x b then none else some (b, 116))

def mergeBody (f : Nat) (prio : Bool) (s : State) (w : BitVec 128) (b : Binding) : Judge :=
  let n := mergeCount w
  if n = 0 ∨ 2048 < n then .bad 3 else
  let x := facetN s f
  let k := ((engineN s f).queue prio).scale
  if !rangeReady x prio b.task k (mergeA w) n || !rangeReady x prio b.task k (mergeB w) n then .wait (markWait s f prio) else
  let g := slotsAt x (mergeA w)
  if !rangeOk g (mergeA w) n || !rangeOk g (mergeB w) n then .bad 3 else
  match mergeBad x b.task (mergeA w) (mergeB w) n with
  | some (slot, rule) => .done (headSlotError s f prio b (rowTileAt x slot) slot rule)
  | none =>
    let m : MergeJob := { prio := prio, task := b.task, operand := b.operand, scale := k, aBase := mergeA w, bBase := mergeB w,
                          count := n, run := none }
    .done (modFacet (takeCmd s f prio) f fun x => { x with merges := x.merges ++ [m] })

/-- MERGE (R157). -/
def execMerge (f : FacetId) (prio : Bool) (s : State) : Host.Outcome State Fault Refusal :=
  .next (runHead s f.val prio (fun w => cmdOp w == 0x21) (mergeBody f.val prio))

/-- GANG_TASK of a task; none for a task of this device alone (R462). -/
def gangOf (s : State) (task : Nat) : Option Nat := (findTask s task).bind fun t => t.gang.map Prod.fst

/-- What both roles of REDUCE check alike: fields, the tree, the wait of R138, the range and its elements. `role` says
whether the tree gives this facet the part that the command takes. -/
def reduceJudge (f : Nat) (prio : Bool) (s : State) (w : BitVec 128) (b : Binding) (role : TreeRole → Bool)
    (go : TreeRole → Judge) : Judge :=
  let n := reduceCount w
  if n = 0 ∨ 2048 < n ∨ reduceLevel w = 0 ∨ 11 < reduceLevel w then .bad 3 else
  let x := facetN s f
  match treeFor x b.task with
  | none => .bad 7
  | some t =>
    let r := treeRole s t (reduceLevel w)
    if !role r then .bad 7
    else if !rangeReady x prio b.task ((engineN s f).queue prio).scale (reduceSlot w) n then .wait (markWait s f prio)
    else if !rangeOk (slotsAt x (reduceSlot w)) (reduceSlot w) n then .bad 3
    else match rangeBad x b.task (reduceSlot w) n with
      | some (slot, rule) => .done (headSlotError s f prio b (rowTileAt x slot) slot rule)
      | none => go r

/-- A REDUCE begins: its holder, and for a gather the transfer it takes, are settled here (R156, R158). -/
def startReduce (s : State) (f : Nat) (prio : Bool) (w : BitVec 128) (b : Binding) (peer : Nat) (got : Option Inbound) : State :=
  let level := reduceLevel w
  let j : ReduceJob := { prio := prio, task := b.task, got := got, level := level, slotBase := reduceSlot w, count := reduceCount w,
                         scale := ((engineN s f).queue prio).scale, peer := peer,
                         dest := if level ≤ 5 then facetAt s b.task peer else none }
  modFacet (takeCmd s f prio) f fun x =>
    { x with reduces := x.reduces ++ [j]
             inbound := match got with
               | some i => x.inbound.erase i
               | none => x.inbound }

/-- A send: between devices it waits for the holder's GRANT (R463). -/
def reduceSendBody (f : Nat) (prio : Bool) (s : State) (w : BitVec 128) (b : Binding) : Judge :=
  reduceJudge f prio s w b (fun r => match r with
    | .send _ => true
    | _ => false) fun r =>
    let p := match r with
      | .send p => p
      | _ => 0
    if reduceLevel w ≤ 5 then .done (startReduce s f prio w b p none)
    else
      let g := (b.task, reduceLevel w)
      if s.gang.grants.contains g then
        .done (startReduce (modGang s fun q => { q with grants := q.grants.erase g }) f prio w b p none)
      else .wait (markWait s f prio)

/-- REDUCE_SEND (R158). -/
def execReduceSend (f : FacetId) (prio : Bool) (s : State) : Host.Outcome State Fault Refusal :=
  .next (runHead s f.val prio (fun w => cmdOp w == 0x22 && reduceRole w == 0) (reduceSendBody f.val prio))

/-- The winners that the child's holder has sent for a task and level, formed at a scale step. -/
def winnersOf (x : Facet) (task level scale : Nat) : Option Inbound :=
  x.inbound.find? fun i => i.task == task && i.level == level && i.winners && i.tag == scale

/-- The oldest transfer of elements from a source on the side of a queue that no gather has taken: what a gather checks against
its own command (R158). The transfers of a repeat are those of its scale step (R120). -/
def inboundFrom (x : Facet) (src : Nat) (prio : Bool) (scale : Nat) : Option Inbound :=
  x.inbound.find? fun i => i.src == src && i.prio == prio && !i.winners && i.tag == scale

/-- The source of a transfer at a level whose holder is `p`: a facet, or 32 plus an ordinal. -/
def sourceOf (s : State) (task level p : Nat) : Nat := if level ≤ 5 then (facetAt s task p).getD 0xFF else 32 + p

/-- A drain of a task is under way on this device, so that its tile may still be repeated (R120). -/
def drainUnderWay (s : State) (task : Nat) : Bool := s.facets.toList.any fun x => x.drains.any fun d => d.task == task

/-- A GRANT has come for a task's send at a level (R463). -/
def takeGrant (s : State) (task level : Nat) : State := modGang s fun q => { q with grants := q.grants ++ [(task, level)] }

/-- GRANT to the sender when a gather between devices reaches its head, once (R463), where the sender is another part that the device
carries like any other (R454). A gather that belongs to no repeat waits with it while a drain of its task is under way, so that no
transfer of a later tile comes between those of a repeat (log entry 96). -/
def grantOnce (s : State) (task level ord scale : Nat) : State :=
  match gangOf s task with
  | none => s
  | some g =>
    if s.gang.granted.contains (task, level, scale) || (scale == 0 && drainUnderWay s task) then s else
    let s := modGang s fun q => { q with granted := q.granted ++ [(task, level, scale)] }
    if ownOrdinal s ord then (match partAt s g ord with
      | some t => takeGrant s t.num level
      | none => s)
    else sendPart s (leafOf s task) ord 0x21 (leBytes 4 g ++ leBytes 1 level) []

/-- The grant of a level spent: its transfer has been taken (R463). -/
def grantSpent (s : State) (task level scale : Nat) : State :=
  modGang s fun q => { q with granted := q.granted.erase (task, level, scale) }

/-- A transfer agrees with a gather in task, level, count and mode (R158). -/
def Inbound.agrees (i : Inbound) (task level count : Nat) (mode : Mode) : Bool :=
  i.task == task && i.level == level && i.count == count && i.mode == mode

/-- A gather waits for the child's elements and checks them against its own (R136, R158): a transfer that differs, or that ends
short of its elements, is a slot program error. -/
def reduceGatherBody (f : Nat) (prio : Bool) (s : State) (w : BitVec 128) (b : Binding) : Judge :=
  reduceJudge f prio s w b (fun r => match r with
    | .gather _ => true
    | _ => false) fun r =>
    let src := match r with
      | .gather p => p
      | _ => 0
    let level := reduceLevel w
    let k := ((engineN s f).queue prio).scale
    let s := if level ≤ 5 then s else grantOnce s b.task level src k
    let x := facetN s f
    match inboundFrom x (sourceOf s b.task level src) prio k with
    | none => .wait (markWait s f prio)
    | some i =>
      if level ≤ 5 ∧ i.agrees b.task level (reduceCount w) (modeAt x (reduceSlot w)) then .done (startReduce s f prio w b src (some i))
      else if 5 < level ∧ i.agrees b.task level i.count (modeAt x (reduceSlot w))
          ∧ i.values.length = 512 * reduceCount w then
        .done (startReduce (grantSpent s b.task level k) f prio w b src (some i))
      else if 5 < level ∧ i.agrees b.task level i.count (modeAt x (reduceSlot w))
          ∧ i.values.length < 512 * reduceCount w ∧ !i.closed then .wait (markWait s f prio)
      else .done (headSlotError s f prio b (rowTileAt x (reduceSlot w)) (reduceSlot w) 158)

/-- REDUCE_GATHER (R158). -/
def execReduceGather (f : FacetId) (prio : Bool) (s : State) : Host.Outcome State Fault Refusal :=
  .next (runHead s f.val prio (fun w => cmdOp w == 0x22 && reduceRole w == 1) (reduceGatherBody f.val prio))

/-- The part of a facet above the levels that a DRAIN gathers. -/
def drainParent (s : State) (x : Facet) (w : BitVec 128) (b : Binding) : Option (Nat × Option Nat) :=
  if !drainDest w then none else
  (treeFor x b.task).bind fun t => match treeRole s t (drainGather w + 1) with
    | .send p => some (p, if drainGather w < 5 then facetAt s b.task p else none)
    | _ => none

/-- The job of a DRAIN (R159), with its holders (R156) and the winners of its children that it takes; winners that go to their
holder while the tile is being repeated carry its scale step (R120). -/
def drainJob (s : State) (f : Nat) (prio : Bool) (w : BitVec 128) (b : Binding) (children : List (Nat × Nat)) (ins : List Inbound) :
    DrainJob :=
  { prio := prio, task := b.task, context := b.context, copy := b.copy, operand := b.operand, op := drainOp w,
    form := drainForm w, slotBase := drainSlot w, vectors := drainVecs w, row := drainRow w, rows := drainRows w,
    outQ := drainOutQ w, outTag := drainOutTag w, rowTile := drainRowTile w, indexBase := drainIndexBase w,
    dest := drainDest w, gather := drainGather w, free := drainFree w, repeats := 0, since := s.up, stale := [],
    scale := ((engineN s f).queue prio).scale, children := children, ins := ins, parent := drainParent s (facetN s f) w b, pushing := none }

/-- The levels up to GATHER whose child winners a drain combines, with their holders. -/
def gatherLevels (s : State) (t : TreeDecl) (upTo : Nat) : List (Nat × Nat) :=
  (List.range upTo).filterMap fun i => match treeRole s t (i + 1) with
    | .gather p => some (i + 1, p)
    | _ => none

/-- The routing of a DRAIN agrees with R156: the facet holds its subtree at every level up to GATHER, and DEST needs the part of a
sender at the level above. -/
def drainRouting (s : State) (x : Facet) (w : BitVec 128) (b : Binding) : Bool :=
  if !drainDest w && drainGather w == 0 then true
  else if drainOp w = 0 then false
  else match treeFor x b.task with
    | none => false
    | some t => ((List.range (drainGather w)).all fun i => holdsLevel s t (i + 1))
        && (!drainDest w || (match treeRole s t (drainGather w + 1) with
          | .send _ => true
          | _ => false))

/-- Child winners taken: gone from the facet, and the grants of their levels spent. -/
def takeIns (s : State) (f task : Nat) (ins : List Inbound) : State :=
  ins.foldl (fun s i => modFacet (if i.level ≤ 5 then s else grantSpent s task i.level i.tag) f fun x =>
    { x with inbound := x.inbound.erase i }) s

/-- The wait of a drain at the head under R138 is over: what it was, for DRAIN_WAIT_MAX (R143). -/
def noteDrainWait (s : State) (f : Nat) (prio : Bool) : State :=
  let t := waited s f prio
  modQueue s f prio fun q => { q with drainWait := some (q.drainWait.getD t) }

/-- A DRAIN begins once its elements are written and the winners of its children have come (R138, R159); winners that it
sends to another device wait for the GRANT of their level like a REDUCE (R463). -/
def drainBody (f : Nat) (prio : Bool) (s : State) (w : BitVec 128) (b : Binding) : Judge :=
  let n := drainVecs w
  if drainOp w = 3 ∨ drainForm w = 3 ∨ n = 0 ∨ 2048 < n ∨ drainRows w = 0 ∨ 512 < drainRows w
    ∨ 512 < drainRow w + drainRows w ∨ 11 < drainGather w then .bad 3 else
  let x := facetN s f
  let bytes := sumTileBytes (drainForm w) (drainOp w != 0) (if drainOp w = 0 then drainRows w else 1) n
  if !drainRouting s x w b then .bad 7
  else if !drainDest w && bufTooBig (streamInto s f b.task (drainOutQ w)) bytes then .bad 3
  else if !rangeReady x prio b.task ((engineN s f).queue prio).scale (drainSlot w) n || beingRead x (drainSlot w) (slotsAt x (drainSlot w) * n) then .wait (markWait s f prio)
  else
    let s := noteDrainWait s f prio
    let mode := modeAt x (drainSlot w)
    if !rangeOk (modeSlots mode) (drainSlot w) n then .bad 3 else
    match rangeBad x b.task (drainSlot w) n with
    | some (slot, rule) => .done (headSlotError s f prio b (drainRowTile w) slot rule)
    | none =>
      if !formAllowed mode (drainForm w) then .done (headSlotError s f prio b (drainRowTile w) (drainSlot w) 129)
      else
        let ls := match treeFor x b.task with
          | some t => if drainOp w = 0 then [] else gatherLevels s t (drainGather w)
          | none => []
        let k := ((engineN s f).queue prio).scale
        let s := ls.foldl (fun s l => if l.1 ≤ 5 then s else grantOnce s b.task l.1 l.2 k) s
        let x := facetN s f
        let ins := ls.filterMap fun l => (winnersOf x b.task l.1 k).filter fun i => decide (l.1 ≤ 5) || decide (n ≤ i.count)
        let level := drainGather w + 1
        let g := (b.task, level)
        let far := drainDest w && decide (5 < level)
        if ins.length < ls.length || (far && !s.gang.grants.contains g) then .wait (markWait s f prio)
        else
          let s := if far then modGang s fun q => { q with grants := q.grants.erase g } else s
          let s := s.raiseTo (fam 0x3500_08 f) (symbolOf ((((engineN s f).queue prio).drainWait).getD 0))
          let j := drainJob s f prio w b ls ins
          let s := takeIns s f b.task ins
          .done (modFacet (takeCmd s f prio) f fun x => { x with drains := x.drains ++ [j] })

/-- DRAIN with the sum operation; its reserved operation 11b is malformed (R159). -/
def execDrain (f : FacetId) (prio : Bool) (s : State) : Host.Outcome State Fault Refusal :=
  .next (runHead s f.val prio (fun w => cmdOp w == 0x20 && (drainOp w == 0 || drainOp w == 3)) (drainBody f.val prio))

/-- DRAIN with the operation MAX (R132). -/
def execDrainMax (f : FacetId) (prio : Bool) (s : State) : Host.Outcome State Fault Refusal :=
  .next (runHead s f.val prio (fun w => cmdOp w == 0x20 && drainOp w == 1) (drainBody f.val prio))

/-- DRAIN with the operation MIN (R132). -/
def execDrainMin (f : FacetId) (prio : Bool) (s : State) : Host.Outcome State Fault Refusal :=
  .next (runHead s f.val prio (fun w => cmdOp w == 0x20 && drainOp w == 2) (drainBody f.val prio))

/-! ### FENCE and TIME_WAIT (R160, R161) -/

/-- Every pass of a task is written. -/
def passesWritten (x : Facet) (task : Nat) : Bool :=
  !(x.runs.any (fun r => r.task == task && !r.done) || x.inflight.any (fun y => y.task == task)
    || x.sweeps.any (fun y => y.task == task) || x.reissue.any (fun y => y.task == task)
    || x.writes.any fun c => c.task == task)

/-- Every merge and reduce of a task is written, those of passes with MERGE included. -/
def mergesWritten (x : Facet) (task : Nat) : Bool :=
  !(x.merges.any (fun m => m.task == task) || x.reduces.any fun m => m.task == task)

def drainsReleased (x : Facet) (task : Nat) : Bool := !x.drains.any fun d => d.task == task

/-- Every condition that WAIT selects holds; a vector unit has no pass, merge or drain under way between commands. -/
def fenceHolds (s : State) (e task : Nat) (w : BitVec 128) : Bool :=
  if 32 ≤ e then true else
  let x := facetN s e
  (!(fenceWait w).testBit 0 || passesWritten x task) && (!(fenceWait w).testBit 1 || mergesWritten x task)
    && (!(fenceWait w).testBit 2 || drainsReleased x task)

/-- The worst-case stamp of a completion token: that of its checkpoint, or the task's certificate where the task graph names none
(R282). -/
def Task.tokenDue (t : Task) (token : Nat) : Nat := ((t.checks.find? fun c => c.1 == token).map Prod.snd).getD t.cert

/-- A FENCE ends with its token; a token later than its checkpoint's stamp puts the task at risk (R160, R282). -/
def fenceBody (e : Nat) (prio : Bool) (s : State) (w : BitVec 128) (b : Binding) : Judge :=
  if !fenceHolds s e b.task w then .wait (markWait s e prio) else
  let s := popCmd s e prio
  if !fenceSignal w then .done s else
  let s := { s with out := s.out ++ [Out.token (Fin.ofNat 64 e) b.task (fenceToken w)] }
  match findTask s b.task with
  | some t =>
    if t.cls != .fill && stampBefore (t.tokenDue (fenceToken w)) s.now then .done (recertify s [b.task] 1 false false) else .done s
  | none => .done s

/-- FENCE reaches the head: it ends at once where its conditions hold (R160). -/
def execFence (e : EngineId) (prio : Bool) (s : State) : Host.Outcome State Fault Refusal :=
  .next (runHead s e.val prio (fun w => cmdOp w == 0x30) (fenceBody e.val prio))

/-- FENCE_RELEASE: the wait of a FENCE at the head ends (R160). -/
def execFenceRelease (e : EngineId) (prio : Bool) (s : State) : Host.Outcome State Fault Refusal :=
  .next (runHead s e.val prio (fun w => cmdOp w == 0x30) (fenceBody e.val prio))

/-- The sequencer of a facet is HELD or STOPPED (R165): the runs are held, or passes do not run. -/
def heldOrStopped (s : State) (e : Nat) : Bool := decide (e < 32) && (runHeld (facetN s e) || !passesRun (facetN s e))

/-- A TIME_WAIT whose stamp is past when it reaches the head releases at once and counts; STRICT aborts its task. One that comes
late while the sequencer is HELD or STOPPED is judged so once it returns (R165). A stamp that R267 does not allow is out of
range. -/
def timeWaitBody (e : Nat) (prio : Bool) (s : State) (w : BitVec 128) (b : Binding) : Judge :=
  match stampTicks (waitStamp w) with
  | none => .bad 3
  | some t =>
    let fresh := ((engineN s e).queue prio).waitAt.isNone
    if heldOrStopped s e && fresh && s.isPast t then .wait s
    else if stampBefore s.now t || heldOrStopped s e then .wait (markWait s e prio)
    else if !(fresh && s.isPast t) then .done (popCmd s e prio)
    else
      let s := if e < 32 then s.inc (fam 0x3700_05 e) else s
      if !waitStrict w then .done (popCmd s e prio)
      else
        let s := s.raise 0x3041 (e % 32)
          (leBytes 1 e ++ leBytes 2 b.context ++ leBytes 4 b.copy ++ leBytes 2 b.task ++ leBytes 8 (waitStamp w)
            ++ leBytes 8 ((s.now + stampPeriod - t) % stampPeriod))
        .done (dropTask (abortTask s b.task .replay 256) e prio b.task)

/-- TIME_WAIT reaches the head (R161). -/
def execTimeWait (e : EngineId) (prio : Bool) (s : State) : Host.Outcome State Fault Refusal :=
  .next (runHead s e.val prio (fun w => cmdOp w == 0x31) (timeWaitBody e.val prio))

/-- TIME_WAIT_RELEASE: the stamp of a waiting TIME_WAIT is reached (R161). -/
def execTimeWaitRelease (e : EngineId) (prio : Bool) (s : State) : Host.Outcome State Fault Refusal :=
  .next (runHead s e.val prio (fun w => cmdOp w == 0x31) (timeWaitBody e.val prio))

/-- FILL_PREEMPTION: the priority head is ready to issue a symbol or a flip, so the fill run issues no further symbol
(R163). -/
def execFillPreemption (f : FacetId) (s : State) : Host.Outcome State Fault Refusal :=
  if prioReady s f.val then .next (settleRuns (preempt s f.val) f.val) else .next s

end Sys2Proof.Machine
end

