-- ==== Sys2Proof/Machine/Facets.lean ====
section
/-! DEFINITION. Facets.lean: the events of a facet: loads, flips, verdicts, sweeps, confirmations, swaps, codes written,
drains, merges and reduces completed, and the peek (R45-R80, R117-R145, R158): one meaning for each row. -/

namespace Sys2Proof.Machine

/-! ### Loads and flips (R53, R54, R102) -/

/-- The priority and the fill queue of a facet without the commands of a task. -/
def dropBoth (s : State) (f n : Nat) : State := dropTask (dropTask s f true n) f false n

/-- A refused record: counted, told, its task aborted; a second refusal of the same record by the replay of its request
completes the request without replay (R53), on whichever facet and from whichever source the record came. The event has no
failed symbol: it carries rows 3FFh, syndromes 0 and the present
stamp (DESIGN CHOICE, log entry 97). -/
def refusePlane (s : State) (f : Nat) (p : Plane) : State :=
  let key := (((findTask s p.task).map fun t => t.jsn).getD 0, { p.id with kind := 0, src := 0 })
  let again := s.refused.contains key
  let s := { s with refused := if again then s.refused.filter fun r => r != key else s.refused ++ [key] }
  let s := (facetEvent (s.inc (fam 0x3100_0A f)) f 0x3016 noRow noRow 0 s.now)
  let s := modFacet s f fun x => { x with shadow := none, flipWanted := false }
  let s := releaseHold s p.hold
  dropBoth (abortTask s p.task (if again then .complete 9 else .replay) 256) f p.task

/-- SHADOW_LOAD_COMPLETE (R53, R54): the record's checks, then its load is complete. -/
def execShadowLoadComplete (f : FacetId) (s : State) : Host.Outcome State Fault Refusal :=
  let x := facetN s f.val
  match x.shadow with
  | none => .next s
  | some h =>
    if h.loaded || x.swapping then .next s
    else if h.plane.id.zero || recordOk (s.num 0x3000_04) h.plane.id.recId h.plane.bytes then
      let s := modFacet (s.inc (fam 0x3700_03 f.val)) f.val fun x => { x with shadow := some { h with loaded := true } }
      .next (settleRuns s f.val)
    else .next (settleRuns (refusePlane s f.val h.plane) f.val)

/-- The FLIP that asked for a plane leaves its queue (R162). -/
def popFlip (s : State) (f : Nat) (ask : Option Bool) (p : Plane) : State :=
  match ask.bind fun prio => (headOf s f prio).map fun w => (prio, w) with
  | some (prio, w) =>
    let mine := cmdOp w == 0x03 && (if flipZeroBit w then p.id.zero else p.named (srcKind w) (srcField w))
    if mine then popCmd s f prio else s
  | none => s

/-- PLANE_FLIP (R46, R152); the flip that ends a restoration answers no command (R74). -/
def execPlaneFlip (f : FacetId) (s : State) : Host.Outcome State Fault Refusal :=
  let s := finishRuns s f.val
  let x := facetN s f.val
  if !flipDue s f.val then .next s else
  match x.shadow with
  | none => .next s
  | some h =>
    let s := flipIn s f.val
    .next (settleRuns (if x.restoring then s else popFlip s f.val x.flipAsk h.plane) f.val)

/-! ### Verdicts (R61-R65) -/

/-- The code that a spare without a logical row returns: what the deviations of its row sum to (R55). -/
def spareCode (errors : List (Nat × Int)) (p : Nat) : Int :=
  clampCode (((errors.filter fun e => e.1 == p).map Prod.snd).foldl (· + ·) 0)

/-- A spare idle in the row map whose rings carry no logical row (R52, R55). -/
def idleRow (x : Facet) (p : Nat) : Bool := (rowAt x p).role == .idleSpare && (ringRow x p).logical == noRow

/-- Non-zero codes of an idle spare in two passes of one frame mark it unfit (R55). -/
def spareCheck (s : State) (f frame : Nat) (errors : List (Nat × Int)) : State :=
  (errors.map Prod.fst).dedup.foldl (fun s p =>
    let x := facetN s f
    if spareCode errors p = 0 ∨ !idleRow x p then s
    else if x.spareHits.contains (p, frame) then
      let before := freeSpares x
      let s := modFacet s f fun x =>
        { setRow x p { rowAt x p with role := .unfit } with spareHits := x.spareHits.filter fun h => h.1 != p }
      sparesLow (saveRowMap s f) f before p noRow 0 s.now
    else modFacet s f fun x => { x with spareHits := (x.spareHits.filter fun h => h.2 == frame) ++ [(p, frame)] }) s

/-- Logical rows whose code differs from the exact sum, with that code (R66). -/
def suspects (codes exact : List Int) : List (Nat × Int) :=
  (codes.zip exact).zipIdx.filterMap fun c => if c.1.1 = c.1.2 then none else some (c.2, c.1.1)

def spendBudget (x : Facet) (serial : Nat) : Facet :=
  { x with runs := x.runs.map fun r => if r.serial == serial then { r with budget := r.budget - 1 } else r }

/-- The physical rows that carry some logical rows (R51). -/
def carriers (x : Facet) (rows : List Nat) : List (Nat × Nat) := rows.filterMap fun r => (carrier x r).map fun p => (r, p)

/-- A symbol that falls due for a sweep, behind the one in progress in the order of symbols (R71). -/
def dueSweep (y : Sym) : List Sym → List Sym
  | [] => [y]
  | z :: l => z :: insertSym y l

/-- A failed verdict (R65, R66, R70): a second attempt, a sweep, or the abort that an empty budget brings. -/
def failedVerdict (s : State) (f : Nat) (y : Sym) (v : Verdict) (bad : List (Nat × Int)) : State :=
  let s := (s.setNum (fam 0x3100_09 f) v.word).faultRetried
  let x := facetN s f
  let budget : Nat := ((x.runs.find? fun r => r.serial == y.run).map fun r => r.budget).getD 0
  if x.afterSwap then degradeFacet s f noRow noRow v.word y.stamp false
  else if budget = 0 then dropBoth (abortTask s y.task .replay 256) f y.task
  else if y.attempt = 1 ∧ y.plane = x.active.id then
    let s := modFacet s f fun x =>
      { spendBudget x y.run with inflight := x.inflight ++ [{ y with attempt := 2, stamp := s.now }] }
    chargeFacet (s.inc (fam 0x3100_01 f)) f 1 0
  else modFacet s f fun x => 
    { spendBudget x y.run with sweeps := dueSweep { y with bad := bad, phys := carriers x (bad.map Prod.fst) } x.sweeps }

/-- PASS_VERDICT (R61): the verdict of the oldest symbol in flight, given the deviations of physical rows from the sum of
R45. -/
def execPassVerdict (f : FacetId) (errors : List (Nat × Int)) (s : State) : Host.Outcome State Fault Refusal :=
  let x := facetN s f.val
  match x.inflight with
  | [] => .next s
  | y :: rest =>
    let exact := exactCodes (planeOf x y.plane) y.digits
    let codes := attemptCodes x exact errors
    let v := verdictOf codes
    let s := modFacet s f.val fun x => { x with inflight := rest }
    let s := spareCheck (s.add (fam 0x3100_06 f.val) v.ranges) f.val (y.stamp / frameTicks) errors
    if v.accepted then
      let s := modFacet s f.val fun x => { x with writes := x.writes ++ [codeWriteOf x y codes], afterSwap := false }
      let s := if y.attempt = 2 then s.inc (fam 0x3100_03 f.val) else s
      .next (settleRuns s f.val)
    else .next (settleRuns (failedVerdict s f.val y v (suspects codes exact)) f.val)

/-! ### Sweeps, confirmations and swaps (R66-R69) -/

/-- A transient mismatch of the physical row that carried a logical row in the failed attempt: told, counted within the window; at
the limit the row is due for a swap (R68). -/
def noteTransient (s : State) (f r : Nat) (y : Sym) : State :=
  match (y.phys.find? fun e => e.1 == r).map Prod.snd with
  | none => s
  | some p =>
    let x := facetN s f
    let s := facetEvent s f 0x3010 p r (symWord x y) y.stamp
    let recent := (x.transients.filter fun t => s.seconds < t.2 + s.num 0x3000_03) ++ [(p, s.seconds)]
    let n := (recent.filter fun t => t.1 == p).length
    modFacet s f fun x =>
      { x with transients := recent, dueSwap := if s.num 0x3000_02 ≤ n then (x.dueSwap ++ [p]).dedup else x.dueSwap }

/-- The row under calibration gets its logical row back from its stand-in, with its previous calibration (R67, R79). -/
def endStandIn (x : Facet) (spare : Nat) (becomes : RowEntry) : Facet :=
  let l := (rowAt x spare).logical
  let back := fun (x : Facet) => match findRow x fun e => e.logical == l && e.cal with
    | some c => setRow x c { logical := l, role := .inUse, cal := false }
    | none => x
  { back (setRow x spare becomes) with optic := { x.optic with cal := none } }

/-- The entry of a row that is never used again. -/
def retiredRow : RowEntry := { logical := noRow, role := .retired, cal := false }

def idleEntry : RowEntry := { logical := noRow, role := .idleSpare, cal := false }

/-- Faulty row p, in use, is retired and row q takes its logical row. -/
def takeRow (x : Facet) (p q : Nat) : Facet :=
  setRow (setRow x p retiredRow) q { logical := (rowAt x p).logical, role := .inUse, cal := false }

/-- Facet x without rolling calibration in progress. -/
def dropCal (x : Facet) : Facet := { x with optic := { x.optic with cal := none } }

/-- One faulty physical row retired (R67), and whether a spare takes a logical row from it; none when no spare is left. An idle
spare goes first, then the stand-in of the row under calibration; a row without a logical row of its own needs no spare. -/
def swapRow (x : Facet) (p : Nat) : Option (Facet × Bool) :=
  let e := rowAt x p
  match e.role with
  | .standingIn =>
    match lowestIdle x with
    | some q =>
      let x := setRow (setRow x p retiredRow) q e
      let cal := x.optic.cal.map fun (c : CalRun) => { c with standIn := some q }
      some ({ x with optic := { x.optic with cal := cal } }, true)
    | none => some (endStandIn x p retiredRow, false)
  | .inUse =>
    let standIn := findRow x fun e => e.role == .standingIn
    match lowestIdle x, standIn with
    | some q, some c => some (if e.cal then (dropCal (setRow (takeRow x p q) c idleEntry), true) else (takeRow x p q, true))
    | some q, none => some (if e.cal then dropCal (takeRow x p q) else takeRow x p q, true)
    | none, some c => some (if e.cal then dropCal (takeRow x p c) else takeRow (endStandIn x c idleEntry) p c, true)
    | none, none => none
  | .retired => some (x, false)
  | .idleSpare => some (setRow x p retiredRow, false)
  | .unfit => some (setRow x p retiredRow, false)

/-- A row is retired, the failed symbol's syndromes and stamp given: counted, saved, told where a spare takes its logical row; SPARES_LOW when one free spare remains (R67,
R78-R80). -/
def retireRow (s : State) (f p synd at_ : Nat) : State :=
  let x := facetN s f
  if (rowAt x p).role = .retired then modFacet s f fun x => { x with dueSwap := x.dueSwap.erase p } else
  match swapRow x p with
  | none => degradeFacet s f p (rowAt x p).logical synd at_ false
  | some (x', took) =>
    let s := openRow (modFacet s f fun _ => { x' with dueSwap := x'.dueSwap.erase p }) f p
    let s := ((saveRowMap s f).addSaved (fam 0x3100_07 f) 1).faultDegraded
    let s := if took then facetEvent s f 0x3011 p (rowAt x p).logical synd at_ else s
    sparesLow s f (freeSpares x) p (rowAt x p).logical synd at_

/-- Physical rows swapped while the run is held; the active plane is loaded again through the new map (R67). -/
def swapRowsOf (s : State) (f : Nat) (ps : List Nat) (y : Sym) : State :=
  if ps.isEmpty then s else
  let w := symWord (facetN s f) y
  let s := ps.foldl (fun s p => retireRow s f p w y.stamp) s
  let x := facetN s f
  if x.degraded then s else
  modFacet s f fun x =>
    { calArm x with
      swapping := true
      flipWanted := false
      flipAsk := none
      displaced := (x.shadow.map fun h => h.plane).toList ++ x.displaced
      shadow := some { plane := x.active, loaded := false } }

/-- The suspect set of a sweep acted on (R66). An empty one lies in the facet's digital domain, which goes off with it (R512). Of three or more rows WIDE_SUSPECT carries the lowest logical row and the physical
row that carried it (DESIGN CHOICE, log entry 98). The confirmation attempt is issued while passes run (R75), else with the restart
of R74. -/
def actOnSuspects (s : State) (f : Nat) (y : Sym) : State :=
  let x := facetN s f
  let rows := y.bad.map Prod.fst
  let prioRun := (x.runs.any fun r => r.serial == y.run && r.prio)
  let w := symWord x y
  if rows.isEmpty then degradeFacet (facetEvent s f 0x3013 noRow noRow w y.stamp) f noRow noRow w y.stamp true
  else if 3 ≤ rows.length then
    let s := facetEvent s f 0x3014 (((y.phys.find? fun e => e.1 == rows.headD 0).map Prod.snd).getD noRow) (rows.headD noRow) w y.stamp
    let wide := (x.wideSets.filter fun t => s.seconds < t + s.num 0x3000_03) ++ [s.seconds]
    let s := modFacet s f fun x => { x with wideSets := wide }
    let s := dropBoth (abortTask s y.task .replay 256) f y.task
    if 3 ≤ wide.length then degradeFacet s f noRow noRow w y.stamp false else startRelockAt s f 8 false w y.stamp
  else if y.plane = x.active.id ∧ !(x.preempted && !prioRun) then
    let run := passesRun x
    let s := modFacet s f fun x => { x with confirm := some { sym := y, rows := rows, issued := run } }
    if run then s.inc (fam 0x3100_01 f) else s
  else
    let s := rows.foldl (fun s r => noteTransient s f r y) s
    if (facetN s f).sweeps.isEmpty then swapRowsOf s f (facetN s f).dueSwap y else s

/-- SWEEP_COMPLETE (R66): the reference codes are the accepted codes of the oldest failed symbol. -/
def execSweepComplete (f : FacetId) (s : State) : Host.Outcome State Fault Refusal :=
  let x := facetN s f.val
  match x.sweeps with
  | [] => .next s
  | y :: rest =>
    if x.confirm.isSome || x.swapping then .next s else
    let exact := exactCodes (planeOf x y.plane) y.digits
    let s := modFacet s f.val fun x => { x with sweeps := rest, writes := x.writes ++ [codeWriteOf x y exact] }
    let s := ((s.inc (fam 0x3100_04 f.val)).inc (fam 0x3100_05 f.val)).faultRetried
    .next (settleRuns (actOnSuspects (chargeFacet s f.val 716 0) f.val y) f.val)

/-- CONFIRMATION_VERDICT (R67): each suspect row is transient or persistent; persistent rows and rows due under R68 are
swapped. An attempt whose codes a stop has discarded is judged after it has been issued again (R74). -/
def execConfirmationVerdict (f : FacetId) (errors : List (Nat × Int)) (s : State) : Host.Outcome State Fault Refusal :=
  let x := facetN s f.val
  match x.confirm with
  | none => .next s
  | some c =>
    if !c.issued then .next s else
    let y := c.sym
    let rows := c.rows
    let exact := exactCodes (planeOf x y.plane) y.digits
    let codes := attemptCodes x exact errors
    let differs := fun (r : Nat) => codes.getD r 0 != exact.getD r 0
    let s := modFacet s f.val fun x => { x with confirm := none }
    let s := (rows.filter fun r => !differs r).foldl (fun s r => noteTransient s f.val r y) s
    let ps := (rows.filter differs).filterMap (carrier (facetN s f.val))
    .next (settleRuns (swapRowsOf s f.val (ps ++ (facetN s f.val).dueSwap).dedup y) f.val)

/-- SWAP_RELOAD_COMPLETE (R67): every symbol issued before has its verdict; the reloaded plane is flipped in and the run resumes; the displaced plane is loaded
again. -/
def execSwapReloadComplete (f : FacetId) (s : State) : Host.Outcome State Fault Refusal :=
  let x := facetN s f.val
  if !x.swapping || !x.inflight.isEmpty then .next s else
  let s := (modFacet s f.val fun x => { calReach x with swapping := false, shadow := none, afterSwap := true }).inc
    (fam 0x3700_03 f.val)
  .next (settleRuns (lockCheck (reloadShadow s f.val) f.val) f.val)

/-! ### Codes, merges, reduces (R117-R127, R137, R149, R155-R158) -/

/-- An in-tree count lowered. -/
def lowerTree (x : Facet) (b : Nat) : Facet :=
  let m := slotMeta x b
  setMeta x b { m with inTree := m.inTree - 1 }

/-- A code may be written: a pass without the first flag after the first-flag pass of its element (R115). -/
def writable (x : Facet) (c : CodeWrite) : Bool :=
  c.first || !((x.inflight ++ x.sweeps ++ x.reissue).any (fun y => y.first && y.slot == c.slot)
    || x.writes.any fun d => d.first && d.slot == c.slot)

/-- The element of a code just written: COMPLETE after its last-flag pass (R115). -/
def closeElem (x : Facet) (c : CodeWrite) : Facet :=
  if c.last then setMeta x c.slot { slotMeta x c.slot with state := .complete, closing := false } else x

/-- Slots read by work of a task that has left its queue: `readSlots`, the task's commands dropped from both queues. -/
def readBoth (s : State) (f task row rows lo n : Nat) (go : State → State) : State :=
  match checkRows s f row rows lo n with
  | (s, some a) => dropBoth (readAbort s .accumulator f a f true task) f task
  | (s, none) => go s

/-- CODE_WRITTEN (R115, R117, R123, R137): the oldest code in the adder tree that may be written reaches its element; it is
discarded when its element was made INVALID. A code added to an uncorrectable word aborts the task (R116, R365). -/
def execCodeWritten (f : FacetId) (s : State) : Host.Outcome State Fault Refusal :=
  let x := facetN s f.val
  match x.writes.find? (writable x) with
  | none => .next s
  | some c =>
    let g := modeSlots c.mode
    let m := slotMeta x c.slot
    let live := m.owner == c.task && m.mode == c.mode && m.state != .invalid
    let s := modFacet s f.val fun x => lowerTree { x with writes := x.writes.erase c } c.slot
    if !live then .next (settleRuns s f.val) else
    let write := fun (s : State) => clearAcc (modFacet s f.val fun x => closeElem (writeCode x c) c) f.val c.slot g
    .next (settleRuns (if c.first then write s else readBoth s f.val c.task 0 512 c.slot g write) f.val)

/-- Element b merged into element a in every row bank; b is freed (R124, R149, R157). -/
def mergeElem (x : Facet) (a b : Nat) : Facet :=
  let m := modeAt x a
  setMeta ((List.range 512).foldl (fun x r => elemPut x m r a (elemMerge m (elemGet x m r a) (elemGet x m r b))) x) b
    freeMeta

def mergeRange (x : Facet) (j : MergeJob) : Facet :=
  let g := slotsAt x j.aBase
  (List.range j.count).foldl (fun x i => mergeElem x (j.aBase + g * i) (j.bBase + g * i)) x

/-- The run of a PASS with MERGE has issued all its symbols. -/
def MergeJob.issued (j : MergeJob) (x : Facet) : Bool :=
  j.run.all fun k => !x.runs.any fun r => r.serial == k && !r.done

/-- A range that a merge reads or writes is written, and no earlier drain or reduce still reads it (R138). -/
def mergeQuiet (x : Facet) (j : MergeJob) (base : Nat) : Bool :=
  rangeQuiet x base j.count && !readBefore { x with merges := [] } j.task j.scale base (slotsAt x base * j.count)

/-- The merge that can complete now: the oldest of a queue, in the commanded order, with its operands at hand (R125, R155). -/
def mergeDue (x : Facet) : Option MergeJob :=
  ((x.merges.find? fun j => j.prio).toList ++ (x.merges.find? fun j => !j.prio).toList).find? fun j =>
    j.issued x && mergeQuiet x j j.aBase && mergeQuiet x j j.bBase

/-- MERGE_COMPLETE (R124, R157): a merge writes its results. The merge of a PASS is judged here (R155). -/
def execMergeComplete (f : FacetId) (s : State) : Host.Outcome State Fault Refusal :=
  let x := facetN s f.val
  match mergeDue x with
  | none => .next s
  | some j =>
    let n := slotsAt x j.aBase * j.count
    let s := modFacet s f.val fun x => { x with merges := x.merges.erase j }
    match mergeBad x j.task j.aBase j.bBase j.count with
    | some (slot, rule) =>
      let s := slotError s f.val j.task j.operand (rowTileAt x slot) slot rule
      .next (settleRuns (dropBoth s f.val j.task) f.val)
    | none =>
      let merge := fun (s : State) =>
        let s := modFacet s f.val fun x => mergeRange x j
        clearAcc (if j.run.isSome then s else countCmd s f.val) f.val j.aBase n
      .next (settleRuns (readBoth s f.val j.task 0 512 j.aBase n fun s => readBoth s f.val j.task 0 512 j.bBase n merge) f.val)

/-- The elements of a range, packed: element i of row r at 512 * i + r. -/
def packRange (x : Facet) (base count : Nat) : List Nat :=
  let m := modeAt x base
  ((rangeOf x base count).map fun b => (List.range 512).map fun r => accGet x m r b).flatten

/-- The facet that gathers a level of a task's tree between devices. -/
def gatherFacet (s : State) (task level : Nat) : Option Nat :=
  (List.range 32).find? fun f => match treeFor (facetN s f) task with
    | some t => (match treeRole s t level with
      | .gather _ => true
      | _ => false)
    | none => false

/-- The mode that a MODE byte carries; a byte that marks winners holds their scale tag in bits [6:2] (log entry 23). -/
def modeByte (m : Nat) : Option Mode :=
  match (if 128 ≤ m then m % 4 else m) with
  | 0 => some .integer
  | 1 => some .scaled
  | 2 => some .wide
  | _ => none

/-- Elements of a payload. -/
def chunkNats (width : Nat) : Nat → Bytes → List Nat
  | 0, _ => []
  | k + 1, b => if b.length < width ∨ width = 0 then [] else leNat (b.take width) :: chunkNats width k (b.drop width)

/-- A frame belongs to a transfer: nothing of it differs, and the transfer has not ended. -/
def Inbound.continues (i q : Inbound) : Bool :=
  !i.closed && i.src == q.src && i.prio == q.prio && i.tag == q.tag && i.task == q.task && i.level == q.level && i.mode == q.mode
    && i.winners == q.winners

/-- The scale step of the repeat that the gather belongs to which a transfer of elements answers: that of the oldest grant of the
level not yet spent (R120, R463). -/
def grantedScale (s : State) (task level : Nat) : Nat :=
  ((s.gang.granted.find? fun e => e.1 == task && e.2.1 == level).map fun e => e.2.2).getD 0

/-- What a REDUCE frame of an ordinal carries (R456; log entry 23), given the step of its gather. -/
def inboundFrame (t : Task) (src level mode step : Nat) (m : Mode) (payload : Bytes) : Inbound :=
  let win := decide (128 ≤ mode)
  let w := reduceBytes m
  let vs := chunkNats (if win then w + 4 else w) payload.length payload
  { src := 32 + src, prio := t.cls != .fill, tag := if win then bitsOf mode 6 2 else step, closed := false, task := t.num,
    level := level, mode := m, count := if win then vs.length else vs.length / 512, winners := win,
    values := if win then (vs.map fun v => [v % 256 ^ w, v / 256 ^ w]).flatten else vs }

/-- Elements from the holder of a child subtree on another device go behind those that have already come; a frame that differs
from the transfer before it begins another, and ends that one (R158, R463; log entry 108). -/
def takeElems (s : State) (q : Inbound) : State :=
  match gatherFacet s q.task q.level with
  | none => s
  | some f =>
    modFacet s f fun x =>
      match x.inbound.find? fun i => i.continues q with
      | some i =>
        let all := i.values ++ q.values
        let i' := { i with values := all, count := all.length / (if q.winners then 2 else 512) }
        { x with inbound := x.inbound.map fun k => if k == i then i' else k }
      | none =>
        let ended := x.inbound.map fun (i : Inbound) => if i.src == q.src && i.prio == q.prio then { i with closed := true } else i
        { x with inbound := ended ++ [q] }

/-- What a REDUCE carries from an ordinal to a part that the device carries (R456, R463). -/
def takeReduce (s : State) (t : Task) (src level mode : Nat) (payload : Bytes) : State :=
  match modeByte mode with
  | none => s
  | some m => touch (takeElems s (inboundFrame t src level mode (grantedScale s t.num level) m payload)) t.num

/-- REDUCE frames of elements from a task's part to an ordinal, in slot order, as many to a frame as fit (R456); a part that the
device carries itself takes them at once (R454). -/
def sendElems (s : State) (task ord level mode width : Nat) : Nat → List Nat → State
  | 0, _ => s
  | k + 1, vs =>
    if vs.isEmpty then s else
    let gt := (gangOf s task).getD 0
    let n := 4096 / width
    let part := ((vs.take n).map (leBytes width)).flatten
    let s := if ownOrdinal s ord then (match partAt s gt ord with
        | some t => takeReduce s t (leafOf s task) level mode part
        | none => s)
      else (sendPart s (leafOf s task) ord 0x22 (leBytes 4 gt ++ leBytes 1 level ++ leBytes 1 mode) part).add 0xA020_04 part.length
    sendElems s task ord level mode width k (vs.drop n)

/-- Elements freed (R149). A FREE slot index has integer mode on record (DESIGN CHOICE, log entry 99). -/
def freeElems (x : Facet) (bs : List Nat) : Facet := bs.foldl (fun x b => setMeta x b freeMeta) x

/-- The elements of a finished send delivered to the parent's holder, as TREE gave it when the send began (R134, R135, R156); none
while the device's tree names no facet for it. -/
def deliverSend (s : State) (f : Nat) (j : ReduceJob) : Option State :=
  let x := facetN s f
  let m := modeAt x j.slotBase
  let vs := packRange x j.slotBase j.count
  let free := fun (s : State) => modFacet s f fun x => freeElems x (rangeOf x j.slotBase j.count)
  if j.level ≤ 5 then
    (j.dest.or (facetAt s j.task j.peer)).map fun g =>
      let i : Inbound := { src := f, prio := j.prio, tag := j.scale, closed := true, task := j.task, level := j.level, mode := m,
                           count := j.count, winners := false, values := vs }
      free (modFacet s g fun x => { x with inbound := x.inbound ++ [i] })
  else some (free (sendElems s j.task j.peer j.level (modeCode m) (reduceBytes m) (vs.length + 1) vs))

/-- The elements of a gather merged into the local ones (R124, R136). -/
def mergeInbound (x : Facet) (j : ReduceJob) (i : Inbound) : Facet :=
  let g := modeSlots i.mode
  (List.range j.count).foldl (fun x k =>
    (List.range 512).foldl (fun x r =>
      let a := j.slotBase + g * k
      elemPut x i.mode r a (elemMerge i.mode (elemGet x i.mode r a) (Elem.unpack i.mode (i.values.getD (512 * k + r) 0)))) x) x

/-- A reduce whose elements have been read: a gather merges what it took into them, a send delivers them; it waits while the device's
tree names no holder for it. -/
def finishReduce (s : State) (f : Nat) (j : ReduceJob) : State :=
  let done := fun (s : State) => countCmd (modFacet s f fun x => { x with reduces := x.reduces.drop 1 }) f
  match j.got with
  | some i => done (clearAcc (modFacet s f fun x => mergeInbound x j i) f j.slotBase (modeSlots i.mode * j.count))
  | none => ((deliverSend s f j).map done).getD s

/-- REDUCE_DELIVERED (R149, R158): the oldest reduce of a facet reads its elements and delivers them, or writes those it gathered
(R364, R365). -/
def execReduceDelivered (f : FacetId) (s : State) : Host.Outcome State Fault Refusal :=
  let x := facetN s f.val
  match x.reduces with
  | [] => .next s
  | j :: _ =>
    .next (settleRuns (readBoth s f.val j.task 0 512 j.slotBase (slotsAt x j.slotBase * j.count) fun s => finishReduce s f.val j) f.val)

/-! ### Drains (R119-R121, R129-R133) -/

/-- The elements that a drain reads: vector 0 first, rows upward within each vector. -/
def drainElems (x : Facet) (d : DrainJob) : List (List Elem) :=
  let m := modeAt x d.slotBase
  (rangeOf x d.slotBase d.vectors).map fun b => (List.range d.rows).map fun r => elemGet x m (d.row + r) b

/-- The header of a drained tile at a scale tag (R130). -/
def drainHead (d : DrainJob) (winners : Bool) (tag : Nat) : TileHead :=
  { form := d.form, winners := winners, scaleTag := tag, repeated := d.scale != 0,
    rows := if winners then 1 else d.rows, vectors := d.vectors, context := d.context, copy := d.copy,
    operand := d.operand, rowTile := d.rowTile }

/-- A drained tile written into a buffer of its output stream (R119, R159), and which buffer; none while it must wait for credits. -/
def releaseTile (s : State) (f : Nat) (d : DrainJob) (tile : Bytes) : Option (State × Nat × Nat × Nat) :=
  match streamInto s f d.task d.outQ with
  | none => none
  | some x =>
    (takeBuf s x.desc.eic x.desc.stream tile.length d.outTag false).map fun r =>
      (finishBuf r.1 x.desc.eic x.desc.stream r.2 1 tile, x.desc.eic, x.desc.stream, r.2)

/-- A drain whose buffer must wait for credits: the clock of R245 runs. -/
def waitTile (s : State) (f : Nat) (d : DrainJob) : State :=
  match streamInto s f d.task d.outQ with
  | none => s
  | some x => starve s x.desc.eic x.desc.stream

/-- An accumulator event of R145. -/
def drainEvent (s : State) (f code : Nat) (d : DrainJob) (last : Bytes) : State :=
  s.raise code f (leBytes 2 d.context ++ leBytes 4 d.copy ++ leBytes 4 d.operand ++ leBytes 4 d.rowTile ++ last)

/-- A drain ends, and its command is complete (R178): its slots are freed where FREE is set. -/
def endDrain (s : State) (f : Nat) (d : DrainJob) : State :=
  modFacet (countCmd s f) f fun x =>
    let x := { x with drains := x.drains.filter fun q => q != d }
    if d.free then freeElems x (rangeOf x d.slotBase d.vectors) else x

/-- The levels of a drain's children whose winners it has still to take. -/
def missing (d : DrainJob) : List (Nat × Nat) := d.children.filter fun l => !d.ins.any fun i => i.level == l.1

/-- The winners of those children that have come (R132, R133). -/
def comeIns (x : Facet) (d : DrainJob) : List Inbound :=
  (missing d).filterMap fun l => (winnersOf x d.task l.1 d.scale).filter fun i => decide (l.1 ≤ 5) || decide (d.vectors ≤ i.count)

/-- The repeat of a tile as the task graph names it (R120). -/
def tileOf (t : Task) (d : DrainJob) : Option TileRepeat :=
  t.graph.tiles.find? fun r => r.operand == d.operand && r.rowTile == d.rowTile && r.slot == d.slotBase && r.vectors == d.vectors

/-- The scheduler writes the commands of a repeat for their engines (R120), each engine's in their order and behind earlier
repeats; they begin under the binding of the queue of their class where that is the task's (log entry 96). -/
def writeRepeat (s : State) (t : Task) (r : TileRepeat) (scale : Nat) : State :=
  let prio := t.cls != .fill
  (List.range 64).foldl (fun s e =>
    let ws := (r.cmds.filter fun c => c.1.val == e).map Prod.snd
    if ws.isEmpty then s else
    modEngine s e fun x =>
      let bound := (x.own prio).binding.filter fun b => b.task == t.num
      x.withReps prio (x.reps prio ++ [{ CmdQueue.start with cmds := ws, binding := bound, repeats := some (t.num, scale) }])) s

/-- A part's runs of a tile repeated at a scale step, by the commands that its task graph names for the tile (R120, R464). -/
def repeatPart (s : State) (t : Task) (scale rowTile slot vectors : Nat) : State :=
  match t.graph.tiles.find? fun r => r.rowTile == rowTile && r.slot == slot && r.vectors == vectors with
  | some r => writeRepeat s t r scale
  | none => s

/-- A repeat of a task at a scale step has commands that have not begun, or a run with symbols to issue, on some engine. -/
def repeatWaits (s : State) (task scale : Nat) : Bool :=
  s.engines.toList.any (fun x => (x.prioReps ++ x.fillReps).any fun q => q.repeats == some (task, scale))
    || s.facets.toList.any fun x => x.runs.any fun r => r.task == task && r.scale == scale && !r.done

/-- A saturated tile repeated in hardware, or refused after its last repeat (R120, R121, R464): the commands that the task graph
names for the tile go to their engines, and the other devices of its tree are told. -/
def saturate (s : State) (f : Nat) (d : DrainJob) (step : Nat) : State :=
  if d.repeats < s.num 0x3400_01 then
    let k := if d.scale = 0 then step else d.scale + 1
    let d' := { d with repeats := d.repeats + 1, scale := k, stale := rangeOf (facetN s f) d.slotBase d.vectors, ins := [] }
    let s := modFacet s f fun x => { x with drains := x.drains.map fun q => if q == d then d' else q }
    let s := drainEvent (s.inc (fam 0x3500_03 f)) f 0x3030 d (leBytes 1 k)
    let s := match findTask s d.task with
      | none => s
      | some t => match tileOf t d with
        | none => s
        | some r => writeRepeat s t r k
    let s := d.children.foldl (fun s l => if l.1 ≤ 5 then s else grantOnce s d.task l.1 l.2 k) s
    match gangOf s d.task, treeFor (facetN s f) d.task with
    | some g, some t =>
      ((List.range 64).filter fun o => t.ordMask.testBit o && o != leafOf s d.task).foldl (fun s o =>
        if ownOrdinal s o then (match partAt s g o with
          | some t => repeatPart s t k d.rowTile d.slotBase d.vectors
          | none => s)
        else sendPart s (leafOf s d.task) o 0x23 (leBytes 4 g ++ leBytes 1 k)
          (leBytes 4 d.rowTile ++ leBytes 2 d.slotBase ++ leBytes 2 d.vectors)) s
    | _, _ => s
  else
    let s := drainEvent (s.inc (fam 0x3500_04 f)) f 0x3031 d (leBytes 1 d.scale)
    dropBoth (abortTask s d.task (.complete 10) 256) f d.task

/-- A tile of `elems` elements has gone to its consumer: it is counted, a winner tile like any other (R130, R143), its slots are
freed, and the inexact flag is counted and told (R142-R145). -/
def tileReleased (s : State) (f : Nat) (d : DrainJob) (elems : Nat) (inexact : Bool) : State :=
  let s := (s.inc (fam 0x3500_01 f)).add (fam 0x3500_02 f) elems
  let s := modTask (endDrain s f d) d.task fun t => { t with inexact := t.inexact || inexact }
  if !inexact then s else
  let s := s.inc (fam 0x3500_05 f)
  if s.num 0x3400_04 = 1 then drainEvent s f 0x3033 d [] else s

/-- A tile goes to its consumer: the drain is over once its buffer has been pushed (R227). -/
def sendTile (s : State) (f : Nat) (d : DrainJob) (tile : Bytes) (elems : Nat) (inexact : Bool) : State :=
  match releaseTile s f d tile with
  | none => waitTile s f d
  | some (s, k) =>
    if pushed s k then tileReleased s f d elems inexact
    else modFacet s f fun x => { x with drains := x.drains.map fun q => if q == d then { d with pushing := some k } else q }

/-- A sum drain at its root (R119, R129-R131). -/
def drainSum (s : State) (f : Nat) (d : DrainJob) : State :=
  let x := facetN s f
  let es := (drainElems x d).flatten
  let inexact := es.any fun e => e.inexact
  if d.pushing.isSome then tileReleased s f d (d.vectors * d.rows) inexact else
  let step := if modeAt x d.slotBase = .integer then satStep (es.map Elem.int) else 0
  if step ≠ 0 then saturate s f d step
  else sendTile s f d (sumTile (drainHead d false d.scale) (es.map fun e => (e, 0))) (d.vectors * d.rows) inexact

/-- The winner of one vector of a MAX or MIN drain over its rows (R132). -/
def vectorWinner (isMax : Bool) (d : DrainJob) (es : List Elem) : Winner :=
  let ws := es.zipIdx.map fun e => ({ value := e.1, index := (d.indexBase + d.row + e.2) % 2 ^ 32 } : Winner)
  match ws with
  | [] => { value := Elem.ofInt 0 0 false, index := 0 }
  | w :: ws => ws.foldl (Winner.best isMax) w

/-- A value at scale tag `tag` shifted to a lower tag, exactly (R132). -/
def Winner.atTag (tag common : Nat) (w : Winner) : Winner :=
  { w with value := if tag ≤ common then w.value else Elem.ofInt (w.value.int * 2 ^ (tag - common)) w.value.exp w.value.inexact }

/-- Winners of a child, read from an inbound list and shifted to a common tag (R132, R133). -/
def inboundWinners (common : Nat) (i : Inbound) : List Winner :=
  (List.range i.count).map fun k =>
    Winner.atTag i.tag common { value := Elem.unpack i.mode (i.values.getD (2 * k) 0), index := i.values.getD (2 * k + 1) 0 }

/-- Winners sent to the holder at the level above GATHER, with their scale tag. The manual gives winners no frame of their own
between devices: they travel as REDUCE with bit 7 of MODE set and the tag in bits [6:2], each element followed by its index
(log entry 23). -/
def sendWinners (s : State) (f : Nat) (d : DrainJob) (mode : Mode) (tag : Nat) (ws : List Winner) : Option State :=
  let level := d.gather + 1
  match d.parent with
  | none => none
  | some (p, dest) =>
    if level ≤ 5 then
      (dest.or (facetAt s d.task p)).map fun g =>
        let i : Inbound := { src := f, prio := d.prio, tag := tag, closed := true, task := d.task, level := level, mode := mode,
                             count := ws.length, winners := true,
                             values := (ws.map fun w => [w.value.pack mode, w.index]).flatten }
        modFacet s g fun x => { x with inbound := x.inbound ++ [i] }
    else
      let width := reduceBytes mode
      some (sendElems s d.task p level (modeCode mode + 4 * tag + 128) (width + 4) (ws.length + 1)
        (ws.map fun w => w.value.pack mode + w.index * 256 ^ width))

/-- A winner drain: the winners of its rows and of its children at their common, lowest scale tag, released or sent upward
(R132, R133, R159). A winner outside S32 at the root saturates its tile (R119). -/
def drainWinners (s : State) (f : Nat) (d : DrainJob) : State :=
  let x := facetN s f
  let mode := modeAt x d.slotBase
  let tag := d.ins.foldl (fun k i => min k i.tag) d.scale
  let own := (drainElems x d).map fun es => Winner.atTag d.scale tag (vectorWinner (d.op == 1) d es)
  let ws := d.ins.foldl (fun ws i => (ws.zip (inboundWinners tag i)).map fun p => Winner.best (d.op == 1) p.1 p.2) own
  if d.dest then
    match sendWinners s f d mode tag ws with
    | some s => endDrain s f d
    | none => s
  else
    let inexact := ws.any fun w => w.value.inexact
    if d.pushing.isSome then tileReleased s f d d.vectors inexact else
    let step := if mode = .integer then satStep (ws.map fun w => w.value.int) else 0
    if step ≠ 0 then saturate s f d step
    else sendTile s f d (sumTile (drainHead d true tag) (ws.map fun w => (w.value, w.index))) d.vectors inexact

/-- The elements of a drain are written, those of a repeat anew and every command of it done, and the winners of its children have
come (R119, R120, R138). -/
def drainReady (s : State) (f : Nat) (d : DrainJob) : Bool :=
  let x := facetN s f
  d.stale.isEmpty && rangeQuiet x d.slotBase d.vectors
    && ((rangeOf x d.slotBase d.vectors).all fun b => (slotMeta x b).state == .complete)
    && (d.scale == 0 || (!repeatWaits s d.task d.scale
      && !readBefore x d.task d.scale d.slotBase (slotsAt x d.slotBase * d.vectors)))
    && (comeIns x d).length == (missing d).length

/-- The winners that have come since the drain began are taken. -/
def takeLate (s : State) (f : Nat) (d : DrainJob) : State × DrainJob :=
  let ins := comeIns (facetN s f) d
  if ins.isEmpty then (s, d) else
  let d' := { d with ins := d.ins ++ ins }
  (takeIns (modFacet s f fun x => { x with drains := x.drains.map fun q => if q == d then d' else q }) f d.task ins, d')

/-- The tile of a drain goes out, or its winners. -/
def finishDrain (s : State) (f : Nat) (d : DrainJob) : State :=
  if d.op = 0 then drainSum s f d else drainWinners s f d

/-- A drain can go on: its elements can be read, or the buffer that it has written has been pushed (R227). -/
def drainDue (s : State) (f : Nat) (d : DrainJob) : Bool :=
  match d.pushing with
  | some k => pushed s k
  | none => drainReady s f d

/-- DRAIN_COMPLETE (R119): the oldest drain of a facet that can go on reads its elements and releases its tile (R364, R365), or is over
since its tile has been pushed. -/
def execDrainComplete (f : FacetId) (s : State) : Host.Outcome State Fault Refusal :=
  let x := facetN s f.val
  match x.drains.find? (drainDue s f.val) with
  | none => .next s
  | some d =>
    if d.pushing.isSome then .next (settleRuns (finishDrain s f.val d) f.val) else
    let (s, d) := takeLate s f.val d
    .next (settleRuns (readBoth s f.val d.task d.row d.rows d.slotBase (slotsAt x d.slotBase * d.vectors) fun s =>
      finishDrain s f.val d) f.val)

/-! ### Peeks (R141, R144) -/

def slotCode : SlotState → Nat
  | .free => 0
  | .opened => 1
  | .complete => 2
  | .invalid => 3

/-- A merge or a gather under way has the slot as its destination, which counts it as a pass does (R137). -/
def writtenTo (x : Facet) (b : Nat) : Bool :=
  x.merges.any (fun j => meets j.aBase (slotsAt x j.aBase * j.count) b 1)
    || x.reduces.any fun j => j.got.isSome && meets j.slotBase (slotsAt x j.slotBase * j.count) b 1

/-- The eight bytes of a peeked slot. -/
def peekEntry (x : Facet) (row b : Nat) : Bytes :=
  let m := governing x b
  leBytes 5 (sparseGet (fun _ => 0) x.acc (accKey row b))
    ++ leBytes 1 (slotCode m.state + 4 * modeCode m.mode + (if m.inTree = 0 && !writtenTo x b then 0 else 16)) ++ leBytes 2 0

/-- The snapshot of a PEEK_CMD word taken: data and count (R144). -/
def takePeek (s : State) (v : Nat) : State :=
  let x := facetN s (bitsOf v 4 0)
  let data := ((List.range (bitsOf v 23 14)).map fun r =>
    ((List.range (bitsOf v 46 35)).map fun i => peekEntry x (bitsOf v 13 5 + r) (bitsOf v 34 24 + i)).flatten).flatten
  (s.setBlob 0x3600_02 (leBytes 8 s.stamp ++ data)).inc 0x3600_03

/-- The fields of a PEEK_CMD word obey R144. -/
def peekOk (v : Nat) : Bool :=
  let rows := bitsOf v 23 14
  let slots := bitsOf v 46 35
  bitsOf v 63 47 == 0 && 1 ≤ rows && rows ≤ 512 && 1 ≤ slots && slots ≤ 2048 && bitsOf v 13 5 + rows ≤ 512
    && bitsOf v 34 24 + slots ≤ 2048 && rows * slots ≤ 4096

end Sys2Proof.Machine
end

