-- ==== Sys2Proof/Machine/Locking.lean ====
section
/-! DEFINITION. Locking.lean: ring loops, line identity, relocks, thermal stops and calibration (R335-R354), with one
meaning for each row. A ring's lane is 64 times its bus plus its line. -/

namespace Sys2Proof.Machine

/-! ### Rings -/

/-- Every loop to a state, with its codes kept. -/
def allLoops (x : Facet) (st ident : Nat) : Facet :=
  let f := fun (l : RingLoop) => { l with loop := st, ident := ident, rounds := 0 }
  { x with optic := { x.optic with base := f x.optic.base, rings := x.optic.rings.map fun r => (r.1, f r.2) } }

/-- Passes resume on facet f. -/
def resumeFacet (s : State) (f : Nat) : State := settleRuns s f

/-- A heater code at an end of its range (R336). -/
def codeAtEnd (code : Nat) : Bool := code == 0 || code == 1023

/-- A ring loses lock (R336): its loop holds its last code; in a row that carries a logical row the facet relocks. -/
def loseLock (s : State) (f row lane ident line : Nat) : State :=
  let l := ringLoop (facetN s f) row lane
  let s := modFacet s f fun x => setRing x row lane { l with loop := 3, ident := ident, line := line, rounds := 0 }
  if carries (facetN s f) row then startRelock s f 1 true else s

/-- LOSS_OF_LOCK (R336): two successive loop errors beyond LOCK_LIMIT, or a heater code at an end of its range, of a closed loop. -/
def execLossOfLock (f : FacetId) (ring : Fin 520 × Fin 128) (seen : LoopReading) (s : State) : Host.Outcome State Fault Refusal :=
  let x := facetN s f.val
  let l := ringLoop x ring.1.val ring.2.val
  let lost := decide (s.num 0x7020_03 < seen.error0.toNat) && decide (s.num 0x7020_03 < seen.error1.toNat) || codeAtEnd seen.code.toNat
  if x.degraded || !(l.loop == 2 || l.loop == 4) || !lost then .next s else
  .next (loseLock (setOut s (ringKey f.val ring.1.val ring.2.val) seen.code.toNat) f.val ring.1.val ring.2.val 0 0)

/-! ### Identity (R340, R341) -/

/-- The verdict of a pilot measurement of a ring on line `own`: levels in tenths of a decibel of the tones of lines own - 2
to own + 2. -/
def identify (own : Nat) (levels : List (Fin 64 × Int)) : ScanResult :=
  let near := levels.filter fun e => decide (own ≤ e.1.val + 2) && decide (e.1.val ≤ own + 2)
  let others := near.filter fun e => e.1.val != own
  match near.find? fun e => e.1.val == own with
  | none => .unidentified
  | some (_, v) =>
    if others.all fun e => decide (e.2 + 100 ≤ v) then .confirmed
    else
      let best := others.foldl (fun (a : Option (Fin 64 × Int)) e => match a with
        | some b => if b.2 < e.2 then some e else some b
        | none => some e) none
      match best with
      | some (l, w) => if v + 100 ≤ w then .wrongLine l else .unidentified
      | none => .unidentified

/-- WRONG_LINE (R341): counted and told; FFh for a ring that is unidentified (log entry 37). -/
def wrongLine (s : State) (f row lane line : Nat) : State :=
  (s.inc (fam 0x7100_07 f)).raise 0x7014 f (leBytes 2 row ++ leBytes 1 lane ++ leBytes 1 line)

/-- A ring that is not confirmed: recovery, once repeated, then loss of lock (R341). -/
def recoverRing (s : State) (f row lane ident line : Nat) : State :=
  let l := ringLoop (facetN s f) row lane
  if 2 ≤ l.rounds then
    loseLock s f row lane ident (line % 64)
  else
    let s := if l.rounds = 0 then wrongLine s f row lane line else s
    let s := setOut s (ringKey f row lane) 512
    let s := modFacet s f fun x =>
      setRing x row lane { l with loop := 4, ident := ident, line := line % 64, rounds := l.rounds + 1 }
    if carries (facetN s f) row then stopFacet s f else s

/-- A ring that is confirmed, with the heater code at which its loop has captured; one that comes out of recovery locks, its recovery
of at most 112 µs is charged to the relock allowance, and passes resume. How long the recovery took is free (log entry 4). -/
def confirmRing (s : State) (f row lane code : Nat) : State :=
  let l := ringLoop (facetN s f) row lane
  let s := setOut s (ringKey f row lane) code
  if codeAtEnd code then loseLock s f row lane 1 0 else
  let s := modFacet s f fun x => setRing x row lane { l with loop := 2, ident := 1, rounds := 0 }
  if l.loop ≠ 4 then s else
  let (t, s) := s.drawNat 3442
  resumeFacet (chargeFacet s f 0 t) f

/-- IDENTITY_SCAN (R340, R341): the pilot demodulation of one ring of a facet that is LOCKED, with its heater code. Inside a relock
the measurement belongs to its step 5. -/
def execIdentityScan (f : FacetId) (row : Fin 520) (lane : Fin 128) (seen : ScanReading) (s : State) :
    Host.Outcome State Fault Refusal :=
  let x := facetN s f.val
  let l := ringLoop x row.val lane.val
  if x.degraded || x.lock != .locked || x.dipping || !(l.loop == 2 || l.loop == 4) then .next s
  else match identify (lane.val % 64) seen.levels with
    | .confirmed => .next (confirmRing s f.val row.val lane.val seen.code.toNat)
    | .wrongLine k => .next (recoverRing s f.val row.val lane.val 2 k.val)
    | .unidentified => .next (recoverRing s f.val row.val lane.val 3 0xFF)

/-! ### Relocks (R342-R346) -/

/-- A relock fails (R345): after a wide suspect set the facet degrades, else it is HELD. -/
def relockFailed (s : State) (f step : Nat) : State :=
  let x := facetN s f
  let s := s.inc (fam 0x7100_05 f)
  match x.optic.relock with
  | none => s
  | some k =>
    if k.triggers.testBit 3 then settleAllFacets (degradeFacet s f noRow noRow k.synd k.symAt false)
    else
      let n := x.optic.heldFails
      let first := x.lock != .held
      let s := modFacet s f fun x =>
        { x with lock := .held, optic := { x.optic with heldFails := n + 1 } }
      let s := if n % 100 = 0 then s.raise 0x7016 f (leBytes 1 step) else s
      if first then settleAllFacets (recertify s (tasksOn s f) 3 true true) else s

/-- A facet locks: its rings are LOCKED on their own lines, the loaded planes hold the map as it stands (R344), passes
resume. -/
def lockFacet (s : State) (f : Nat) : State :=
  let s := modFacet s f fun x =>
    let x := calReach (calArm (allLoops x 2 1))
    { x with lock := .locked, optic := { x.optic with relock := none, heldFails := 0 } }
  resumeFacet s f

/-- A relock ends well: counted, told, charged (R346). -/
def relockDone (s : State) (f micros triggers : Nat) : State :=
  let s := (s.inc (fam 0x7100_03 f)).setNum (fam 0x7100_04 f) micros
  let s := s.raise 0x7015 f (leBytes 1 triggers ++ leBytes 4 micros)
  settleAllFacets (chargeFacet (lockFacet s f) f 0 (ceilDiv (micros * 3072) 100))

/-- Rings take the heater codes at which they captured (R343, R349). -/
def takeCodes (s : State) (f : Nat) (codes : List (Fin 520 × Fin 128 × BitVec 10)) : State :=
  codes.foldl (fun s a => setOut s (ringKey f a.1.val a.2.1.val) a.2.2.toNat) s

/-- Rings that captured at an end of their range lose lock (R336): a new loss of lock, which the relock takes in. -/
def loseEnds (s : State) (f : Nat) (codes : List (Fin 520 × Fin 128 × BitVec 10)) : State :=
  codes.foldl (fun s a => if codeAtEnd a.2.2.toNat then loseLock s f a.1.val a.2.1.val 0 0 else s) s

/-- RELOCK_COMPLETE (R343, R345): every step has run, the row check of step 7 included. Of `found`, `acquired` are the rings that swept, with
their codes; `recovered` those that step 5 recovered, with the line identified, each told and counted (R341). More than two
recovery rounds, or a time beyond the bound, fail the relock; which step was then under way is free. -/
def execRelockComplete (f : FacetId) (micros rounds : Nat) (found : RelockRings) (s : State) : Host.Outcome State Fault Refusal :=
  let x := facetN s f.val
  match x.optic.relock with
  | none => .next s
  | some k =>
    if x.degraded || x.lock == .dark || x.lock == .starting || x.dipping then .next s else
    let late := decide (s.num 0x7020_05 + 92 * rounds < micros)
    if rounds ≤ 2 ∧ !late ∧ !k.checked then .next s else
    let s := found.recovered.foldl (fun s r =>
      wrongLine s f.val r.1.val r.2.1.val (match r.2.2 with
        | some l => l.val
        | none => 0xFF)) s
    if 2 < rounds then .next (relockFailed s f.val 5)
    else if late then
      let (n, s) := s.drawNat 6
      .next (relockFailed s f.val (n + 2))
    else
      let s := takeCodes s f.val found.acquired
      if found.acquired.any fun a => codeAtEnd a.2.2.toNat then .next (loseEnds s f.val found.acquired)
      else .next (relockDone s f.val micros k.triggers)

/-- Rows found faulty by a check are retired and replaced (R344, R349, R354). No symbol has failed: ROW_SWAPPED and SPARES_LOW carry
syndromes 0 and the present stamp (DESIGN CHOICE, log entry 97). -/
def retireRows (s : State) (f : Nat) (rows : List Nat) : State :=
  rows.foldl (fun s p => if (facetN s f).degraded then s else retireRow s f p 0 s.now) s

/-! ### The row check (R344) -/

/-- The trit of check plane k in compute row r on lane j. -/
def checkTrit (k r j : Nat) : Int := ((r + j + k) % 3 : Nat) - 1

/-- The row of check plane k at a logical row, girdle rows under R60. -/
def checkRow (k r : Nat) : List Int :=
  (List.range 128).map fun j =>
    if r < 512 then checkTrit k r j else (girdleTrits ((List.range 512).map fun i => checkTrit k i j)).getD (r - 512) 0

/-- The fixed digit vectors: all 3; all 1; 3 on even lanes; 2 on odd lanes. -/
def checkDigit (v j : Nat) : Nat :=
  match v with
  | 0 => 3
  | 1 => 1
  | 2 => if j % 2 = 0 then 3 else 0
  | _ => if j % 2 = 1 then 2 else 0

/-- The code that the reference unit computes for a logical row in check pass 4 k + v (R45, R64). -/
def checkCode (pass r : Nat) : Int := dot ((List.range 128).map (checkDigit (pass % 4))) (checkRow (pass / 4) r)

/-- The physical rows whose codes differ from their references. A code that the list leaves out is its reference (log entry 137). -/
def checkFails (x : Facet) (codes : List (Fin 12 × Fin 516 × Int)) : List Nat :=
  ((codes.filter fun c => c.2.2 != checkCode c.1.val c.2.1.val).filterMap fun c => carrier x c.2.1.val).dedup

/-- The outcome of a row check: it passes; one or two rows are retired and it is repeated, once; or it fails. -/
inductive CheckResult
  | passed
  | again (rows : List Nat)
  | failed
  deriving DecidableEq, Repr

def judgeCheck (x : Facet) (codes : List (Fin 12 × Fin 516 × Int)) (repeated : Bool) : CheckResult :=
  let rows := checkFails x codes
  if rows = [] then .passed
  else if rows.length ≤ 2 ∧ rows.length ≤ freeSpares x ∧ !repeated then .again rows
  else .failed

/-- A facet cannot complete start-up (R349): CAL_FAILED with the step, no row. -/
def startFailed (s : State) (f step : Nat) : State :=
  let s := (s.inc (fam 0x7100_0A f)).raise 0x7019 f (leBytes 2 0x3FF ++ leBytes 1 step)
  modFacet s f fun x => { x with optic := { x.optic with relock := none } }

/-- The row check of a start-up (R349): the facet enters service, or rows are retired and the check is repeated, or start-up fails.
How long start-up took is free (log entry 4). -/
def startCheck (s : State) (f : Nat) (k : Relock) (codes : List (Fin 12 × Fin 516 × Int)) : State :=
  match judgeCheck (facetN s f) codes k.checkRepeated with
  | .passed =>
    let s := s.setFacets (withBit (s.num 0x0020_01) f true)
    let (micros, s) := s.drawNat 50001
    relockDone s f micros k.triggers
  | .again rows =>
    let s := retireRows s f rows
    if (facetN s f).degraded then startFailed s f 4
    else modFacet s f fun x => { x with optic := { x.optic with relock := some { k with checkRepeated := true } } }
  | .failed => startFailed s f 4

/-- The row check after a calibration in place (R344, R354): passes resume; one or two rows are retired and the check is
repeated once; anything else is a failed relock (R345). The check loads the planes again, through the map as it stands. The
stop since the last row's calibration began is charged. -/
def inPlaceCheck (s : State) (f : Nat) (codes : List (Fin 12 × Fin 516 × Int)) : State :=
  let x := facetN s f
  match judgeCheck x codes x.optic.inPlaceRepeated with
  | .passed =>
    let s := chargeFacet s f 0 (s.since x.optic.calStart)
    resumeFacet (modFacet s f fun x =>
      let x := calReach (calArm x)
      { x with optic := { x.optic with inPlace := false, inPlaceRepeated := false, overdueRaised := false } }) f
  | .again rows => modFacet (retireRows s f rows) f fun x => { x with optic := { x.optic with inPlaceRepeated := true } }
  | .failed =>
    let k : Relock :=
      { triggers := 0, since := s.up, checkRepeated := false, checked := false, acquires := false, synd := 0, symAt := s.now }
    relockFailed (modFacet s f fun x =>
      { x with optic := { x.optic with inPlace := false, inPlaceRepeated := false, relock := some k } }) f 7

/-- The row check of a relock (R344): its step 7 has passed, or is repeated, or the relock fails. -/
def relockCheck (s : State) (f : Nat) (k : Relock) (codes : List (Fin 12 × Fin 516 × Int)) : State :=
  let checking := fun (s : State) (k : Relock) => modFacet s f fun x =>
    { x with lock := if x.lock = .held then x.lock else .checking, optic := { x.optic with relock := some k } }
  match judgeCheck (facetN s f) codes k.checkRepeated with
  | .passed => checking s { k with checked := true }
  | .again rows => checking (retireRows s f rows) { k with checkRepeated := true, checked := false }
  | .failed => relockFailed s f 7

/-- ROW_CHECK_COMPLETE (R344): the codes of the row check of a relock, of a calibration in place (R354), or of a start-up that
repeats it (R349). -/
def execRowCheckComplete (f : FacetId) (codes : List (Fin 12 × Fin 516 × Int)) (s : State) : Host.Outcome State Fault Refusal :=
  let x := facetN s f.val
  match x.optic.relock with
  | none =>
    if x.optic.inPlace && x.optic.cal.isNone && x.lock == .locked && !x.degraded && !x.dipping then
      .next (settleAllFacets (inPlaceCheck s f.val codes))
    else .next s
  | some k =>
    if x.degraded || x.lock == .dark || x.dipping then .next s
    else if x.lock = .starting then .next (if k.checkRepeated then startCheck s f.val k codes else s)
    else .next (relockCheck s f.val k codes)

/-- At a frame start a HELD facet attempts a fresh relock (R345). -/
def heldFrame (s : State) : State :=
  (List.range 32).foldl (fun s f =>
    let x := facetN s f
    if x.lock ≠ .held ∨ x.degraded then s else
    let k := x.optic.relock.getD
      { triggers := 0, since := 0, checkRepeated := false, checked := false, acquires := true, synd := 0, symAt := s.now }
    predictRings (modFacet s f fun x =>
      { x with optic := { x.optic with relock := some { k with since := s.up, checkRepeated := false, checked := false } } }) f) s

/-! ### Thermal stops and regions (R338, R348) -/

/-- A region's temperature (7100h + f.0C), also that of its fast sensor. -/
def setRegion (s : State) (f r celsius : Nat) : State :=
  let b := s.blob (fam 0x7100_0C f)
  noteTemp (s.setBlob (fam 0x7100_0C f) (b.take (4 * r) ++ leBytes 4 celsius ++ b.drop (4 * r + 4))) (88 + 16 * f + r) celsius

/-- THERMAL_STOP (R348): a departure beyond THERMAL_TOL while the region heater lies strictly inside its range. The heaters
take the steady drive of the duty, a code that the manual does not give (log entry 4). -/
def execThermalStop (f : FacetId) (region : Fin 16) (celsius : BitVec 32) (s : State) : Host.Outcome State Fault Refusal :=
  let s := setRegion s f.val region.val celsius.toNat
  let x := facetN s f.val
  let dep := sub32 celsius.toNat (s.num 0x7020_02)
  let code := outTarget s (heaterKey f.val region.val)
  if x.degraded || x.lock == .dark || x.lock == .starting || s.node == .safe then .next s
  else if isNan celsius.toNat || fle (abs32 dep) (s.num 0x7020_04) || code == 0 || code == 16383 then .next s
  else
    let s := (s.inc (fam 0x7100_06 f.val)).raise 0x7017 f.val (leBytes 1 region.val ++ leBytes 4 dep)
    let s := (List.range 16).foldl (fun s r => freeHeater s (heaterKey f.val r)) s
    .next (startRelock s f.val 2 false)

/-- REGION_SATURATED (R338): a region heater has been at code 0 for 10 frames. -/
def execRegionSaturated (f : FacetId) (region : Fin 16) (s : State) : Host.Outcome State Fault Refusal :=
  .next ((connectOut s (heaterKey f.val region.val) 0).raise 0x7018 f.val (leBytes 1 region.val))

/-! ### Calibration at start-up (R349) -/

/-- The rails of the facet are good. -/
def facetPowered (s : State) (f : Nat) : Bool := (facetRails f).all (railGood s)

/-- Calibration at start-up marks every row as calibrated now. -/
def calibrated (s : State) (f : Nat) : State :=
  modFacet s f fun x => { x with optic := { x.optic with calAt := [], calBase := s.seconds } }

/-- STARTUP_CALIBRATION (R349): the start-up of a facet with light. `failed`: step 1 or 2 failed. Else the rings have acquired, with
the heater codes of those that swept; rows were calibrated, those of `failedRows` failed twice and are retired; and the row
check ran, with its codes. -/
def execStartupCalibration (f : FacetId) (failed : Option (Fin 2)) (found : StartupFindings) (s : State) :
    Host.Outcome State Fault Refusal :=
  let x := facetN s f.val
  match x.optic.relock with
  | none => .next s
  | some k =>
    if x.degraded || x.lock != .starting || x.dipping || k.checkRepeated || s.node != .configuring || !facetLit s f.val
        || !facetPowered s f.val || s.power.lost.testBit f.val then .next s else
    let s := takeCodes s f.val found.heaters
    match failed with
    | some n => .next (startFailed s f.val (n.val + 1))
    | none =>
      if found.heaters.any fun a => codeAtEnd a.2.2.toNat then .next (loseEnds s f.val found.heaters) else
      let s := modFacet s f.val fun x => allLoops x 2 1
      let s := calibrated (retireRows s f.val (found.failedRows.map fun r => r.val)) f.val
      if (facetN s f.val).degraded then .next (startFailed s f.val 3) else .next (startCheck s f.val k found.codes)

/-! ### Rolling calibration (R350-R354) -/

/-- The rows that take part: those not retired. -/
def calRows (x : Facet) : List Nat := (List.range 520).filter fun p => (rowAt x p).role != .retired

/-- The next row after the last one in a cycle over the rows of a list. -/
def nextInCycle (rows : List Nat) (last : Nat) : Option Nat := (rows.find? fun p => last < p).orElse fun _ => rows.head?

/-- A row whose calibration needs a stand-in. -/
def needsStandIn (x : Facet) (p : Nat) : Bool := (rowAt x p).logical < 516

/-- The calibration of a row begins; the map is saved (R79, R351). -/
def calStart (s : State) (f p : Nat) (standIn : Option Nat) : State :=
  let c : CalRun :=
    { row := p, standIn := standIn, since := s.up, inEffect := standIn.isNone, armed := false, failedOnce := false, returning := false }
  let s := modFacet s f fun x =>
    let e := rowAt x p
    let x := match standIn with
      | some q => setRow (setRow x p { e with cal := true }) q { logical := e.logical, role := .standingIn, cal := false }
      | none => setRow x p { e with cal := true }
    { x with optic := { x.optic with cal := some c, calStart := s.up } }
  saveRowMap s f

/-- ROLLING_CAL_START (R350, R351, R354): the next row in the cycle, under the lowest idle spare where it carries a logical
row. Without a fit spare rows in use pause, told once, and unfit spares are calibrated meanwhile. -/
def execRollingCalStart (f : FacetId) (s : State) : Host.Outcome State Fault Refusal :=
  let x := facetN s f.val
  let rows := calRows x
  let due := s.num 0x7020_01 * 30720000 / max rows.length 1 ≤ s.since x.optic.calStart
  if x.degraded || x.lock != .locked || x.dipping || x.swapping || x.optic.cal.isSome || !due then .next s else
  match nextInCycle rows x.optic.calLast with
  | none => .next s
  | some p =>
    if !needsStandIn x p then .next (calStart s f.val p none)
    else match lowestIdle x with
      | some q =>
        let s := modFacet s f.val fun x => { x with optic := { x.optic with calPaused := false } }
        .next (calStart s f.val p (some q))
      | none =>
        let s := if x.optic.calPaused then s
          else (modFacet s f.val fun x => { x with optic := { x.optic with calPaused := true } }).raise 0x701A f.val []
        match nextInCycle (rows.filter fun q => (rowAt x q).role == .unfit) x.optic.calLast with
        | some q => .next (calStart s f.val q none)
        | none => .next s

/-- The sequencer is IDLE (R165): no command is ready, no run is under way. -/
def seqIdle (s : State) (f : Nat) : Bool :=
  let x := facetN s f
  (engineN s f).depth true == 0 && (engineN s f).depth false == 0 && x.runs.isEmpty && outstanding x == 0

/-- STAND_IN_RELOAD (R351): one frame without a shadow load while the sequencer is IDLE: the active plane is loaded through the
new map and flipped in. -/
def execStandInReload (f : FacetId) (s : State) : Host.Outcome State Fault Refusal :=
  let x := facetN s f.val
  match x.optic.cal with
  | none => .next s
  | some c =>
    if c.pending && decide (frameTicks ≤ s.since c.since) && seqIdle s f.val && x.shadow.isNone && passesRun x && !x.swapping then
      .next (settleRuns ((modFacet s f.val fun x => calReach (calArm x)).inc (fam 0x3700_03 f.val)) f.val)
    else .next s

/-- The map returns a row to itself and its spare to idle, and is saved; the change is still to reach the rings (R79, R351). -/
def calReturn (s : State) (f : Nat) (c : CalRun) : State :=
  let s := modFacet s f fun x =>
    let e := rowAt x c.row
    match c.standIn with
    | some q =>
      let x := setRow (setRow x c.row { e with cal := false }) q { logical := noRow, role := .idleSpare, cal := false }
      { x with optic := { x.optic with cal := some { c with returning := true, armed := false, since := s.up }, calLast := c.row } }
    | none =>
      let x := setRow x c.row { e with cal := false }
      { x with optic := { x.optic with cal := none, calLast := c.row } }
  saveRowMap s f

/-- A row's rings take the heater codes of its calibration (R352): a code within 64 LSB of an end of its range raises
REGION_SATURATED for its ring's region, and one at the end itself is a loss of lock (R336). -/
def calCodes (s : State) (f row : Nat) (codes : Vector (BitVec 10) 128) : State :=
  (List.finRange 128).foldl (fun s l =>
    let k := codes[l].toNat
    let s := modFacet (setOut s (ringKey f row l.val) k) f fun x =>
      setRing x row l.val { loop := if codeAtEnd k then 3 else 2, before := 0, ident := 1, line := 0, rounds := 0 }
    if k ≤ 64 ∨ 959 ≤ k then s.raise 0x7018 f (leBytes 1 (Config.ringRegion f row l.val).val) else s) s

/-- A calibration passes (R352): the new values stand. -/
def calPass (s : State) (f : Nat) (c : CalRun) (codes : Vector (BitVec 10) 128) : State :=
  let s := calCodes s f c.row codes
  let s := (s.inc (fam 0x7100_09 f))
  let s := modFacet s f fun x =>
    let e := rowAt x c.row
    let x := if e.role = .unfit then setRow x c.row { e with role := .idleSpare } else x
    let base := x.optic.calBase
    { x with optic := { x.optic with
        calAt := sparsePut (fun _ => base) x.optic.calAt c.row s.seconds
        spareFails := x.optic.spareFails.filter (· != c.row)
        overdueRaised := false } }
  let s := calReturn s f c
  if carries (facetN s f) c.row && codes.toList.any (fun k => codeAtEnd k.toNat) then startRelock s f 1 true else s

/-- The calibration in progress ends without a result: a row under a stand-in takes its logical row back (R351). -/
def abandonCal (x : Facet) : Facet :=
  match x.optic.cal with
  | none => x
  | some c =>
    if c.returning then dropCal x else
    match c.standIn with
    | some q => endStandIn x q idleEntry
    | none => dropCal (setRow x c.row { rowAt x c.row with cal := false })

/-- A second failure (R353): the stand-in becomes permanent and the row is retired; an idle spare becomes unfit, and is
retired when its cycle before failed too. SWAPS counts each row retired; the events have no failed symbol (log entry 97). -/
def calFail (s : State) (f : Nat) (c : CalRun) : State :=
  let before := freeSpares (facetN s f)
  match c.standIn with
  | some q =>
    let l := (rowAt (facetN s f) c.row).logical
    let s := openRow (modFacet s f fun x =>
      let x := takeRow x c.row q
      { x with optic := { x.optic with cal := none, calLast := c.row } }) f c.row
    let s := facetEvent ((saveRowMap s f).addSaved (fam 0x3100_07 f) 1).faultDegraded f 0x3011 c.row l 0 s.now
    sparesLow s f before c.row l 0 s.now
  | none =>
    if needsStandIn (facetN s f) c.row then
      retireRows (modFacet s f fun x => { x with optic := { x.optic with cal := none } }) f [c.row]
    else
    let again := (facetN s f).optic.spareFails.contains c.row
    let s := modFacet s f fun x =>
      let e := rowAt x c.row
      let x := setRow x c.row (if again then retiredRow else { e with role := .unfit, cal := false })
      { x with optic := { x.optic with cal := none, calLast := c.row,
                                       spareFails := if again then x.optic.spareFails.filter (· != c.row)
                                         else x.optic.spareFails ++ [c.row] } }
    let s := if again then ((openRow s f c.row).addSaved (fam 0x3100_07 f) 1).faultDegraded else s
    sparesLow (saveRowMap s f) f before c.row noRow 0 s.now

/-- Overdue rows in use are being calibrated in place (R354): the one just calibrated leaves the list; after the last one the
row check runs (`execRowCheckComplete`). -/
def inPlaceDone (s : State) (f : Nat) : State :=
  let x := facetN s f
  let old := (calRows x).filter fun p => needsStandIn x p
    && s.seconds - sparseGet (fun _ => x.optic.calBase) x.optic.calAt p ≥ 2 * s.num 0x7020_01
  match old with
  | p :: _ => calStart s f p none
  | [] => s

/-- CALIBRATION_COMPLETE (R352, R353): the calibration in progress ends, with the step that failed where one did. A spare that
returned a non-zero code fails (R55). In a calibration in place each row's time is charged to the relock allowance, that of the
last with the row check (R354). -/
def execCalibrationComplete (f : FacetId) (failedStep : Option (Fin 6)) (spareNonZero : Bool)
    (codes : Vector (BitVec 10) 128) (s : State) : Host.Outcome State Fault Refusal :=
  let x := facetN s f.val
  match x.optic.cal with
  | none => .next s
  | some c =>
    if x.degraded || !c.inEffect || c.returning || !(x.lock == .locked) || x.dipping then .next s else
    let step := match failedStep with
      | some k => k.val + 1
      | none => if spareNonZero && !needsStandIn x c.row then 6 else 0
    let s := if step = 0 then calPass s f.val c codes
      else
        let s := (s.inc (fam 0x7100_0A f.val)).raise 0x7019 f.val (leBytes 2 c.row ++ leBytes 1 step)
        if c.failedOnce then calFail s f.val c
        else modFacet s f.val fun x =>
          { x with optic := { x.optic with cal := some { c with failedOnce := true, since := s.up } } }
    let y := facetN s f.val
    if y.optic.inPlace && y.optic.cal.isNone && !y.degraded then
      let t := s.since x.optic.calStart
      let s := inPlaceDone s f.val
      .next (settleAllFacets (if (facetN s f.val).optic.cal.isSome then chargeFacet s f.val 0 t else s))
    else .next s

/-- The age in seconds of the oldest calibration among rows in use (7100h + f.0B). -/
def oldestCal (s : State) (f : Nat) : Nat :=
  let x := facetN s f
  ((List.range 520).filter fun p => needsStandIn x p && (rowAt x p).role == .inUse).foldl
    (fun a p => max a (s.seconds - sparseGet (fun _ => x.optic.calBase) x.optic.calAt p)) 0

/-- CAL_OVERDUE (R75, R354): at 1.5 times CAL_INTERVAL told while calibration is paused; at twice it the facet is no longer in the
calibrated state: it stops its passes, abandons a calibration under way and calibrates in place. -/
def execCalOverdue (f : FacetId) (s : State) : Host.Outcome State Fault Refusal :=
  let x := facetN s f.val
  let age := oldestCal s f.val
  let i := s.num 0x7020_01
  if x.degraded || x.lock != .locked then .next s
  else
    let s := if x.optic.calPaused ∧ 3 * i ≤ 2 * age ∧ !x.optic.overdueRaised then
        (modFacet s f.val fun x => { x with optic := { x.optic with overdueRaised := true } }).raise 0x701B f.val (leBytes 4 age)
      else s
    if 2 * i ≤ age ∧ !x.optic.inPlace then
      let s := modFacet (stopFacet s f.val) f.val fun x =>
        let x := abandonCal x
        { x with optic := { x.optic with inPlace := true } }
      .next (inPlaceDone (saveRowMap s f.val) f.val)
    else .next s

end Sys2Proof.Machine
end

