-- ==== Sys2Proof/Machine/MemRows.lean ====
section
/-! DEFINITION. MemRows.lean: training of the HBM3E interface, retirement of units and the patrol scrub (R366-R371, R377,
R378), with one meaning for each row. -/

namespace Sys2Proof.Machine

/-- HBM_TRAINING_DONE (R366, R504): the stack is in service, or has failed with the facets of its pair. In Sealed no stack is
powered up by the device yet, and LANE_REPAIRS is still to be restored. -/
def execHbmTrainingDone (n : PairId) (trained : Bool) (lanesRepaired : Nat) (s : State) : Host.Outcome State Fault Refusal :=
  if s.node == .sealed || !(stackRails n.val).all (railGood s) || s.unitUp 3 n.val then .next s else
  let s := if lanesRepaired = 0 then s else s.addSaved (fam 0x4500_09 n.val) lanesRepaired
  if trained then .next (s.setUnits 3 (withBit (s.num 0x0020_03) n.val true))
  else
    let s := (s.faultDegraded.raise 0xB011 n.val [])
    let s := loseFacets s ((pairFacets n.val).filter fun f => s.facetUp f)
    .next ((pairFacets n.val).foldl (fun s f => modFacet s f fun (x : Facet) => { x with degraded := true }) s)

/-! ### Retirement (R369-R371) -/

/-- UNIT_RETIRE_START (R370): a unit that waits takes the lowest free spare and its copy begins, while no other retirement of
the stack runs; where the last spare has gone meanwhile the unit stays in service (R371). -/
def execUnitRetireStart (n : PairId) (unit : Nat) (s : State) : Host.Outcome State Fault Refusal :=
  if 549317 ≤ unit then .fault .illFormed
  else
    let m := s.maint
    let left := s.num (fam 0x4500_05 n.val)
    if m.retiring[n].isSome || !(m.waiting[n]).contains unit then .next s
    else if left = 0 then .next (qualifyUnit (modMaint s fun m => { m with waiting := m.waiting.set n ((m.waiting[n]).erase unit) }) n.val unit)
    else
      let s := modMaint s fun m =>
        { m with retiring := m.retiring.set n (some (unit, 16384 - left)), waiting := m.waiting.set n ((m.waiting[n]).erase unit) }
      let s := s.setSaved (fam 0x4500_05 n.val) (left - 1)
      .next (if left - 1 = 1024 then s.raise 0x4052 n.val (leBytes 1 0 ++ leBytes 1 n.val ++ leBytes 2 1024) else s)

/-- One entry of a remap table. -/
def remapEntry (e : Nat × Nat) : Bytes := leBytes 4 e.1 ++ leBytes 2 e.2 ++ leBytes 2 0

/-- A unit's spare in unit order; a unit retired again takes its newer spare. -/
def remapPut (l : List (Nat × Nat)) (unit spare : Nat) : List (Nat × Nat) :=
  (l.filter fun e => e.1 < unit) ++ [(unit, spare)] ++ l.filter fun e => unit < e.1

/-- The copy of a unit to its spare reads each of its words (R370): a corrected one is counted and its error ends; one that cannot be
corrected stays so until a task overwrites it. -/
def copyWords (n : Nat) : List (Nat × ReadOutcome) → State → State
  | [], s => s
  | (w, o) :: es, s =>
    let a := w - hbmBase n
    match o with
    | .clean => copyWords n es s
    | .corrected k => copyWords n es (noteCorrected (dropErr s w) .hbm n a k.val false)
    | .reread => copyWords n es (noteReread (dropErr s w) .hbm n a)
    | .uncorrectable =>
      let s := s.inc (uncorrectableOid .hbm n)
      copyWords n es (memEvent (logError s .hbm n 3 0xFF a 0 0xFFFF 0xFFFF) .hbm n 3 a 0)

/-- UNIT_RETIRED (R370, R478, R504): the copy ends, the remap entry takes effect and is saved. More than 64 retirements within the
window fail the stack. -/
def execUnitRetired (n : PairId) (s : State) : Host.Outcome State Fault Refusal :=
  match s.maint.retiring[n] with
  | none => .next s
  | some (unit, spare) =>
    let s := copyWords n.val (errsAt s (touches (hbmBase n.val + unitBytes * unit) unitBytes)) s
    let oid := fam 0x4500_08 n.val
    let table := remapPut (remapOf s n.val) unit spare
    let times := ((s.maint.retiredAt[n]).filter fun t => s.seconds < t + s.num 0x4400_04) ++ [s.seconds]
    let s := modMaint s fun m =>
      { m with retiring := m.retiring.set n none, retiredAt := m.retiredAt.set n times,
               hbmHits := m.hbmHits.filter fun h => h.1 != n.val * 2 ^ 20 + unit }
    let s := (((s.setBlob oid ((table.map remapEntry).flatten)).save oid).addSaved (fam 0x4500_04 n.val) 1).faultDegraded
    let s := s.raise 0x4051 n.val (leBytes 1 0 ++ leBytes 1 n.val ++ leBytes 4 unit ++ leBytes 2 spare)
    .next (if 64 < times.length then stackFailed s n.val else s)

/-! ### The patrol scrub (R377, R378) -/

/-- Bytes of data in one code word (R362). -/
def wordBytes (m : MemKind) : Nat := if m = .hbm then 32 else 16

/-- The memories that the scrub covers. -/
def scrubbed (m : MemKind) : Bool := m == .hbm || m == .shelf || m == .accumulator

/-- The address of the code word that the scrub of a memory reads next. -/
def scrubAt (s : State) (m : MemKind) (unit : Nat) : Nat :=
  match m with
  | .hbm => s.num (fam 0x4500_07 unit)
  | .shelf => (s.maint.scrubShelf[unit]?).getD 0
  | _ => (s.maint.scrubAcc[unit]?).getD 0

/-- The position and pass count after a word has been read. -/
def scrubNext (s : State) (m : MemKind) (unit : Nat) : State :=
  let next := scrubAt s m unit + wordBytes m
  let wrapped := decide (memBytes m ≤ next)
  let next := if wrapped then 0 else next
  match m with
  | .hbm =>
    let s := s.setNum (fam 0x4500_07 unit) next
    if wrapped then s.inc (fam 0x4500_06 unit) else s
  | .shelf =>
    let s := modMaint s fun x => { x with scrubShelf := x.scrubShelf.setIfInBounds unit next }
    if wrapped then s.inc (fam 0x4600_07 unit) else s
  | _ => modMaint s fun x => { x with scrubAcc := x.scrubAcc.setIfInBounds unit next }

/-- Weight blocks that an HBM3E address can hold: context, slot, block of each copy whose extents take it in. -/
def hbmHeld (s : State) (address : Nat) : List (Nat × Bool × Nat) :=
  (s.contexts.map fun c => ([false, true].map fun b =>
    let x := c.2.slot b
    if 4 ≤ x.state.code && x.extents.any fun e => decide (e.1 ≤ address) && decide (address < e.1 + e.2)
    then (hbmBlocks x).map fun k => (c.1, b, k) else []).flatten).flatten

/-- An uncorrectable HBM3E word: it qualifies its unit. Which block of a copy lies there, or that none does, the manual leaves to the
allocation: free (log entry 35). -/
def scrubHbm (s : State) (unit address : Nat) : State :=
  let held := hbmHeld s address
  let (k, s) := if held.isEmpty then (0, s) else s.drawNat (held.length + 1)
  let starts := if retirable s unit (address / unitBytes) then 3 else 0
  match held[k]? with
  | some (c, b, blk) => noteHbmBad (damageCopy s c b [blk]) unit address 5 0xFFFF 2 c
  | none => noteHbmBad s unit address 5 0xFFFF starts 0xFFFF

/-- Slots that a code word of a row bank touches (R376). -/
def wordSlots (g : Nat) : List Nat := (List.range ((128 * g + 127) / 40 - 128 * g / 40 + 1)).map (128 * g / 40 + ·)

/-- Slot j of a row bank without the bits that code word g covers. -/
def clearWordBits (v j g : Nat) : Nat :=
  (List.range 40).foldl (fun v i => if (40 * j + i) / 128 = g then withBit v i false else v) v

/-- An uncorrectable accumulator word: rewritten with zeros where all its slots are FREE or INVALID, else left. -/
def scrubAcc (s : State) (f address : Nat) : State :=
  let row := address / 10240
  let g := address % 10240 / 16
  let x := facetN s f
  let s := s.inc (uncorrectableOid .accumulator f)
  let idle := (wordSlots g).all fun j => (overlaps x j 1).all fun e => e.2.state == .free || e.2.state == .invalid
  if idle then
    let acc := (wordSlots g).foldl (fun a j =>
      sparsePut (fun _ => 0) a (accKey row j) (clearWordBits (sparseGet (fun _ => 0) a (accKey row j)) j g)) x.acc
    let s := dropErr (modFacet s f fun x => { x with acc := acc }) (accBase f + address)
    memEvent (logError s .accumulator f 5 0xFF address 6 0xFFFF 0xFFFF) .accumulator f 5 address 6
  else
    memEvent (logError s .accumulator f 5 0xFF address 0 0xFFFF 0xFFFF) .accumulator f 5 address 0

/-- PATROL_SCRUB (R377, R378): the next code word of a memory in ascending order read; a word that holds an error already shows it.
Corrected words are written back; what cannot be corrected is met again by the task that reads it. -/
def execPatrolScrub (mem : MemKind) (unit : Fin 32) (address : Nat) (outcome : ReadOutcome) (s : State) :
    Host.Outcome State Fault Refusal :=
  if !scrubOk mem unit.val address outcome then .fault .illFormed
  else if !scrubbed mem || address != scrubAt s mem unit.val then .next s
  else
    let s := scrubNext s mem unit.val
    let w := memBase mem unit.val + address
    let old := sparseGet (fun _ => ReadOutcome.clean) s.maint.errs w
    match if old = .uncorrectable ∨ outcome = .clean then old else outcome with
    | .clean => .next s
    | .corrected k => .next (noteCorrected (dropErr s w) mem unit.val address k.val true)
    | .reread => .next (noteReread (dropErr s w) mem unit.val address)
    | .uncorrectable =>
      let s := addErr (dropErr s w) w .uncorrectable
      match mem with
      | .hbm => .next (scrubHbm s unit.val address)
      | .shelf => .next (noteShelfBad s unit.val address 5 0xFFFF)
      | _ => .next (scrubAcc s unit.val address)

end Sys2Proof.Machine
end

