-- ==== Sys2Proof/Machine/Valid.lean ====
section
/-! DEFINITION. Valid.lean: check 8 of R422: the range of every object that can be written, as its own table states it. -/

namespace Sys2Proof.Machine

/-- Integer ranges: base index, subindex, lowest, highest (log entry 42). -/
def intRanges0 : List (Nat × Nat × Nat × Nat) := [
  (0x3000, 2, 1, 15), (0x3000, 3, 60, 86400), (0x3400, 1, 0, 3), (0x5000, 3, 0, 4096),
  (0x5000, 5, 1, 6000), (0x5000, 6, 1, 6000), (0x5020, 1, 0, 4095), (0x5030, 1, 0, 65535),
  (0x4000, 1, 0, 3), (0x4100, 4, 3072, 3072000), (0x4100, 5, 32, 3071), (0x4100, 6, 8, 4096),
  (0x4300, 1, 0, 8191), (0x2000, 1, 0, 3), (0x2000, 2, 0, 1), (0x2000, 5, 1, 3072),
  (0x2000, 6, 1, 6000), (0x2010, 1, 1000, 100000), (0x2010, 4, 0, 30720), (0x2010, 6, 256, 30720),
  (0x2100, 1, 2, 64), (0x2100, 2, 0, 90), (0x2100, 3, 0, 262143), (0x6000, 2, 1, 60000),
  (0x6000, 5, 1, 16), (0x6000, 6, 1, 1000), (0x6030, 2, 1, 2), (0x7000, 1, 0, 3),
  (0x7020, 1, 2, 3600), (0x7020, 3, 2, 32), (0x7300, 2, 0, 3072), (0x7300, 3, 0, 31),
  (0x7300, 4, 0, 31), (0x7300, 5, 1, 50)]

def intRanges1 : List (Nat × Nat × Nat × Nat) := [
  (0x4400, 1, 1, 168), (0x4400, 2, 1, 3600), (0x4400, 3, 1, 1000), (0x4400, 4, 60, 2592000),
  (0x4400, 5, 1, 1000), (0x1100, 3, 0, 1), (0x1100, 4, 3072, 307200), (0x1100, 5, 1, 255),
  (0x1100, 7, 1, 100), (0x1100, 8, 1, 6000), (0x1100, 9, 0, 30720), (0x1100, 10, 1, 1000),
  (0x1200, 1, 0, 2), (0x1020, 1, 0, 16777215), (0x1000, 7, 1, 6000), (0xA000, 2, 1, 64),
  (0xA000, 7, 307, 30720), (0xB100, 7, 50, 99), (0xB110, 2, 1, 2), (0xB200, 8, 50, 1000),
  (0x8000, 2, 600, 1400), (0x8400, 1, 1, 100), (0x8400, 3, 0, 100), (0x8400, 4, 10, 90),
  (0x8400, 5, 1, 50), (0x8500, 2, 0, 599), (0x9000, 1, 0, 3), (0x9000, 3, 0, 1),
  (0x9000, 4, 0, 4095), (0x9030, 1, 0, 16383), (0x9040, 1, 0, 8191), (0x9040, 3, 1, 3),
  (0x9100, 2, 0, 3), (0x8600, 2, 30000, 33000)]

/-- F32 ranges, as binary32 patterns. -/
def floatRanges : List (Nat × Nat × Nat × Nat) := [
  (0x7000, 6, 0x41200000, 0x42700000), (0x7000, 7, 0x40400000, 0x41A00000), (0x7000, 8, 0x41100000, 0x41600000), (0x7010, 6, 0x3F000000, 0x40400000),
  (0x7020, 2, 0x42340000, 0x42B40000), (0x7020, 4, 0x3F000000, 0x40A00000), (0x8000, 6, 0x40000000, 0x40A00000), (0x8000, 7, 0x40800000, 0x41200000),
  (0x8000, 8, 0x40400000, 0x41200000), (0x8300, 1, 0xC2200000, 0x42FA0000), (0x8300, 2, 0xC2200000, 0x42FA0000), (0x8300, 3, 0xC2200000, 0x42FA0000),
  (0x8300, 4, 0x3F800000, 0x41200000), (0x8400, 2, 0x3F800000, 0x41C80000), (0x8500, 1, 0x40000000, 0x41A00000), (0x9100, 5, 0x3A83126F, 0x3F000000)]

def rangeFor (l : List (Nat × Nat × Nat × Nat)) (base sub : Nat) : Option (Nat × Nat) :=
  (l.find? fun r => r.1 == base && r.2.1 == sub).map fun r => r.2.2

/-! ### Words with fields -/

/-- The three shares in 64ths of 4000h.02 (R252). -/
def sharesOk (v : Nat) : Bool :=
  let r := bitsOf v 7 0
  let w := bitsOf v 15 8
  let m := bitsOf v 23 16
  r + w + m == 64 && 2 ≤ r && 2 ≤ w && 2 ≤ m && bitsOf v 31 24 == 0

/-- PEER_SHARES of A000h.08 (R473). -/
def peerSharesOk (v : Nat) : Bool :=
  let b := leBytes 4 v
  b.foldl (fun a x => a + x.toNat) 0 == 64 && b.all fun x => 2 ≤ x.toNat

/-- NEIGHBOUR (R474): ordinal and port; FFFFh, the default, names none. -/
def neighbourOk (v : Nat) : Bool := v == 0xFFFF || (v < 1024 && v % 256 < 64)

/-- RING_SELECT (R360). -/
def ringSelectOk (v : Nat) : Bool := bitsOf v 14 5 < 520 && v < 2 ^ 22

/-- HTR_SELECT (R562). -/
def heaterSelectOk (v : Nat) : Bool := v < 2 ^ 28 && bitsOf v 4 3 < 3 && bitsOf v 20 11 < 520

/-- ROUTE_TABLE (R475). -/
def routesOk (v : Bytes) : Bool :=
  v.length == 128 && (List.range 64).all fun o =>
    let e := fieldAt v (2 * o) 2
    bitsOf e 14 6 == 0 && (bitsOf e 15 15 == 0 || (1 ≤ bitsOf e 5 2 && bitsOf e 5 2 ≤ 8))

/-- SENSOR_TABLE: 24 entries; the group exists and the reserved bytes are 0. -/
def sensorTableOk (v : Bytes) : Bool :=
  v.length == 768 && (List.range 24).all fun i => fieldAt v (32 * i) 1 < 5 && fieldAt v (32 * i + 2) 2 == 0

/-- A sequence entry (R543). -/
def seqEntryOk (b : Bytes) : Bool :=
  let c := fieldAt b 0 4
  let ch := bitsOf c 7 0
  let span := bitsOf c 15 8
  let gain := bitsOf c 18 16
  let rep := bitsOf c 22 19
  let held := 24 ≤ ch && ch < 170
  ch ≤ 228 && 1 ≤ span && span ≤ 146 && gain ≤ 5 && 1 ≤ rep && fieldAt b 12 4 == 0
    && (if held then gain == 0 && rep == 1 && ch + span ≤ 170 else span == 1)
    && (!c.testBit 24 || span == 1)

/-- A sequence table (R542, R543): at most 64 entries, exactly one marked LAST. -/
def seqTableOk (v : Bytes) : Bool :=
  let es := pieces 16 (v.length / 16) v
  v.length % 16 == 0 && v.length ≤ 1024 && es.all seqEntryOk
    && (es.filter fun e => (fieldAt e 0 4).testBit 25).length == 1

/-- WAVE_TABLE (R554). -/
def waveTableOk (v : Bytes) : Bool := v.length == 256 && (List.range 32).all fun w => (waveDesc v w).ok

/-- A whole number of GiB, at most 144,000,000,000 bytes (5000h.04, 6000h.03). -/
def gibOk (v : Nat) : Bool := v % 1073741824 == 0 && v ≤ 144000000000

/-- A numeric value lies in the range that its object's table gives (check 8 of R422). -/
def numOk (base sub v : Nat) (ty : Ty) : Bool :=
  match rangeFor intRanges0 base sub, rangeFor intRanges1 base sub, rangeFor floatRanges base sub with
  | some r, _, _ => r.1 ≤ v && v ≤ r.2
  | _, some r, _ => r.1 ≤ v && v ≤ r.2
  | _, _, some r => fle r.1 v && fle v r.2
  | none, none, none =>
    if ty = .b then v ≤ 1
    else match base, sub with
      | 0x4000, 2 => sharesOk v
      | 0x5000, 4 => gibOk v
      | 0x6000, 3 => gibOk v
      | 0x7400, 1 => ringSelectOk v
      | 0x9130, 1 => heaterSelectOk v
      | 0x1200, 2 => 3072 ≤ v && v ≤ 314572800 && 314572800 % v == 0
      | 0xA000, 1 => v ≤ 63 || v == 255
      | 0xA000, 3 => v ≤ 63 || v == 255
      | 0xA000, 8 => peerSharesOk v
      | 0xA010, 5 => neighbourOk v
      | 0xC000, 3 => v ≤ 2 || v == 255
      | 0xC020, 1 => v ≤ 2 || v == 255
      | _, _ => true

/-- A BLOB has the layout that its object's table gives. -/
def blobOk (base sub : Nat) (v : Bytes) : Bool :=
  match base, sub with
  | 0x7300, 6 => v.length == 2048
  | 0xA020, 1 => routesOk v
  | 0x8010, 1 => railTableOk v
  | 0x8500, 3 => sensorTableOk v
  | 0x9000, 10 => seqTableOk v
  | 0x9120, 1 => v.length == 32768
  | 0x9120, 2 => waveTableOk v
  | 0x1200, 4 => v.length % 4 == 0 && v.length ≤ 256
  | 0xC020, 2 => v.length ≤ 16777216
  | 0xC030, 1 => v.length == 32
  | _, _ => true

/-- A value of an object, whatever the state (R422, R442). -/
def valueOk (d : ObjDef) (v : Val) : Bool :=
  match v with
  | .num n => numOk d.base d.sub n d.ty
  | .bytes b => blobOk d.base d.sub b

/-! ### What a write must obey in its state -/

/-- The refusals of R368 that two sizes meet: together more than the stacks hold, or a general region whose top lies below the
highest byte that a copy or a BUILD occupies on any stack. -/
def layoutOk (s : State) (lib kv : Nat) : Bool := lib + kv ≤ 216000000000 && highestUsed s ≤ generalTop lib kv

/-- An entry of a cyclic map names a numeric object that the map's direction can carry (R405). -/
def mapEntryOk (dir : Nat) (e : Nat) : Bool :=
  let index := bitsOf e 23 8
  let sub := bitsOf e 7 0
  e < 2 ^ 24 && (if sub = 0 then (subMax index).isSome && dir != 2 else
    match findDef index sub with
    | none => false
    | some d => d.ty != .text && d.ty != .blob
        && (match dir with
          | 1 => d.acc != .wo
          | 2 => d.acc == .rw
          | _ => true))

def mapEntriesOk (dir : Nat) (v : Bytes) : Bool := (pieces 4 (v.length / 4) v).all fun b => mapEntryOk dir (leNat b)

/-- Order of the levels of a group; a dash of R523 orders nothing (R533). -/
def levelsOk (w t c : Nat) : Bool := (isNan t || (fle w t && flt t c)) && (!isNan t || flt w c)

/-- A waveform that is pending or playing keeps its descriptor and its samples (R555). -/
def wavesOk (s : State) (mem table : Bytes) : Bool :=
  (s.analog.plays.map fun p => p.wave).dedup.all fun w =>
    let old := waveOf s w
    waveDesc table w == old
      && (mem.drop (2 * old.start)).take (2 * old.length) == ((s.blob 0x9120_01).drop (2 * old.start)).take (2 * old.length)

/-- The refusals of check 8 that depend on the state. -/
def stateOk (s : State) (index sub : Nat) (v : Val) : Bool :=
  let n := v.asNum
  let b := v.asBytes
  if 0x1200 ≤ index ∧ index < 0x1210 then
    let m := index - 0x1200
    if sub = 2 then s.num (fam 0x1200_03 m) < n
    else if sub = 3 then n < s.num (fam 0x1200_02 m)
    else if sub = 4 then mapEntriesOk (s.num (fam 0x1200_01 m)) b
    else true
  else if 0x8300 ≤ index ∧ index < 0x8305 then
    let g := index - 0x8300
    let lv := fun k => if sub = k then n else s.num (fam (0x8300_00 + k) g)
    if sub = 4 then true
    else !(isNan (s.num (fam (0x8300_00 + sub) g))) && levelsOk (lv 1) (lv 2) (lv 3)
  else match index, sub with
    | 0x5000, 3 => (List.range 8).all fun p =>
        let u := usablePlaces s p
        let cache := u.drop (u.length - min n u.length)
        (pinnedPlaces s p).all fun q => !cache.contains q
    | 0x5000, 4 => (n == s.num 0x5000_04 || s.library.isEmpty) && layoutOk s n (s.num 0x6000_03)
    | 0x6000, 3 => (n == s.num 0x6000_03 || kvUsed s == 0) && layoutOk s (s.num 0x5000_04) n
    | 0x7010, 1 => sourceMapOk s n
    | 0x8000, 7 => flt (fadd (s.num 0x8000_06) 0x3F800000).1 n
    | 0x8010, 1 => railTableFree s b
    | 0x9120, 1 => wavesOk s b (s.blob 0x9120_02)
    | 0x9120, 2 => wavesOk s (s.blob 0x9120_01) b
    | 0xC020, 1 => n == 255 || n == 2 || (n != s.num 0xC000_01 && n != s.num 0xC000_02)
    | _, _ => true

end Sys2Proof.Machine
end

