-- ==== Sys2Proof/Machine/Analogue.lean ====
section
/-! DEFINITION. Analogue.lean: the monitoring converters (R538-R549, R557): sequence tables, results, window comparators,
diagnosis, system calibration, urgent requests and read-back, with the meaning of CONVERSION_COMPLETE. -/

namespace Sys2Proof.Machine

/-! ### Sequence tables (R542, R543) -/

/-- One entry of a sequence table. -/
structure SeqEntry where
  channel : Nat
  span : Nat
  gain : Nat
  rep : Nat
  window : Bool
  last : Bool
  low : Int
  high : Int
  deriving DecidableEq, Repr

def seqEntryOf (b : Bytes) : SeqEntry :=
  let c := fieldAt b 0 4
  { channel := bitsOf c 7 0, span := bitsOf c 15 8, gain := bitsOf c 18 16, rep := bitsOf c 22 19,
    window := c.testBit 24, last := c.testBit 25, low := signedOf 32 (fieldAt b 4 4), high := signedOf 32 (fieldAt b 8 4) }

/-- The entries of a table down to the one marked LAST. -/
def seqEntries (table : Bytes) : List SeqEntry :=
  let es := (pieces 16 (table.length / 16) table).map seqEntryOf
  es.take ((es.findIdx fun e => e.last) + 1)

/-- A channel with a held integral (R538). -/
def isHeld (ch : Nat) : Bool := 24 ≤ ch && ch < 170

/-- Conversions that an entry asks for: its SPAN of held channels, or REPEAT of one direct channel. -/
def SeqEntry.count (e : SeqEntry) : Nat := if isHeld e.channel then e.span else e.rep

def SeqEntry.chan (e : SeqEntry) (step : Nat) : Nat := if isHeld e.channel then e.channel + step else e.channel

/-- The table that a converter takes at the start of a loop; converter 3 puts the held scan of a failed converter 0 before its
own (R548). -/
def loopTable (s : State) (c : Fin 4) : Bytes :=
  let own := s.blob (fam 0x9000_0A c.val)
  if c = 3 ∧ s.analog.convs[0].failed then leBytes 4 (24 + 146 * 2 ^ 8 + 2 ^ 19 + 2 ^ 23) ++ leBytes 12 0 ++ own else own

/-- The table in force in this loop; the factory table in the loop that begins at the release of RESET_N. -/
def tableOf (s : State) (c : Fin 4) : List SeqEntry :=
  let t := s.analog.convs[c].table
  seqEntries (if t = [] then factorySeq c.val else t)

/-- An entry that names a pin sensor which SENSOR_TABLE does not describe is skipped. -/
def seqSkipped (s : State) (e : SeqEntry) : Bool := e.channel < 24 && pinEntry s e.channel == []

/-- The table's next loop begins (R541, R542, R545). -/
def newLoop (s : State) (c : Fin 4) : State :=
  let t := loopTable s c
  modConv (s.inc (fam 0x9000_06 c.val)) c fun (v : Conv) =>
    { v with table := t, period := s.num (fam 0x9000_01 c.val), lowPower := s.flag (fam 0x9000_02 c.val), entry := 0,
             step := 0, testing := false, outside := if v.table = t then v.outside else [] }

/-- After the last entry: the test conversion of diagnosis mode 1, or the next loop (R548). -/
def endEntry (s : State) (c : Fin 4) : State :=
  let v := s.analog.convs[c]
  if v.entry + 1 < (tableOf s c).length then modConv s c fun (v : Conv) => { v with entry := v.entry + 1, step := 0 }
  else if s.num (fam 0x9000_03 c.val) = 1 then modConv s c fun (v : Conv) => { v with testing := true }
  else newLoop s c

/-- Over entries that are skipped; a loop of nothing but skipped entries converts nothing. -/
def passSkipped (c : Fin 4) : Nat → State → State
  | 0, s => s
  | n + 1, s =>
    if s.analog.convs[c].testing || (tableOf s c).all (seqSkipped s) then s else
    match (tableOf s c)[s.analog.convs[c].entry]? with
    | some e => if seqSkipped s e then passSkipped c n (endEntry s c) else s
    | none => s

/-- A conversion: channel, gain code, whether it is of period 3, the sequence entry it belongs to, and whether it is the
test of R548. -/
structure Conversion where
  channel : Nat
  gain : Nat
  short : Bool
  entry : Option Nat
  test : Bool
  deriving DecidableEq, Repr

/-- What a converter converts at present. -/
def converting (s : State) (c : Fin 4) : Option Conversion :=
  let v := s.analog.convs[c]
  match v.urgent with
  | u :: _ => some { channel := u.channel, gain := u.gain, short := u.short, entry := none, test := false }
  | [] =>
    if v.testing then some { channel := 226, gain := 0, short := true, entry := none, test := true } else
    match (tableOf s c)[v.entry]? with
    | some e => if seqSkipped s e then none
        else some { channel := e.chan v.step, gain := e.gain, short := false, entry := some v.entry, test := false }
    | none => none

/-- Ticks of an integration or of a held conversion (R540, R541). -/
def convTicks (v : Conv) (k : Conversion) : Nat :=
  (if isHeld k.channel then 512
    else if k.short then 30720
    else match v.period with
      | 0 => 307200
      | 1 => 614400
      | 2 => 512000
      | _ => 30720) * (if v.lowPower then 4 else 1)

/-! ### System calibration (R549) -/

/-- The place of a channel in CAL_TABLE. -/
def calIndex (ch : Nat) : Option Nat :=
  if ch < 24 then some ch else if 170 ≤ ch ∧ ch < 202 then some (ch - 146) else none

/-- The coefficients of a channel: the offset in µV and GAIN; none while it has no system calibration. -/
def calOf (s : State) (ch : Nat) : Option (Int × Nat) :=
  match calIndex ch with
  | none => none
  | some i =>
    let b := s.blob 0x9040_05
    let g := fieldAt b (8 * i + 4) 4
    if g = 0 then none else some (signedOf 32 (fieldAt b (8 * i) 4), g)

/-- RNE((raw - offset at G) × GAIN): the offset in codes is offset µV × G × 4.096. -/
def applyCal (gain : Nat) (raw : Int) (cal : Int × Nat) : Int :=
  match fl32 cal.2 with
  | .fin neg m e =>
    let r := flRat neg m e
    rneDiv ((raw * 1000 - cal.1 * 2 ^ gain * 4096) * r.1) (1000 * r.2)
  | _ => raw

/-- The code of a result, and whether it is UNCAL (R544, R549). -/
def calCode (s : State) (ch gain : Nat) (raw : Int) : Int × Bool :=
  match calIndex ch with
  | none => (raw, false)
  | some _ => match calOf s ch with
    | some c => (applyCal gain raw c, false)
    | none => (Config.factoryCode ch gain raw, true)

/-- CAL_TABLE with the coefficients of one channel. -/
def putCal (s : State) (ch offset gain : Nat) : State :=
  let b := s.blob 0x9040_05
  let b := if b = [] then List.replicate 448 0#8 else b
  let i := 8 * (calIndex ch).getD 0
  (s.setBlob 0x9040_05 (b.take i ++ leBytes 4 offset ++ leBytes 4 gain ++ b.drop (i + 8))).save 0x9040_05

def calChannel (s : State) : Nat := bitsOf (s.num 0x9040_01) 7 0
def calGain (s : State) : Nat := bitsOf (s.num 0x9040_01) 12 10

/-- The refusals that every CAL_CMD shares: its CAL_RESULT. -/
def calRefused (s : State) : Option Nat :=
  if s.node ≠ .configuring ∧ s.node ≠ .quiesced then some 2
  else if calIndex (calChannel s) = none ∨ 5 < calGain s then some 3 else none

/-- CAL_CMD 1: the sum of 16 conversions at zero volts is stored. -/
def calZero (s : State) (codes : Vector Int 16) : Nat × State :=
  match calRefused s with
  | some r => (r, s)
  | none => (0, modAnalog s fun a => { a with zeroed := some (s.num 0x9040_01, codes.toList.foldl (· + ·) 0) })

/-- CAL_CMD 2: GAIN = expected(V) / (mean - offset), refused outside 0.95 to 1.05. -/
def calFullScale (s : State) (codes : Vector Int 16) : Nat × State :=
  match calRefused s, s.analog.zeroed with
  | some r, _ => (r, s)
  | none, none => (6, s)
  | none, some z =>
    if z.1 ≠ s.num 0x9040_01 then (6, s) else
    match fl32 (s.num 0x9040_02) with
    | .fin neg m e =>
      let v := flRat neg m e
      let g : Nat := 2 ^ calGain s
      -- V × G lies in 1.024 to 2.048
      if v.1 * g * 1000 < 1024 * v.2 ∨ 2048 * v.2 < v.1 * g * 1000 then (4, s) else
      let d := codes.toList.foldl (· + ·) 0 - z.2
      -- expected(V) = V × G × 4,096,000; GAIN = 16 × expected(V) / d
      let num := 16 * 4096000 * (v.1 * g)
      let den := v.2 * d
      if d ≤ 0 ∨ 100 * num < 95 * den ∨ 105 * den < 100 * num then (5, s) else
      let offset := rneDiv (z.2 * 1000) (16 * 4096 * g)
      (0, putCal s (calChannel s) (unsignedOf 32 offset) (round32 false num.toNat den.toNat 0).1)
    | _ => (4, s)

/-- CAL_CMD 3: the channel's coefficients are cleared. -/
def calClear (s : State) : Nat × State :=
  match calRefused s with
  | some r => (r, s)
  | none => (0, putCal s (calChannel s) 0 0)

/-- A calibration command with its CAL_RESULT. -/
def calDone (r : Nat × State) : Nat × State := (r.1, r.2.setNum 0x9040_04 r.1)

/-! ### Urgent requests of the control node (R546, R560) -/

/-- The request that a word of 9030h.01 names; none for a reserved channel, gain or bit. -/
def urgentOf (v : Nat) : Option UrgentReq :=
  let ch := bitsOf v 9 2
  let g := bitsOf v 12 10
  if 228 < ch ∨ 5 < g ∨ (isHeld ch ∧ g ≠ 0) ∨ 2 ^ 14 ≤ v then none
  else some { channel := ch, gain := g, short := v.testBit 13, own := false }

/-- An urgent request: whether it is accepted. URGENT_RESULT shows pending, or refused. -/
def urgentRequest (s : State) (v : Nat) : Bool × State :=
  match urgentOf v with
  | none => (false, s.setNum 0x9030_02 (3 * 2 ^ 40))
  | some r =>
    match pushUrgent s ⟨bitsOf v 1 0, Nat.mod_lt _ (by decide)⟩ r with
    | some s => (true, s.setNum 0x9030_02 (1 * 2 ^ 40))
    | none => (false, s.setNum 0x9030_02 (3 * 2 ^ 40))

/-! ### Read-back (R557) -/

/-- A code at a gain as volts at the converter's input, as a rational. -/
def codeVolts (code : Int) (gain : Nat) : Int × Nat := (code * 2048, 1000 * 8388608 * 2 ^ gain)

/-- A rational as FP32. -/
def ratF32 (r : Int × Nat) : Nat := (round32 (decide (r.1 < 0)) r.1.natAbs r.2 0).1

/-- |a - b| exceeds a finite FP32 tolerance. -/
def beyond (a b : Int × Nat) (tol : Nat) : Bool :=
  match fl32 tol with
  | .fin neg m e =>
    let t := flRat neg m e
    let d := (a.1 * b.2 - b.1 * a.2).natAbs
    decide (t.1 * (a.2 * b.2 : Nat) < (d : Int) * t.2)
  | _ => false

/-- The read-back of external output k: 8 times the input voltage. -/
def readExternal (s : State) (k : Fin 16) (gain ticks : Nat) (code : Int) : State :=
  let v := codeVolts code gain
  let read := (8 * v.1, v.2)
  let s := s.setNum (fam 0x9100_04 k.val) (ratF32 read)
  let o := outOf s k.val
  let e := s.analog.exts[k]
  if s.up - o.changedAt < ticks ∨ o.hold.isSome ∨ e.step ≠ 0 then s else
  let want := (5 * extVolts e.span o.code, 65536)
  if !beyond read want (s.num (fam 0x9100_05 k.val)) then modExt s k fun (e : ExtOut) => { e with misreads := 0 }
  else if e.misreads = 0 then modExt s k fun (e : ExtOut) => { e with misreads := 1 }
  else
    let s := modExt s k fun (e : ExtOut) => { e with misreads := 0 }
    (s.inc (fam 0x9100_06 k.val)).raise 0x9020 0xFF (leBytes 1 k.val ++ leBytes 4 (ratF32 want) ++ leBytes 4 (ratF32 read))

/-- The heater that EIC n's multiplexer connects: that of HTR_SELECT, or the automatic step. -/
def heaterOf (s : State) (n : PairId) : Nat :=
  let v := s.num 0x9130_01
  let f := 4 * n.val + bitsOf v 6 5
  if bitsOf v 2 0 = n.val ∧ bitsOf v 4 3 = 1 then heaterKey f (bitsOf v 10 7)
  else if bitsOf v 2 0 = n.val ∧ bitsOf v 4 3 = 2 then ringKey f (bitsOf v 20 11) (bitsOf v 27 21)
  else heaterKey (4 * n.val + s.analog.autoHeater[n] / 16 % 4) (s.analog.autoHeater[n] % 16)

/-- The read-back of a heater of EIC n. Whether a loop moved the heater inside the integration is free (log entry 4). -/
def readHeater (s : State) (n : PairId) (gain ticks : Nat) (code : Int) : State :=
  let key := heaterOf s n
  let b := s.blob 0x9130_02
  let i := 4 * n.val
  let s := s.setBlob 0x9130_02 (b.take i ++ leBytes 4 (ratF32 (codeVolts code gain)) ++ b.drop (i + 4))
  let v := s.num 0x9130_01
  let chosen := bitsOf v 2 0 == n.val && bitsOf v 4 3 != 0
  let s := if chosen then s else modAnalog s fun a => { a with autoHeater := a.autoHeater.set n ((a.autoHeater[n] + 1) % 64) }
  let (still, s) := s.drawBool
  let o := outOf s key
  if !still ∨ s.up - o.changedAt < ticks ∨ o.hold.isSome then s else
  let was := sparseGet (fun _ => 0) s.analog.heaterMisreads key
  let note := fun (s : State) (k : Nat) =>
    modAnalog s fun a => { a with heaterMisreads := sparsePut (fun _ => 0) a.heaterMisreads key k }
  let off := decide (8388608 < 100 * (code - Config.heaterTransfer key o.code).natAbs)
  if !off then note s 0
  else if was = 0 then note s 1
  else ((note s 0).inc 0x9130_03).raise 0x9021 0xFF (leBytes 1 n.val ++ leBytes 4 (s.num 0x9130_01))

/-! ### Results (R544, R545, R548) -/

def chanResult (s : State) (ch : Nat) : Option ChanResult := (s.analog.results.find? fun e => e.1 == ch).map Prod.snd

def putResult (s : State) (ch : Nat) (r : ChanResult) : State :=
  modAnalog s fun a => { a with results := sparsePut (fun _ => { code := 0, flags := 0, conv := 0, age := 0 }) a.results ch r }

/-- The window comparator of a sequence entry. -/
def judgeWindow (s : State) (c : Fin 4) (i ch : Nat) (e : SeqEntry) (code : Int) : State :=
  let out := decide (code < e.low) || decide (e.high < code)
  let was := s.analog.convs[c].outside.contains i
  let s := modConv s c fun (v : Conv) =>
    { v with outside := if out then (if was then v.outside else v.outside ++ [i]) else v.outside.filter (· != i) }
  if out && !was then
    s.raise 0x9010 0xFF (leBytes 1 c.val ++ leBytes 1 i ++ leBytes 1 ch ++ leBytes 4 (unsignedOf 32 code))
  else s

/-- The test conversion of diagnosis mode 1: two failures in succession make the converter FAILED. -/
def judgeTest (s : State) (c : Fin 4) (code : Int) : State :=
  let want : Int := ((s.num (fam 0x9000_04 c.val) : Int) - 2048) * 4096
  if (code - want).natAbs ≤ 8389 then modConv s c fun (v : Conv) => { v with testFails := 0, failed := false } else
  let s := s.inc (fam 0x9000_07 c.val)
  let v := s.analog.convs[c]
  let s := modConv s c fun (v : Conv) => { v with testFails := v.testFails + 1, failed := v.failed || decide (1 ≤ v.testFails) }
  if v.testFails = 0 ∨ v.failed then s else s.raise 0x9011 0xFF (leBytes 1 c.val ++ leBytes 4 (unsignedOf 32 code))

/-- What a channel's code is the reading of: a sensor, a rail, an output. -/
def useResult (s : State) (c : Fin 4) (k : Conversion) (code : Int) : State :=
  let ch := k.channel
  let ticks := convTicks s.analog.convs[c] k
  if ch < 24 then
    if pinEntry s ch = [] then s
    else noteTemp s ch (Config.celsius ch code ((pinEntry s ch).drop 4 |>.take 12)).toNat
  else if ch < 88 then noteTemp s ch (Config.celsius ch code []).toNat
  else if ch < 129 then s.setNum (fam 0x8100_02 (ch - 88)) (Config.reading ch code).toNat
  else if ch < 170 then s.setNum (fam 0x8100_03 (ch - 129)) (Config.reading ch code).toNat
  else if ch < 202 then s
  else if h : ch - 202 < 16 then readExternal s ⟨ch - 202, h⟩ k.gain ticks code
  else if h : ch - 218 < 8 then readHeater s ⟨ch - 218, h⟩ k.gain ticks code
  else s

/-- A converter works: not stopped, not in Safe, not held with SYS. -/
def convRuns (s : State) (c : Fin 4) : Bool := !s.analog.convs[c].stopped && s.node != .safe && !s.sysHeld

/-- The conversion's result with its flags; then the window, the test, and what the result is used for. -/
def storeResult (s : State) (c : Fin 4) (k : Conversion) (raw : Int) (overload : Bool) : State :=
  let sat := overload && s.num (fam 0x9000_03 c.val) == 0
  let (code, uncal) := if sat then ((if raw < 0 then -8388607 else 8388607 : Int), (calCode s k.channel k.gain raw).2)
    else calCode s k.channel k.gain raw
  let old := (chanResult s k.channel).map ChanResult.flags |>.getD 0
  let e := k.entry.bind fun i => (tableOf s c)[i]?
  let s := match k.entry, e with
    | some i, some e => if e.window then judgeWindow s c i k.channel e code else s
    | _, _ => s
  let outside := match k.entry, e with
    | some _, some e => if e.window then decide (code < e.low) || decide (e.high < code) else old.testBit 3
    | _, _ => old.testBit 3
  let s := if k.test then judgeTest s c code else s
  let flags := sat.toNat + 2 * s.analog.convs[c].failed.toNat + 8 * outside.toNat + 16 * uncal.toNat
  let s := putResult s k.channel { code := code, flags := flags, conv := c.val, age := 0 }
  let s := match s.analog.convs[c].urgent with
    | u :: us =>
      let s := modConv s c fun (v : Conv) => { v with urgent := us, urgentRunning := !us.isEmpty }
      if u.own then s else s.setNum 0x9030_02 (unsignedOf 32 code + flags * 2 ^ 32 + 2 * 2 ^ 40)
    | [] => s
  useResult s c k code

/-- CONVERSION_COMPLETE (R544): the conversion in progress of converter c ends with a raw code; `overload` tells an input
beyond full scale (R548). A conversion that a dip of SYS_AUX overlaps is discarded. -/
def execConversionComplete (c : Fin 4) (channel : Byte) (code : Int) (overload : Bool) (s : State) :
    Host.Outcome State Fault Refusal :=
  let s' := passSkipped c 130 s
  match converting s' c with
  | none => .next s
  | some k =>
    if !convRuns s c ∨ k.channel ≠ channel.toNat ∨ s.power.dips.any (fun d => d.1 == 1) ∨ code < -8388608 ∨ 8388607 < code then
      .next s
    else
      let t := storeResult s' c k code overload
      if k.test then .next (newLoop t c)
      else match k.entry with
        | none => .next t
        | some i => match (tableOf s' c)[i]? with
          | none => .next t
          | some e =>
            if s'.analog.convs[c].step + 1 < e.count then
              .next (modConv t c fun (v : Conv) => { v with step := v.step + 1 })
            else .next (endEntry t c)

/-! ### Frame starts (R539, R543, R544) -/

/-- The converter that performs the held scan. -/
def heldScanner (s : State) : Option (Fin 4) :=
  let a := s.analog.convs
  if !a[0].failed && convRuns s 0 then some 0
  else if a[0].failed && !a[3].failed && convRuns s 3 then some 3 else none

/-- The capacitors of the held channels change roles: a channel not converted since the last frame start keeps its result,
flagged STALE, and no longer counts as a valid reading; every result grows a frame older. -/
def heldRoles (s : State) : State :=
  let late := (List.range 146).filter fun i => match chanResult s (24 + i) with
    | some r => 1 ≤ r.age
    | none => true
  let s := match heldScanner s with
    | some c => s.add (fam 0x9000_09 c.val) late.length
    | none => s
  let s := late.foldl (fun s i =>
    let r := (chanResult s (24 + i)).getD { code := 0, flags := 0, conv := 0, age := 0 }
    let s := putResult s (24 + i) { r with flags := r.flags ||| 4 }
    if i < 64 then modPower s fun p => { p with temps := sparsePut (fun _ => 0x7FC00000) p.temps (24 + i) 0x7FC00000 } else s) s
  modAnalog s fun a => { a with results := a.results.map fun e => (e.1, { e.2 with age := min 65535 (e.2.age + 1) }) }

end Sys2Proof.Machine
end

