-- ==== Sys2Proof/Machine/Records.lean ====
section
/-! DEFINITION. Records.lean: journal records in their entries and back (R483, R484, R491, R494): committing a request,
rebuilding the requests and sessions of a part, settling. -/

namespace Sys2Proof.Machine

/-! ### A request in its entries (R294, R483, R484) -/

/-- Bytes of an INPUT of `n` elements; 0 for a kind that is reserved. A tile has 128 elements a vector. -/
def inputBytes (kind fmt n : Nat) : Nat :=
  match kind with
  | 0 => 4 * n
  | 1 => tileBytes fmt (n / 128)
  | 2 => 4 * n
  | _ => 0

/-- The payload of an OPEN entry. -/
def openPayload (r : Request) (seed copy : Nat) : Bytes :=
  leBytes 8 r.id ++ leBytes 8 r.tag ++ leBytes 8 seed ++ leBytes 4 r.startPos ++ leBytes 4 r.model ++ leBytes 4 copy
    ++ leBytes 2 r.context ++ leBytes 2 (r.session.getD 0xFFFF) ++ leBytes 1 r.stage ++ leBytes 1 r.service
    ++ leBytes 1 (match r.cls with
      | .slot => 0
      | .stream => 1
      | .fill => 2) ++ leBytes 1 0 ++ leBytes 8 (stamp64 r.commitStamp)

/-- FLAGS of an OPEN entry: re-prefill at start, unmirrored, not replayable, adopted. -/
def openFlags (r : Request) (cold : Bool) : Nat :=
  (if cold || r.prefilled.isSome then 1 else 0) + (if r.mirrored then 0 else 2) + (if r.notReplayable then 4 else 0)
    + (if r.adopted then 8 else 0)

def inputEntries (r : Request) : List JEntry :=
  let b := r.header ++ r.input
  (pieces52 (ceilDiv b.length 52) b).zipIdx.map fun p => mkEntry 2 0 p.2 r.jsn p.1
where
  pieces52 : Nat → Bytes → List Bytes
    | 0, _ => []
    | n + 1, b => b.take 52 :: pieces52 n (b.drop 52)

/-- The entries of a commit, OPEN last (R484); `cold`: its session's history has to be re-prefilled at its start. -/
def commitEntries (r : Request) (seed copy : Nat) (cold : Bool) : List JEntry :=
  let ins := inputEntries r
  ins ++ [mkEntry 1 (openFlags r cold) ins.length r.jsn (openPayload r seed copy)]

/-! ### A record read back -/

/-- Token IDs of TOKENS or HISTORY entries, by their first index. -/
def tokenList (es : List JEntry) (kind : Nat) : List Nat :=
  ((es.filter fun e => e.kind == kind).mergeSort (fun a b => a.u32 8 ≤ b.u32 8)).foldl (fun a e =>
    a.take (e.u32 8) ++ (List.range e.count).map fun i => e.u32 (12 + 4 * i)) []

/-- The request of an OPEN entry and its record. -/
def requestOf (es : List JEntry) (o : JEntry) : Request :=
  let b := (((es.filter fun e => e.kind == 2).mergeSort (fun a b => a.count ≤ b.count)).map fun e => e.payload).flatten
  let hdr := b.take 128
  let tokens := tokenList es 3
  let ctx := fieldAt o.payload 36 2
  let tag := fieldAt o.payload 8 8
  let acked := (es.filter fun e => e.kind == 6).foldl (fun (a : Option Nat) e =>
    if e.u32 8 = 0xFFFFFFFF then a else some (max (e.u32 8) (a.getD 0))) none
  { jsn := o.jsn, id := fieldAt o.payload 0 8, tag := tag, header := hdr,
    input := (b.drop 128).take (inputBytes (fieldAt hdr 94 1) (fieldAt hdr 95 1) (fieldAt hdr 96 4)),
    context := ctx, model := fieldAt o.payload 28 4, stage := fieldAt o.payload 40 1,
    session := if tag = 0 then none else some (fieldAt o.payload 38 2),
    phase := .held, tokens := tokens, replayed := none, wasReplayed := true, acked := acked,
    startPos := fieldAt o.payload 24 4,
    copies := ((copyList es 4).foldl (fun (a : List (Nat × Nat)) c => (a.filter fun x => x.1 < c.1) ++ [c])
      [(0, fieldAt o.payload 32 4)]),
    prefilled := (es.find? fun e => e.kind == 5).map fun e => (e.u32 8, e.u32 12, e.u32 16),
    notReplayable := bitOf o.flags 2, adopted := bitOf o.flags 3, mirrored := !bitOf o.flags 1,
    commitStamp := (stampTicks (fieldAt o.payload 44 8)).getD 0, targetBase := 0, rebased := false, pages := 0,
    cancel := false, sentAcked := false, ackOwed := none, damagedAt := none, rebuilt := true }

/-- The seed of a record (R313). -/
def openSeed (o : JEntry) : Nat := fieldAt o.payload 16 8

/-- OPEN entries of the records that have no DONE entry, in journal order. -/
def openRecords (p : JPart) : List JEntry :=
  let es := (p.entries.map Prod.snd).filter fun e => !e.torn
  ((es.filter fun e => e.kind == 1 && !(es.any fun d => d.kind == 7 && d.jsn == e.jsn)).mergeSort fun a b => a.jsn ≤ b.jsn)

/-- The session of a SESSION entry and its record (R304: it holds no pages, so it has no copies of them, R310). -/
def sessionOf (p : JPart) (h : JEntry) (up : Nat) : Session :=
  let es := entriesOf p h.jsn
  { num := fieldAt h.payload 22 2, tag := fieldAt h.payload 0 8, context := fieldAt h.payload 20 2,
    seed := fieldAt h.payload 8 8, state := .evicted, history := tokenList es 8, lineage := [], pages := 0,
    onStacks := [], lastAt := up, closing := false, record := some h.jsn }

def sessionHeads (p : JPart) : List JEntry := (p.entries.map Prod.snd).filter fun e => !e.torn && e.kind == 13

/-- A session for a request of a tag: the one of that tag, else one with the number, tag and seed of the record. -/
def joinRebuilt (ss : List Session) (r : Request) (seed up : Nat) : List Session :=
  if r.tag = 0 then ss
  else if ss.any fun x => x.tag == r.tag then
    ss.map fun x => if x.tag == r.tag then { x with state := .active, closing := x.closing || r.notReplayable } else x
  else ss ++ [{ num := r.session.getD 0, tag := r.tag, context := r.context, seed := seed, state := .active, history := [],
                lineage := [], pages := 0, onStacks := [], lastAt := up, closing := r.notReplayable, record := none }]

/-! ### The scan (R494) -/

/-- The MARK entry written last before the head. -/
def lastMark (p : JPart) : Option JEntry :=
  ((p.entries.filter fun e => e.2.kind == 11 && !e.2.torn).foldl (fun (a : Option (Nat × JEntry)) e => match a with
    | none => some e
    | some y => if (p.head + jPositions - 1 - e.1) % jPositions < (p.head + jPositions - 1 - y.1) % jPositions then some e
        else some y) none).map Prod.snd

/-- The IDs of the DONE_IDS entries with their results, oldest first. -/
def doneIds (p : JPart) (window : Nat) : List (Nat × Nat) :=
  let es := ((p.entries.map Prod.snd).filter fun e => !e.torn && e.kind == 12).mergeSort fun a b => a.jsn ≤ b.jsn
  let ids := (es.map fun e => (List.range e.count).map fun i =>
    (fieldAt e.payload (12 * i) 8, fieldAt e.payload (12 * i + 8) 1)).flatten
  ids.drop (ids.length - window)

/-- The records that the scan settles or SETTLE leaves with the device: replayed from now on; a record lost to overflow
ends with RESULT 18 (R487, R489). -/
def replayRecord (s : State) (jsn : Nat) : State :=
  match findRequest s jsn with
  | none => s
  | some r =>
    if r.notReplayable then endRequest s jsn 18 0 0 0
    else awaitAdmission s jsn fun r =>
      { r with wasReplayed := true, rebased := false, replayed := if r.tokens.isEmpty then none else some 0 }

/-- SETTLE of the unsettled records: those disowned end as owned elsewhere, the rest are the device's and marked settled
(R483, R495). -/
def settleRecords (s : State) (disowned : List Nat) : State :=
  let us := s.journal.unsettled
  let gone := us.filter fun j => disowned.contains j
  let mine := us.filter fun j => !disowned.contains j
  let s := modJournal s fun j => { j with unsettled := [], settled := true }
  let s := gone.foldl (fun s j => endRequest s j 20 0 0 0) s
  let s := mine.foldl replayRecord (flagOpen s mine 4)
  pruneNeeded (s.raise 0xB041 0xFF (leBytes 4 mine.length ++ leBytes 4 gone.length))

/-- The scan of the own part at a start (R494, R495): torn entries and records without an OPEN entry go, the done window,
requests and sessions are rebuilt, a MARK is written. `alone`: BUDDY is FFh, so the device settles at once. -/
def scanJournal (s : State) (alone : Bool) : State :=
  let torn := (s.journal.own.entries.filter fun e => e.2.torn).length
  let s := modJournal s fun j => { j with own := { j.own with entries := j.own.entries.filter fun e => !e.2.torn } }
  let s := s.setNum 0xB100_0A torn
  let s := if torn = 0 then s else s.raise 0xB023 0xFF (leBytes 4 torn)
  let orderly := match lastMark s.journal.own with
    | some e => e.count == 1
    | none => false
  let s := s.setNum 0xB100_0B (if orderly then 1 else 0)
  let p := s.journal.own
  let heads := sessionHeads p
  let opens := openRecords p
  let keep := (heads ++ opens).map fun e => e.jsn
  let s := jFree s fun e => e.kind != 12 && !keep.contains e.jsn
  let s := (jAppend s (mkEntry 11 0 2 0 (leBytes 8 s.stamp))).getD s
  let rs := opens.map fun o => requestOf (entriesOf p o.jsn) o
  let ss := (opens.zip rs).foldl (fun ss r => joinRebuilt ss r.2 (openSeed r.1) s.up) (heads.map fun h => sessionOf p h s.up)
  let num := fun (r : Request) => (ss.find? fun x => x.tag == r.tag).map fun x => x.num
  let done := doneIds p (s.num 0x6000_07)
  let ids := done.map Prod.fst ++ opens.map fun o => fieldAt o.payload 0 8
  let s := { s with
    requests := rs.map fun (r : Request) => { r with session := if r.tag = 0 then none else num r }
    sessions := ss
    journal := { s.journal with done := done, highest := ids.max?, unsettled := opens.map fun o => o.jsn, settled := false } }
  let s := refreshNeeded s
  if alone then settleRecords s [] else s

end Sys2Proof.Machine
end

