-- ==== Sys2Proof/Machine/Restart.lean ====
section
/-! DEFINITION. Restart.lean: what a reset keeps (R413, R429, R496, R516, R571, R600) and the restore of saved values (R79,
R438-R442), as shared operations, with the meanings of RESET_N, REFCLK_LOSS and REFCLK_RETURN. -/

namespace Sys2Proof.Machine

/-! ### Saved values (R441, R442) -/

/-- A saved value has the type and length of its entry. -/
def typeOk (ty : Ty) (v : Val) : Bool :=
  match v with
  | .num n => ty != .text && ty != .blob && n < 2 ^ ty.bits
  | .bytes _ => ty == .text || ty == .blob

/-- The running firmware applies a record: the entry is defined, marked P, of that type and in its range. -/
def storedOk (e : Nat × Val) : Bool :=
  match findDef (e.1 / 256) (e.1 % 256) with
  | none => false
  | some d => d.persist && typeOk d.ty e.2 && (e.2 == dfltOf e.1 || valueOk d e.2)

/-- A record whose entry is defined and that is not applied is listed (R442). -/
def storedBad (e : Nat × Val) : Bool := (findDef (e.1 / 256) (e.1 % 256)).isSome && !storedOk e

/-- The saved value of an entry, or its default. -/
def savedVal (s : State) (oid : Nat) : Val :=
  let v := sparseGet dfltOf s.store.values oid
  if s.store.usable && (s.store.values.any fun e => e.1 == oid) && storedOk (oid, v) then v else dfltOf oid

def applySaved (s : State) (only : Nat → Bool) : State :=
  if !s.store.usable then s
  else (s.store.values.filter fun e => only e.1 && storedOk e).foldl (fun s e => s.setVal e.1 e.2) s

/-- A saved row map read back: role codes above 4 are reserved (R79). -/
def roleOf : Nat → Option Role
  | 0 => some .inUse
  | 1 => some .idleSpare
  | 2 => some .standingIn
  | 3 => some .retired
  | 4 => some .unfit
  | _ => none

/-- A row map's entry restored: every stand-in ends and every CAL bit is 0. -/
def restoredRow (v : Nat) : Option RowEntry :=
  (roleOf (bitsOf v 12 10)).map fun r =>
    if r = .standingIn then { logical := noRow, role := .idleSpare, cal := false }
    else { logical := bitsOf v 9 0, role := r, cal := false }

/-- A restored map is valid: every logical row is named by exactly one entry in use, every other entry names none (R79). -/
def rowsValid (es : List RowEntry) : Bool :=
  es.length == 520
    && (List.range 516).all (fun r => (es.filter fun e => e.logical == r && e.role == .inUse).length == 1)
    && es.all fun e => if e.role = .inUse then e.logical < 516 else e.logical == noRow

/-- The row map of a facet from its saved octets; none where they are not valid. -/
def rowMapOf (b : Bytes) : Option (List (Nat × RowEntry)) :=
  if b.length ≠ 1040 then none else
  let es := (List.range 520).filterMap fun p => restoredRow (fieldAt b (2 * p) 2)
  if rowsValid es then some (es.zipIdx.foldl (fun m e => sparsePut factoryRow m e.2 e.1) []) else none

/-- The row maps restored at the entry to Configuring, with the entries listed. -/
def restoreRowMaps (s : State) : State × List Nat :=
  (List.range 32).foldl (fun (a : State × List Nat) f =>
    let oid := fam 0x3200_01 f
    match if a.1.store.usable then a.1.store.values.find? fun e => e.1 == oid else none with
    | none => (a.1.setBlob oid (rowMapBytes Facet.start), a.2)
    | some e =>
      match rowMapOf e.2.asBytes with
      | some m =>
        let s := modFacet a.1 f fun (x : Facet) => { x with rowMap := m, ringMap := m, shadowMap := m }
        (s.setBlob oid (rowMapBytes (facetN s f)), a.2)
      | none => (a.1.setBlob oid (rowMapBytes Facet.start), a.2 ++ [oid])) (s, [])

def isRowMap (oid : Nat) : Bool := 0x3200 ≤ oid / 256 && oid / 256 < 0x3220

/-- Life data, which no reset has lost (R39). -/
def isLifeData (oid : Nat) : Bool := oid / 256 == 0x0030

/-- The restore of R441 with its report (R442): STORE_STATE, DEFAULTED, DEFAULTED_LIST, PERSIST_DEFAULTED. -/
def restoreSaved (s : State) : State :=
  let s := applySaved s fun oid => !isRowMap oid && !isLifeData oid
  let (s, maps) := restoreRowMaps s
  let bad := if s.store.usable then ((s.store.values.filter fun e => !isRowMap e.1 && storedBad e).map Prod.fst ++ maps).mergeSort
    else []
  let s := s.setNum 0x1010_01 (if !s.store.usable then 2 else if bad.isEmpty then 0 else 1)
  let s := (s.setNum 0x1010_04 (bad.length % 65536)).setBlob 0x1010_07 ((bad.map (leBytes 4)).flatten)
  if bad.isEmpty then s else s.raise 0x1002 0xFF (leBytes 2 bad.length)

/-! ### Resets -/

/-- Entries that a reset keeps: the boot control record and the fuses, the rails as they stand, life data; and, where LNK keeps its
links, the state of both ports with the node ID and the ring ID. -/
def keptOid (lnk : Bool) (oid : Nat) : Bool :=
  let i := oid / 256
  let sub := oid % 256
  isLifeData oid || (i == 0xC000 && [2, 3, 7, 11].contains sub) || (0x8100 ≤ i && i < 0x8129 && sub == 1) || (i == 0x8000 && sub == 5)
    || (lnk && (((i == 0x1110 || i == 0x1111) && [1, 2, 3, 12].contains sub) || (i == 0x1100 && sub ≤ 2)))

/-- A reset of the device with its RESET_CAUSE: 2 RESET_N and its equals, 3 KIND 1, 4 KIND 2, 5 RESTART. KIND 1 and RESTART
leave the LNK die alone; under KIND 2 the ports that were up are reported DOWN with cause 4 (R413, R418; log entry 115). What
lies in MRAM, flash and fuses stays, the rails stay as they are, every die starts anew in Sealed, and LNK restores its
objects. -/
def restartDevice (s : State) (cause : Nat) : State :=
  let lnk := cause == 3 || cause == 5
  let r := State.reset
  let fresh : State := { r with
    pending := s.pending
    out := s.out
    objs := s.objs.filter fun e => keptOid lnk e.1
    up := s.up
    refclk := s.refclk
    ring := { r.ring with node0At := s.up, heartbeatAt := s.up, remoteReset := if cause = 3 then 1 else if cause = 4 then 2 else 0 }
    events := if lnk then { r.events with lnk := s.events.lnk } else r.events
    store := s.store
    journal := { r.journal with own := s.journal.own, mirror := s.journal.mirror, nextJsn := s.journal.nextJsn }
    checkAt := s.up
    sampledFrom := s.up
    eyes := if lnk then s.eyes else s.eyes.map fun (e : Eye) => { e with txOn := true }
    maint := { r.maint with repairList := s.maint.repairList, repaired := s.maint.repaired }
    power := { r.power with failLow := s.power.failLow, failOwed := s.power.failOwed }
    life := s.life
    analog := { r.analog with trims := s.analog.trims, trimAt := s.analog.trimAt }
    boot := { r.boot with images := if lnk then s.boot.images else s.boot.images.set 2 none }
    free := s.free }
  let kept := fun (oid : Nat) => oid / 256 == 0x1100 && !(lnk && oid % 256 ≤ 2)
  let fresh := refreshPorts ((applySaved fresh kept).setNum 0x1000_05 cause)
  if cause = 4 then
    settleWraps (((List.finRange 2).filter (portUp s)).foldl (fun s p => s.raise 0x1010 p.val (leBytes 1 4)) fresh)
  else fresh

/-- RESET_N (R429, R600, R601): the pin falls for at least 10 µs and is released, which is allowed only with REFCLK stable. -/
def execResetN (s : State) : Host.Outcome State Fault Refusal :=
  if s.refclk then .next (restartDevice s 2) else .next s

/-! ### The reference clock (R597) -/

/-- Both Kangeiz ports and every peer port go DOWN. -/
def portsDown (s : State) : State :=
  let s := (List.finRange 2).foldl (fun s p => ringDown s p 0 1) s
  (List.finRange 4).foldl (fun s p => if peerLink s p = 0 then s else peerDown s p 1) s

/-- REFCLK_LOSS (R434, R597): Safe with cause 4; the ports lose their reference. -/
def execRefclkLoss (s : State) : Host.Outcome State Fault Refusal :=
  if !s.refclk then .next s
  else .next (portsDown (enterSafe { s with refclk := false } 4))

/-- REFCLK_RETURN (R434): LNK reports again and its ports may train; the device stays in Safe. -/
def execRefclkReturn (s : State) : Host.Outcome State Fault Refusal := .next { s with refclk := true }

end Sys2Proof.Machine
end

