-- ==== Sys2Proof/Machine/Boot.lean ====
section
/-! DEFINITION. Boot.lean: boot, seal, start-up of the units, measurement and attestation, firmware images in service (R441,
R571-R588), with the meanings of the boot and image rows that no parameter write delivers. -/

namespace Sys2Proof.Machine

def modBoot (s : State) (g : BootSt → BootSt) : State := { s with boot := g s.boot }

/-! ### Row repair (R374) -/

/-- One line replaced by a spare row of its bank, or its place withdrawn where the bank has no spare left. -/
def repairLine (s : State) (n : Nat) (a : Nat × List Nat) (line : Nat) : State × (Nat × List Nat) :=
  let used := (s.maint.repaired[n]?).getD []
  if (used.filter fun l => l % 64 == line % 64).length < 32 then
    (modMaint s fun m => { m with repaired := m.repaired.setIfInBounds n (used ++ [line]) }, (a.1 + 1, a.2))
  else (s, (a.1, if line / 60 < shelfPlaces ∧ !a.2.contains (line / 60) then a.2 ++ [line / 60] else a.2))

/-- Lines of one shelf (R372). -/
def shelfLines : Nat := shelfBytes / 256

/-- A failing spare row: its bank has one spare row fewer. The march test numbers the spare rows behind the lines, and one that
carries a line by that line. -/
def losePlainSpare (s : State) (n row : Nat) : State :=
  let used := (s.maint.repaired[n]?).getD []
  if used.contains row ∨ 32 ≤ (used.filter fun l => l % 64 == row % 64).length then s
  else modMaint s fun m => { m with repaired := m.repaired.setIfInBounds n (used ++ [row]) }

/-- Row repair of one pair: the failing rows of the march test and the lines of the repair list. -/
def repairPair (s : State) (n : Nat) (rows : List Nat) : State :=
  let s := (rows.filter fun l => decide (shelfLines ≤ l)).foldl (fun s l => losePlainSpare s n l) s
  let failed := rows.filter fun l => decide (l < shelfLines)
  let lines := (failed ++ (s.maint.repairList[n]?).getD []).dedup
  let (s, a) := lines.foldl (fun (x : State × (Nat × List Nat)) l => repairLine x.1 n x.2 l) (s, (0, []))
  let places := a.2.mergeSort
  let s := modMaint s fun m => { m with repairList := m.repairList.setIfInBounds n [] }
  let s := (s.setNum (fam 0x4600_03 n) (shelfPlaces - places.length)).setBlob (fam 0x4600_04 n) ((places.map (leBytes 2)).flatten)
  let s := (s.setNum (fam 0x4600_06 n) (2048 - ((s.maint.repaired[n]?).getD []).length)).setSaved (fam 0x4600_05 n) 0
  s.raise 0x4055 n (memData .shelf n ++ leBytes 2 a.1 ++ leBytes 2 places.length)

def repairShelves (s : State) (failed : List (PairId × Nat)) : State :=
  (List.range 8).foldl (fun s n =>
    repairPair s n ((failed.filter fun e => e.1.val == n && e.2 < shelfLines + 2048).map Prod.snd)) s

/-! ### Choosing an image (R572-R574) -/

/-- The candidate marker of a boot that restarts on the PREFERRED slot (R574). -/
def fallbackBoot : Nat × Bool × Bool := (3, false, true)

/-- The candidates in order. -/
def candidates (s : State) : List Nat :=
  let next := s.num 0xC000_03
  let pref := s.num 0xC000_02
  (if next = 255 then [] else [next]) ++ [pref, 1 - pref]

/-- The first accepted candidate with its place; each rejected one raises IMAGE_REJECTED. -/
def chooseImage (s : State) : List Nat → Nat → State × Option (Nat × Nat)
  | [], _ => (s, none)
  | c :: cs, k =>
    match fwCause s (imageIn s c) with
    | none => (s, some (c, k))
    | some cause => chooseImage (s.raise 0xC010 0xFF (leBytes 1 c ++ leBytes 1 cause)) cs (k + 1)

/-- A boot code failure (R574). -/
def bootFailed (s : State) (fromNext : Bool) : State :=
  if fromNext then modBoot s fun b => { b with candidate := some fallbackBoot, running := [] } else enterSafe s 3

/-- Steps 4 and 5 on an accepted image: its version, the start-up tests, row repair, the journal scan. -/
def runImage (s : State) (src cause : Nat) (fromNext testsOk : Bool) (failed : List (PairId × Nat)) (facetsOk : Nat) : State :=
  let img := (imageIn s src).getD []
  let s := modBoot s fun b => { b with candidate := some (src, fromNext, cause == 2), running := img }
  let s := ((s.setNum 0xC000_01 src).setNum 0xC000_08 cause).setNum 0x0000_08 (fwVersion img)
  let s := if cause = 2 then s.raise 0xC011 0xFF (leBytes 1 src) else s
  if !testsOk then bootFailed s fromNext else
  let s := s.setNum 0x8600_04 (if Config.sscStrap then 1 else 0)
  let s := s.setNum 0x8600_03 (if !Config.sscStrap && (savedVal s 0x8600_01).asNum == 1 then 1 else 0)
  let s := (List.range 32).foldl (fun s f =>
    if facetsOk.testBit f then s else modFacet s f fun (x : Facet) => { x with degraded := true }) s
  scanJournal (repairShelves s failed) ((savedVal s 0xA000_03).asNum == 255)

/-- The first act of a power-up: POWER_CYCLES counts and is saved (R39). -/
def countPowerUp (s : State) : State :=
  if s.num 0x1000_05 = 1 ∧ s.boot.candidate.isNone then
    s.setSaved 0x0030_03 ((s.num 0x0030_03 + 1) % 2 ^ 32)
  else s

/-- A device in Sealed whose boot has yet to begin, or begins again on the PREFERRED slot. -/
def bootReady (s : State) : Bool :=
  s.node == .sealed && !s.sysHeld && s.refclk && (s.boot.candidate.isNone || s.boot.candidate == some fallbackBoot)

/-- BOOT (R572, R573): steps 1 to 5. `selfCheckOk` is the check of step 1, `testsOk` the start-up tests that may end the boot,
`failedShelfLines` the march test's result, `facetsOk` the facets that pass theirs. -/
def execBoot (selfCheckOk testsOk : Bool) (failedShelfLines : List (PairId × Nat)) (facetsOk : BitVec 32) (s : State) :
    Host.Outcome State Fault Refusal :=
  if !bootReady s then .next s else
  let again := s.boot.candidate == some fallbackBoot
  let s := countPowerUp s
  let s := modBoot s fun b => { b with startedAt := s.up }
  let s := match s.ring.remoteReset with
    | 0 => s
    | k => ({ s with ring := { s.ring with remoteReset := 0 } }).raise 0x1017 0xFF (leBytes 1 k)
  if !selfCheckOk then .next (enterSafe s 3) else
  let cs := candidates s
  let named := s.num 0xC000_03 != 255
  let (s, found) := chooseImage (s.setNum 0xC000_03 255) cs 0
  match found with
  | none => .next (enterSafe s 3)
  | some (src, k) =>
    let cause := if again || k != 0 then 2 else if named then 1 else 0
    .next (runImage s src cause (named && k == 0) testsOk failedShelfLines facetsOk.toNat)

/-- BOOT_TIMEOUT (R574): no seal within 1,500 ms of step 1. -/
def execBootTimeout (s : State) : Host.Outcome State Fault Refusal :=
  match s.boot.candidate with
  | some (src, fromNext, _) =>
    if s.node = .sealed ∧ src ≠ 3 ∧ !s.power.failLow ∧ !s.sysHeld ∧ 46080000 ≤ s.since s.boot.startedAt then
      .next (bootFailed s fromNext)
    else .next s
  | none => .next s

/-! ### Measurements (R579) -/

/-- The values of an object, subindex 00h first. -/
def objectBytes (s : State) (index : Nat) : Bytes :=
  ((List.range ((subMax index).getD 0 + 1)).map fun k => valBytes (256 * index + k) (s.val (256 * index + k))).flatten

/-- M0 to M3. -/
def measurements (s : State) (debug : Bool) : Bytes :=
  (Config.bootRomHash ++ List.replicate 64 0#8).take 64 ++ fwDigest s.boot.running ++ sha512 (Config.sealInput (fwSeal s.boot.running) debug)
    ++ sha512 (objectBytes s 0x0010 ++ objectBytes s 0x0020)

/-! ### Entry to Configuring (R326, R429, R441, R515, R552, R553) -/

/-- Contexts from the saved registrations (R185). -/
def restoreContexts (s : State) : State :=
  let s := s.store.regs.foldl (fun s r =>
    setCtx s r.1 { noCtx with state := if r.2.2.2 then .closing else .registered, model := r.2.1, stage := r.2.2.1 }) s
  (s.store.regs.map fun r => r.1).foldl settleCtx s

/-- The output's CODE and SPAN records were restored without defaults. -/
def outTrimmed (s : State) (k : Nat) : Bool :=
  s.store.usable && [aoutCodeOid k, aoutSpanOid k].all fun o => s.store.values.any fun e => e.1 == o && storedOk e

/-- External outputs with a valid trim take their stored span and code. -/
def restoreOutputs (s : State) : State :=
  (List.finRange 16).foldl (fun s k => if outTrimmed s k.val then spanStart s k (s.num (aoutSpanOid k.val)) else s) s

/-- The trim image of a pair that is valid at the set point in force. -/
def validTrim (s : State) (n : Nat) : Option TrimImage :=
  ((s.analog.trims.filter fun t => t.pair == n && t.whole && t.setpoint == s.num 0x7020_02).getLast?)

/-- Stored heater codes of the pairs whose trim image is valid. -/
def restoreTrims (s : State) : State :=
  (List.range 8).foldl (fun s n => match validTrim s n with
    | some t =>
      t.codes.foldl (fun s c => connectOut s c.1 c.2) (s.setNum 0x9130_04 (withBit (s.num 0x9130_04) n true))
    | none => s) (s.setNum 0x9130_04 0)

/-- The light inputs start from their stored enable bits (R326, R334). -/
def startInputs (s : State) : State :=
  (List.finRange 2).foldl (fun s i =>
    if !(s.num 0x7000_01).testBit i.val then s
    else setInput s i (if (inputOf s i).closed then .waiting else .opened)) s

/-- Peer ports with ENABLE 1 leave DISABLED where the device has an ordinal (R448, R451). -/
def startPeers (s : State) : State :=
  (List.finRange 4).foldl (fun s p => peerEnable s p (s.num (fam 0xA010_04 p.val))) s

/-- The D32 enters Configuring from Sealed: values restored, outputs, rails, units, light, ports and mirror start. -/
def enterConfiguring (s : State) : State :=
  let s := restoreContexts (restoreSaved s)
  let s := if s.power.failOwed then
      (modPower s fun p => { p with failOwed := false }).raise 0xB030 0xFF
        (leBytes 8 (s.num 0xB200_02) ++ leBytes 4 (s.num 0xB200_03))
    else s
  let s := setNode (s.setNum 0x7010_02 (s.num 0x7010_01)) .configuring 0
  let s := restoreTrims (restoreOutputs s)
  settleLight (mirrorResync (startPeers (startInputs (unitsFromRails (startSeq s)))))

/-- SEAL (R429, R575-R579): the boot code writes the protection set-up and the seal. It waits while PWRFAIL_N is low (R516). -/
def execSealWrite (s : State) : Host.Outcome State Fault Refusal :=
  match s.boot.candidate with
  | none => .next s
  | some (src, _, _) =>
    if s.node ≠ .sealed ∨ src = 3 ∨ s.power.failLow ∨ s.sysHeld then .next s else
    let img := s.boot.running
    let debug := bitOf (fieldAt img 13 1) 0 && s.num 0xC000_0B == 1
    let m := measurements s debug
    let s := (s.setNum 0xC010_01 1).setNum 0xC010_02 (if debug then 1 else 0)
    let s := (s.setBlob 0xC010_03 (sealWindows (fwSeal img))).setBlob 0xC010_04 (sealMap (fwSeal img))
    let s := (s.setBlob 0xC010_05 ((m.drop 128).take 64)).setBlob 0xC030_06 m
    let s := if debug then s.raise 0xC014 0xFF [] else s
    let s := s.setNum 0xC000_09 (s.since s.boot.startedAt / 30720)
    .next (enterConfiguring (modBoot s fun b => { b with candidate := none }))

/-! ### Attestation (R580, R581) -/

/-- The states in which reports are answered and firmware commands taken. -/
def inService (s : State) : Bool :=
  s.node == .configuring || s.node == .serving || s.node == .quiesced || s.node == .inspect

/-- Bytes 0 to 383 of a report. -/
def reportBody (s : State) (nonce : Bytes) : Bytes :=
  let b := ldva ++ leBytes 2 1 ++ leBytes 2 0 ++ leBytes 8 (s.num 0x0000_06) ++ nonce ++ leBytes 8 s.stamp
    ++ leBytes 1 (s.num 0x2000_03) ++ leBytes 1 s.node.code ++ leBytes 1 (s.num 0xC000_01) ++ leBytes 1 (svnFloor s)
    ++ leBytes 4 (s.num 0x0000_08) ++ leBytes 4 (s.num 0x0000_07) ++ leBytes 1 (s.num 0xC010_02) ++ leBytes 3 0
    ++ s.blob 0xC030_06
  (b ++ List.replicate 384 0#8).take 384

/-- The effect of a write of NONCE: a report that is being signed is never produced. -/
def writeNonce (s : State) (v : Bytes) : State := (modBoot s fun b => { b with signing := some v }).setNum 0xC030_03 1

/-- REPORT_SIGNED: the key store's engine has signed the report. -/
def execReportSigned (s : State) : Host.Outcome State Fault Refusal :=
  match s.boot.signing with
  | none => .next s
  | some nonce =>
    if !inService s then .next s else
    let body := reportBody s nonce
    let sig := (Config.identitySign body ++ List.replicate 512 0#8).take 512
    .next (((modBoot s fun b => { b with signing := none }).setBlob 0xC030_02 (body ++ sig)).setNum 0xC030_03 2)

/-! ### Firmware images in service (R582, R584) -/

/-- The last segment of IMAGE_DATA: the target becomes invalid and programming begins. -/
def writeImage (s : State) (v : Bytes) : State :=
  let t := s.num 0xC020_01
  let s := modBoot s fun b => { b with staging := some (t, v), images := b.images.setIfInBounds t none }
  (s.setNum 0xC020_03 1).setNum 0xC020_04 0

/-- IMAGE_STAGED: programming and the checks of R570 are over; the LNK buffer is no flash. -/
def execImageStaged (flashOk : Bool) (s : State) : Host.Outcome State Fault Refusal :=
  match s.boot.staging with
  | none => .next s
  | some (t, b) =>
    if s.sysHeld ∨ s.node = .safe then .next s else
    let s := modBoot s fun x => { x with staging := none }
    if t ≠ 2 ∧ !flashOk then .next (s.setNum 0xC020_03 3) else
    let s := (modBoot s fun x => { x with images := x.images.setIfInBounds t (some b) }).setNum 0xC020_04 b.length
    match fwCause s (some b) with
    | some c => .next (s.setNum 0xC020_03 (16 + c))
    | none => .next ((s.setNum 0xC020_03 2).raise 0xC012 0xFF (leBytes 1 t ++ leBytes 4 (fwVersion b)))

/-- The effect of COMMIT: the running slot becomes PREFERRED and the SVN floor rises to the running image's. -/
def commitImage (s : State) : State :=
  let old := svnFloor s
  let new := fwSvn s.boot.running
  let s := s.setNum 0xC000_02 (s.num 0xC000_01)
  if old < new then (s.setNum 0xC000_07 new).raise 0xC013 0xFF (leBytes 1 old ++ leBytes 1 new) else s

end Sys2Proof.Machine
end

