-- ==== Sys2Proof/Machine/Gang.lean ====
section
/-! DEFINITION. Gang.lean: the peer link layer and the frames of the gang (R447-R476): one meaning for each row. -/

namespace Sys2Proof.Machine

/-! ### Receiving a peer frame (R455-R458) -/

/-- The difference of two link numbers modulo 2^32. -/
def seqDiff (a b : Nat) : Nat := (a + 2 ^ 32 - b % 2 ^ 32) % 2 ^ 32

/-- Frames up to ACK_SEQ are acknowledged (R457); a buffer that one of them was the last frame of has been sent (R226). -/
def peerAcked (s : State) (p : PeerPort) (ackSeq : Nat) : State :=
  let gone := fun (f : PeerFrame) => seqDiff ackSeq f.seq < 2 ^ 31
  let fs := (s.peers[p].unacked.map fun u => u.1).filter gone
  if fs.isEmpty then s else
  let s := modPeer s p fun q => { q with unacked := q.unacked.filter fun u => !gone u.1, progressAt := s.up }
  (fs.filterMap fun f => f.frees).foldl (fun s b => releaseSent s b.1 b.2.1 b.2.2.1 b.2.2.2) s

/-- A credit return (R455, R458). -/
def peerCredited (s : State) (p : PeerPort) (v : Nat) : State :=
  let h := bitsOf v 3 0
  let ch := bitsOf v 5 4
  if h = 0 ∨ 8 < h then s else
  let s := modPeer s p fun q =>
    { q with credits := sparsePut (fun _ => 16) q.credits (ch * 16 + h) (min 16 (peerCredits q ch h + bitsOf v 15 6)) }
  pumpPeer s p

/-- The buffer of a frame of class h and channel ch is free again: its credit goes back (R458). -/
def creditBack (s : State) (p : PeerPort) (ch h : Nat) : State :=
  sendLink s p 0x02 0 (leBytes 2 (h + ch * 16 + 64))

/-- A frame discarded as malformed (R6, R456). -/
def peerMalformed (s : State) (p : PeerPort) : State := s.inc (fam 0xA010_0F p.val)

/-- A frame as it came over a port: its header, its ten ARG bytes and its payload (R455). -/
def frameOf (h : PeerHdr) (type : Nat) (record payload : Bytes) : PeerFrame :=
  { type := BitVec.ofNat 8 type, flags := h.flags, srcOrd := h.srcOrd.toNat, destOrd := h.destOrd.toNat, hops := h.hops.toNat,
    channel := h.channel.toNat, seq := h.seq.toNat, ackSeq := h.ackSeq.toNat, ringId := h.ringId.toNat,
    creditField := h.creditField.toNat, record := record, payload := payload, crc := h.crc }

/-- Ten ARG bytes: the arguments that a type names, then the reserved bytes as they were sent. -/
def recordOf (h : PeerHdr) (arg : Bytes) : Bytes := (arg ++ h.rest ++ List.replicate 10 0#8).take 10

/-- A frame's CRC is that of its header and payload (R455). -/
def PeerFrame.crcOk (f : PeerFrame) : Bool := f.crc == peerCrc f

/-- The next frame of a link accepted in order, its acknowledgement and credit fields used, and answered with LINK_ACK;
none where the port passes no such frame, or the frame fails its code or its CRC, is a duplicate or comes ahead of a gap (R457). -/
def linkAccept (s : State) (p : PeerPort) (h : PeerHdr) (f : PeerFrame) (answer : Bool) : State × Bool :=
  if !h.fecOk then (sendLink (s.inc (fam 0xA010_08 p.val)) p 0x01 1 [], false)
  else if !f.crcOk then (sendLink s p 0x01 1 [], false) else
  let s := peerCredited (peerAcked s p h.ackSeq.toNat) p h.creditField.toNat
  let q := s.peers[p]
  if h.seq.toNat = q.rxNext then
    let s := modPeer s p fun q => { q with rxNext := (q.rxNext + 1) % 2 ^ 32 }
    (if answer then sendLink s p 0x01 0 [] else s, true)
  else if seqDiff h.seq.toNat q.rxNext < 2 ^ 31 then (sendLink s p 0x01 1 [], false)
  else (if answer then sendLink s p 0x01 0 [] else s, false)

/-- No reserved bit of the header or of ARG is set (R6, R455, R456). -/
def reservedOk455 (h : PeerHdr) : Bool := h.flags.toNat < 8 && h.rest.all (· == 0) && h.streamRest == 0

/-- Header fields that every frame of a channel must carry (R6, R455, R456). -/
def headerOk (h : PeerHdr) (channel : Nat) : Bool := reservedOk455 h && h.channel.toNat == channel && h.hops.toNat != 0

/-- A frame forwarded along the route to its destination, store-and-forward (R452, R458). -/
def forwardPeer (s : State) (p : PeerPort) (h : PeerHdr) (f : PeerFrame) : State :=
  let back := fun (s : State) => creditBack (s.inc 0xA020_02) p h.channel.toNat h.hops.toNat
  match routeTo s h.destOrd.toNat with
  | none => back s
  | some (out, _) =>
    if 8 ≤ h.hops.toNat then back s else
    peerSend (s.inc (fam 0xA010_0E out.val)) out { f with hops := h.hops.toNat + 1, creditField := 0, via := some p }

/-- One frame of the gang on a port: link layer, discards, then consumed or forwarded. `record` is its ten ARG bytes; `consume` holds
the frame's own effect. -/
def peerFrame (s : State) (p : PeerPort) (h : PeerHdr) (type channel : Nat) (record payload : Bytes)
    (consume : State → State) : State :=
  if !peerUp s p then s else
  let f := frameOf h type record payload
  let (s, ok) := linkAccept s p h f true
  if !ok then s
  else if 8 < h.hops.toNat then s.inc 0xA020_02
  else if !headerOk h channel then peerMalformed (creditBack s p h.channel.toNat h.hops.toNat) p
  else if ownOrdinal s h.destOrd.toNat then consume (creditBack s p channel h.hops.toNat)
  else forwardPeer s p h f

/-- The same for a type whose reserved ARG bytes follow its arguments. -/
def peerReceive (s : State) (p : PeerPort) (h : PeerHdr) (type channel : Nat) (arg payload : Bytes)
    (consume : State → State) : State :=
  peerFrame s p h type channel (recordOf h arg) payload consume

/-! ### Link frames (R453, R457, R458) -/

/-- A port passes link frames in CHECKING, ISOLATED, UP8 and UP7. -/
def aligned (s : State) (p : PeerPort) : Bool := 4 ≤ peerLink s p

/-- Every frame that is not acknowledged sent again (R457). -/
def peerResend (s : State) (p : PeerPort) : State :=
  let q := s.peers[p]
  let n := q.unacked.length
  let s := { s with out := s.out ++ q.unacked.map fun (u : PeerFrame × Nat) => Out.peer p (sealPeer q u.1) }
  let s := (s.add (fam 0xA010_0D p.val) n).add (fam 0xA010_09 p.val) n
  modPeer s p fun q => { q with unacked := q.unacked.map fun u => (u.1, u.2 + 1), progressAt := s.up }

/-- LINK_ACK (R457): with NAK everything after ACK_SEQ is sent again. It is not answered itself. -/
def execLinkAck (p : PeerPort) (h : PeerHdr) (s : State) : Host.Outcome State Fault Refusal :=
  if !aligned s p then .next s else
  let (s, ok) := linkAccept s p h (frameOf h 0x01 (recordOf h []) []) false
  if !ok then .next s
  else if !reservedOk455 h then .next (peerMalformed s p)
  else if h.flags.toNat.testBit 0 then .next (peerResend s p) else .next s

/-- PEER_RESEND_TIMEOUT (R457): 20 µs, 614.4 ticks, without progress. -/
def execPeerResendTimeout (p : PeerPort) (s : State) : Host.Outcome State Fault Refusal :=
  if aligned s p && !s.peers[p].unacked.isEmpty && 615 ≤ s.since s.peers[p].progressAt then .next (peerResend s p)
  else .next s

/-- CREDIT (R456, R458): up to 32 credit returns. -/
def execCredit (p : PeerPort) (h : PeerHdr) (returns : List (BitVec 16)) (s : State) : Host.Outcome State Fault Refusal :=
  if !peerUp s p then .next s else
  let (s, ok) := linkAccept s p h (frameOf h 0x02 (recordOf h []) ((returns.map fun v => leBytes 2 v.toNat).flatten)) true
  if !ok then .next s
  else if !reservedOk455 h ∨ 32 < returns.length then .next (peerMalformed s p)
  else .next (returns.foldl (fun s v => peerCredited s p v.toNat) s)

/-- HELLO (R453): a port in CHECKING or ISOLATED judges the far end. A far end seen for the first time, or one that numbers
from 0 again, sets the base of the link's numbers (log entry 31). -/
def execHello (p : PeerPort) (h : PeerHdr) (ring : BitVec 32) (ordinal port : Byte) (serial : BitVec 64) (s : State) :
    Host.Outcome State Fault Refusal :=
  let f := frameOf h 0x03 (recordOf h []) (leBytes 4 ring.toNat ++ [ordinal, port] ++ leBytes 8 serial.toNat)
  if !aligned s p then .next s
  else if !h.fecOk || !f.crcOk then .next (linkAccept s p h f true).1
  else if !reservedOk455 h then .next (peerMalformed (linkAccept s p h f true).1 p)
  else
    let fresh := h.seq.toNat = 0 ∨ s.num (fam 0xA010_10 p.val) ≠ serial.toNat
    let s := if fresh then
        sendLink (modPeer s p fun q => { q with rxNext := (h.seq.toNat + 1) % 2 ^ 32, unacked := [], credits := [] }) p 0x01 0 []
      else (linkAccept s p h f true).1
    let s := s.setNum (fam 0xA010_10 p.val) serial.toNat
    if peerLink s p ≠ 4 ∧ peerLink s p ≠ 7 then .next s
    else if ring.toNat = ringId s ∧ ordinal.toNat + 256 * port.toNat = s.num (fam 0xA010_05 p.val) then
      .next (peerLinkUp s p (s.num (fam 0xA010_02 p.val)))
    else
      .next ((s.setNum (fam 0xA010_01 p.val) 7).raise 0xA014 p.val
        (leBytes 4 ring.toNat ++ leBytes 1 ordinal.toNat ++ leBytes 1 port.toNat ++ leBytes 8 serial.toNat))

/-! ### Streams between devices (R456, R459, R461) -/

def streamArg (h : PeerHdr) (stream : BitVec 13) (receiver : Byte) : Bytes :=
  leBytes 2 (stream.toNat + 8192 * h.streamRest.toNat) ++ [receiver]

/-- A block of a buffer from a peer: a jig that waits for a READ takes it, or the stream it names; with LAST the buffer is
complete. -/
def takeData (s : State) (src eic n receiver tag : Nat) (last : Bool) (payload : Bytes) : State :=
  match s.jigs.find? fun j => j.eic == eic && j.stream == n && j.reading != 0 with
  | some j => jigReceive s j payload
  | none =>
    match findStream s eic n with
    | none => s
    | some x =>
      if x.desc.producer ≠ 0x48 then s else
      let all := x.incoming ++ payload
      let s := modStream s eic n fun x =>
        { x with
          source := some (src + 64 * receiver)
          incoming := if last then [] else all
          arrived := if last then x.arrived ++ [(tag, all)] else x.arrived }
      if last then placeArrived s eic n (x.arrived.length + 1) else s

/-- DATA (R456, R459). -/
def execData (p : PeerPort) (h : PeerHdr) (stream : BitVec 13) (receiver tag : Byte) (block : BitVec 16) (payload : Bytes)
    (s : State) : Host.Outcome State Fault Refusal :=
  let arg := streamArg h stream receiver ++ leBytes 1 tag.toNat ++ leBytes 2 block.toNat
  .next (peerReceive s p h 0x10 2 arg payload fun s =>
    takeData s h.srcOrd.toNat (stream.toNat / 1024) (stream.toNat % 1024) receiver.toNat tag.toNat (h.flags.toNat.testBit 2)
      payload)

/-- Blocks of a receiver acknowledged (R248, R459): its lag falls, its window grows, waiting buffers go out. -/
def creditReceiver (s : State) (eic n idx lag window : Nat) : State :=
  let s := modStream s eic n fun x =>
    { x with receivers := x.receivers.modify idx fun r => { r with window := r.window + window, lag := r.lag - lag } }
  match findStream s eic n with
  | some x => pumpData (touch s x.desc.task) eic n idx 64
  | none => s

/-- Stream credits come back for a receiver. One that has left its group (R250) has its catch-up stream under the same names: the
blocks still in its lag are acknowledged first, in the order in which they went out. -/
def takeCredits (s : State) (src eic n receiver count : Nat) : State :=
  match findStream s eic n with
  | none => s
  | some x =>
    let mine := fun (r : Receiver) => r.onPeer && neighbourOf s r.queue == src
    let idx := if (x.receivers[receiver]?).any mine then receiver else (x.receivers.findIdx? mine).getD receiver
    match x.receivers[idx]? with
    | none => s
    | some r =>
      if !mine r then s
      else if r.inGroup then creditReceiver s eic n idx count count
      else
        let old := min count r.lag
        let s := creditReceiver s eic n idx old 0
        match s.streams.find? fun y => y.desc.eic == eic && y.inner == some (n, idx) with
        | some y => creditReceiver s eic y.desc.stream 0 (count - old) count
        | none => s

/-- STREAM_CREDIT (R459). -/
def execStreamCredit (p : PeerPort) (h : PeerHdr) (stream : BitVec 13) (receiver : Byte) (count : BitVec 16) (s : State) :
    Host.Outcome State Fault Refusal :=
  .next (peerReceive s p h 0x11 2 (streamArg h stream receiver ++ leBytes 2 count.toNat) [] fun s =>
    takeCredits s h.srcOrd.toNat (stream.toNat / 1024) (stream.toNat % 1024) receiver.toNat count.toNat)

/-- Bytes of an image that peers read, off to off + len - 1: each block's part is served by the remote share of its stack (R236). -/
def countImage (s : State) (model stage copy off len : Nat) : State :=
  (blockSpan off len).foldl (fun s k =>
    s.add (fam 0x4010_03 (Config.imageStack model stage copy k).val) (min (off + len) (4096 * (k + 1)) - max off (4096 * k))) s

/-- An operand homed PEER in the library (R188, R202): its entry of the library and its entry in the directory. -/
def libOperand (s : State) (model stage copy operand : Nat) : Option (LibEntry × OpEntry) :=
  (s.library.find? fun e => e.model == model && e.stage == stage && e.copyId == copy).bind fun e =>
    ((imgEntries e.blocks).find? fun o => o.operand == operand).map fun o => (e, o)

/-- The blocks of an answer to READ; a READ stands for the stream credits of the bytes that it asks for (log entry 32). -/
def answerRead (s : State) (dest stream receiver : Nat) : Nat → Nat → Bytes → State
  | 0, _, _ => s
  | k + 1, block, data =>
    let last := data.length ≤ 4096
    let s := sendToOr s dest 0x10 (if last then 4 else 0) 2
      (leBytes 2 stream ++ leBytes 1 receiver ++ leBytes 1 0 ++ leBytes 2 block) (data.take 4096)
    if last then s else answerRead s dest stream receiver k (block + 1) (data.drop 4096)

/-- READ (R188, R461). -/
def execRead (p : PeerPort) (h : PeerHdr) (payload : Bytes) (s : State) : Host.Outcome State Fault Refusal :=
  .next (peerReceive s p h 0x12 2 [] payload fun s =>
    let f := fieldAt payload
    if payload.length ≠ 32 ∨ f 5 3 ≠ 0 ∨ f 31 1 ≠ 0 ∨ 8192 ≤ f 28 2 then peerMalformed s p else
    match libOperand s (f 0 4) (f 4 1) (f 8 4) (f 12 4) with
    | some (e, o) =>
      if o.length < f 16 8 + f 24 4 then s else
      let data := imageRead e.blocks (o.offset + f 16 8) (f 24 4)
      answerRead (countImage s (f 0 4) (f 4 1) (f 8 4) (o.offset + f 16 8) (f 24 4)) h.srcOrd.toNat (f 28 2) (f 30 1)
        (data.length + 1) 0 data
    | none => s)

/-! ### Gang tasks (R462-R465) -/

/-- BATCH (R462): the task graph is the one that the frame's reference names; its CLASS is that of the graph. -/
def execBatch (p : PeerPort) (h : PeerHdr) (gangTask : BitVec 32) (graph : TaskGraph) (model : BitVec 32) (stage : Byte)
    (copyId : BitVec 32) (partBound : BitVec 64) (s : State) : Host.Outcome State Fault Refusal :=
  let payload := leBytes 4 model.toNat ++ leBytes 1 stage.toNat ++ leBytes 4 copyId.toNat ++ leBytes 1 (clsCode graph.cls)
    ++ leBytes 8 partBound.toNat ++ leBytes 4 graph.task
  .next (peerReceive s p h 0x20 1 (leBytes 4 gangTask.toNat) payload fun s =>
    match stampTicks partBound.toNat with
    | none => peerMalformed s p
    | some bound =>
      takeBatch s gangTask.toNat h.destOrd.toNat graph model.toNat stage.toNat copyId.toNat bound)

/-- GRANT (R463): the waiting send at the head may go. -/
def execGrant (p : PeerPort) (h : PeerHdr) (gangTask : BitVec 32) (level : Byte) (s : State) :
    Host.Outcome State Fault Refusal :=
  .next (peerReceive s p h 0x21 1 (leBytes 4 gangTask.toNat ++ leBytes 1 level.toNat) [] fun s =>
    if level.toNat < 6 ∨ 11 < level.toNat then peerMalformed s p
    else match partAt s gangTask.toNat h.destOrd.toNat with
      | some t => takeGrant s t.num level.toNat
      | none => s)

/-- The payload of a REDUCE is whole elements, or whole winners (R6, R456). -/
def elemsOk (mode : Nat) (m : Mode) (payload : Bytes) : Bool :=
  !payload.isEmpty && payload.length % (reduceBytes m + if 128 ≤ mode then 4 else 0) == 0

/-- REDUCE between devices (R158, R456, R463). -/
def execPeerReduce (p : PeerPort) (h : PeerHdr) (gangTask : BitVec 32) (level mode : Byte) (payload : Bytes) (s : State) :
    Host.Outcome State Fault Refusal :=
  .next (peerReceive s p h 0x22 1 (leBytes 4 gangTask.toNat ++ leBytes 1 level.toNat ++ leBytes 1 mode.toNat) payload fun s =>
    if !(modeByte mode.toNat).any fun m => elemsOk mode.toNat m payload then peerMalformed s p else
    match partAt s gangTask.toNat h.destOrd.toNat with
    | some t => takeReduce s t h.srcOrd.toNat level.toNat mode.toNat payload
    | none => s)

/-- REPEAT (R464): the device repeats its runs of the tile at a scale step, by the commands that its part's task graph names for
the tile (R120). -/
def execRepeatTile (p : PeerPort) (h : PeerHdr) (gangTask : BitVec 32) (scale : Byte) (payload : Bytes) (s : State) :
    Host.Outcome State Fault Refusal :=
  .next (peerReceive s p h 0x23 1 (leBytes 4 gangTask.toNat ++ leBytes 1 scale.toNat) payload fun s =>
    if payload.length ≠ 8 then peerMalformed s p else
    match partAt s gangTask.toNat h.destOrd.toNat with
    | some t => settleAllFacets (repeatPart s t scale.toNat (fieldAt payload 0 4) (fieldAt payload 4 2) (fieldAt payload 6 2))
    | none => s)

/-- ABORT (R465): the part is aborted; the owner tells the others and replays the request. -/
def execAbort (p : PeerPort) (h : PeerHdr) (gangTask : BitVec 32) (cause : Byte) (s : State) :
    Host.Outcome State Fault Refusal :=
  .next (peerReceive s p h 0x24 1 (leBytes 4 gangTask.toNat ++ leBytes 1 cause.toNat) [] fun s =>
    match partAt s gangTask.toNat h.destOrd.toNat with
    | some t => settleAllFacets (abortTask s t.num .replay cause.toNat)
    | none => s)

/-- PART_BOUND_EXPIRY (R465): the stamp by which a part must complete has passed. -/
def execPartBoundExpiry (gangTask : BitVec 32) (s : State) : Host.Outcome State Fault Refusal :=
  match s.tasks.find? fun t => (t.gang.any fun g => g.1 == gangTask.toNat) && gangTask.toNat % 256 != t.ordinal && s.isPast t.bound with
  | some t => .next (settleAllFacets (abortTask s t.num .replay 0))
  | none => .next s

/-! ### The buddy (R467-R470) -/

def mirrorFrom (s : State) : Nat := s.num 0xA000_06

/-- JOURNAL (R467, R468, R488): entries written at their positions in the mirror part; positions that a RECLAIM entry names
are freed. A record whose reserved fields are not zero makes the frame malformed (R6). -/
def execJournal (p : PeerPort) (h : PeerHdr) (position : BitVec 32) (payload : Bytes) (s : State) :
    Host.Outcome State Fault Refusal :=
  .next (peerReceive s p h 0x30 0 (leBytes 4 position.toNat) payload fun s =>
    let src := h.srcOrd.toNat
    let answer := fun (s : State) (st : Nat) => sendToOr s src 0x31 0 0 (leBytes 4 position.toNat ++ leBytes 1 st) []
    let resync := h.flags.toNat.testBit 1
    let refused := s.gang.refuseFrom == some src && !resync
    let taken := mirrorFrom s == src || (mirrorFrom s == 255 && resync)
    if refused || !taken then answer (s.raise 0xA022 0xFF (leBytes 1 src)) 1
    else if payload.length ≠ 64 ∨ jPositions ≤ position.toNat ∨ !(entryOf payload).reservedOk then peerMalformed s p
    else
      let s := if mirrorFrom s == src && !resync then s
        else modGang (modJournal (s.setNum 0xA000_06 src) fun j => { j with mirror := JPart.empty }) fun q => { q with refuseFrom := none }
      let e := entryOf payload
      let s := modJournal s fun j =>
        let m := jPut j.mirror position.toNat e
        { j with mirror := { (if e.kind = 10 then jDrop m ((List.range e.count).map fun i =>
            (fieldAt e.payload 0 4 + i) % jPositions) else m) with head := (position.toNat + 1) % jPositions } }
      answer s 0)

/-- The buddy has answered for a position: RESYNC ends with its last record; JOURNALLED owed to node 0 is sent once all of
the request's entries are held (R468, R469). -/
def mirrorHeld (s : State) (pos : Nat) : State :=
  let jsn := ((s.journal.own.entries.find? fun e => e.1 == pos && e.2.kind ≤ 9).map fun e => e.2.jsn).getD noRequest
  let s := modGang s fun q => { q with mirrorSent := q.mirrorSent.filter fun e => e.1 != pos }
  let s := s.inc 0xA020_05
  let s := if awaitsBuddy s jsn then s else
    match findRequest s jsn with
    | none => s
    | some r =>
      if mramHeld s then modRequest s jsn fun r => { r with mirrored := true } else
      let s := modRequest s jsn fun r => { r with mirrored := true, ackOwed := none }
      match r.ackOwed with
      | some q => sendAck s q 0x40 5
      | none => s
  if s.gang.resyncLast = some pos then
    (modGang (s.setNum 0xA000_05 2) fun q => { q with resyncLast := none }).raise 0xA020 0xFF []
  else s

/-- JOURNAL_ACK (R468, R469). -/
def execJournalAck (p : PeerPort) (h : PeerHdr) (position : BitVec 32) (status : Byte) (s : State) :
    Host.Outcome State Fault Refusal :=
  .next (peerReceive s p h 0x31 0 (leBytes 4 position.toNat ++ leBytes 1 status.toNat) [] fun s =>
    if h.srcOrd.toNat ≠ buddy s ∨ !s.gang.mirrorSent.any fun e => e.1 == position.toNat then s
    else if status.toNat = 0 then mirrorHeld s position.toNat
    else if status.toNat = 1 then mirrorLost s 2
    else peerMalformed s p)

/-- MIRROR_TIMEOUT (R469): a JOURNAL_ACK is missing for A000h.07 ticks. -/
def execMirrorTimeout (s : State) : Host.Outcome State Fault Refusal :=
  if s.gang.mirrorSent.any fun e => decide (s.num 0xA000_07 ≤ s.since e.2) then .next (mirrorLost s 1) else .next s

/-! ### Weight blocks between devices (R193, R201, R466) -/

/-- One WEIGHT_BLOCK to an ordinal. -/
def sendBlock (s : State) (ord model stage copy block : Nat) (data : Bytes) : State :=
  sendToOr s ord 0x40 0 3 (leBytes 4 model ++ leBytes 1 stage ++ leBytes 1 0 ++ leBytes 4 block) (leBytes 4 copy ++ data)

/-- Answers owed downstream for a block that has come (R466). -/
def payOwed (s : State) (model stage copy block : Nat) (data : Bytes) : State :=
  let is := fun (o : Nat × Nat × Nat × Nat × Nat) => o.2 == (model, stage, copy, block)
  let mine := s.gang.owed.filter is
  mine.foldl (fun s o => sendBlock s o.1 model stage copy block data)
    (modGang s fun q => { q with owed := q.owed.filter fun o => !is o })

/-- A weight block that has passed the link checks: forwarded first, then taken (R201). -/
def weightBlockIn (s : State) (model stage copy block : Nat) (port : Option Nat) (data : Bytes) : Bool × State :=
  receiveBlock (payOwed (forwardBlock s model stage copy block port data) model stage copy block data) model stage copy block
    port data

/-- WEIGHT_BLOCK from a peer (R201, R466): COPY_ID leads the payload (log entry 33). -/
def execPeerWeightBlock (p : PeerPort) (h : PeerHdr) (model : BitVec 32) (stage : Byte) (block copyId : BitVec 32)
    (payload : Bytes) (s : State) : Host.Outcome State Fault Refusal :=
  .next (peerFrame s p h 0x40 3
      (leBytes 4 model.toNat ++ leBytes 1 stage.toNat ++ (h.rest ++ [0]).take 1 ++ leBytes 4 block.toNat)
      (leBytes 4 copyId.toNat ++ payload) fun s =>
    if payload.length ≠ 4096 then peerMalformed s p
    else (weightBlockIn s model.toNat stage.toNat copyId.toNat block.toNat (some p.val) payload).2)

/-- A block of a copy as the device has written it. -/
def writtenBlock (s : State) (model stage copy block : Nat) : Bytes :=
  s.contexts.foldl (fun a c => [false, true].foldl (fun (a : Bytes) b =>
    let x := c.2.slot b
    if a ≠ [] ∨ c.2.model ≠ model ∨ c.2.stage ≠ stage ∨ x.copyId ≠ copy ∨ x.state = .empty then a
    else blockAt x.blocks block) a) []

/-- The upstream port of a triple's pipeline. -/
def upstreamOf (s : State) (model stage copy : Nat) : Option Nat :=
  s.contexts.foldl (fun a c =>
    if c.2.model ≠ model ∨ c.2.stage ≠ stage then a
    else a.or ((c.2.pipes.filter fun p => p.copy == copy).findSome? fun p => p.up)) none

/-- BLOCK_REQ to an ordinal (R466), counted. -/
def sendBlockReq (s : State) (ord model stage copy first count : Nat) : State :=
  (sendToOr s ord 0x41 0 3 (leBytes 4 model ++ leBytes 1 stage ++ leBytes 2 count) (leBytes 4 copy ++ leBytes 4 first)).inc 0xA020_06

/-- BLOCK_REQ (R466): blocks written are sent; for the rest the request goes on upstream and is answered when they come. -/
def execBlockReq (p : PeerPort) (h : PeerHdr) (model : BitVec 32) (stage : Byte) (count : BitVec 16)
    (copyId first : BitVec 32) (s : State) : Host.Outcome State Fault Refusal :=
  let (m, g, c) := (model.toNat, stage.toNat, copyId.toNat)
  .next (peerReceive s p h 0x41 3 (leBytes 4 m ++ leBytes 1 g ++ leBytes 2 count.toNat) (leBytes 4 c ++ leBytes 4 first.toNat) fun s =>
    let src := h.srcOrd.toNat
    let blks := (List.range count.toNat).map (first.toNat + ·)
    let (have_, none_) := blks.partition fun k => writtenBlock s m g c k != []
    let s := have_.foldl (fun s k => sendBlock (countBlock s m g c k) src m g c k (writtenBlock s m g c k)) s
    let s := modGang s fun q => { q with owed := (q.owed ++ none_.map fun k => (src, m, g, c, k)).dedup }
    match upstreamOf s m g c with
    | none => s
    | some up => (runsOf none_).foldl (fun s r => sendBlockReq s (neighbourOf s up) m g c r.1 r.2) s)

/-- BLOCK_STALL_REQUEST (R466): a build or a repair from a peer whose bitmap has stalled for one frame asks upstream for its
missing blocks. -/
def execBlockStallRequest (context : BitVec 12) (slot : Bool) (s : State) : Host.Outcome State Fault Refusal :=
  let c := getCtx s context.toNat
  let x := c.slot slot
  let missing := if x.state = .building then
      (if x.total = 0 then (if blockAt x.blocks 0 = [] then [0] else [])
       else (List.range x.total).filter fun k => blockAt x.blocks k == [])
    else x.repairing
  let port := if x.state = .building then portOf x.source x.desc else x.repairPort
  if port.isNone ∨ missing.isEmpty ∨ s.since x.gainAt < frameTicks ∨ s.since x.askedAt < frameTicks then .next s else
  let s := modSlot s context.toNat slot fun x => { x with askedAt := s.up }
  let up := neighbourOf s (port.getD 0)
  .next ((runsOf missing).foldl (fun s r => sendBlockReq s up c.model c.stage x.copyId r.1 (min r.2 65535)) s)

end Sys2Proof.Machine
end

