-- ==== Sys2Proof/Machine/Node.lean ====
section
/-! DEFINITION. Node.lean: the node commands (R428-R435), quiescing (R431, R432), expert access (R436), factory defaults
(R443), the service commands (R317, R318) and the journal commands (R495, R501, R507), with the meanings of QUIESCE_COMPLETE
and QUIESCE_FORCED. -/

namespace Sys2Proof.Machine

/-! ### Node states -/

/-- A change of state by a command or a cause: expert access lapses outside Configuring; the light follows the state. -/
def moveNode (s : State) (n : NodeState) (cause : Nat) : State :=
  settleLight (dropExpert (setNode s n cause))

/-- Every task of a class test aborted for replay; their number. -/
def abortTasks (s : State) (g : Task → Bool) : State × Nat :=
  let ts := s.tasks.filter g
  (settleAllFacets (ts.foldl (fun s t => abortTask s t.num .replay 256) s), ts.length)

/-- Builds in BUILDING or VERIFYING stop (R431). -/
def stopBuilds (s : State) : State :=
  { s with contexts := s.contexts.map fun c =>
      let stop := fun (x : CopySlot) => if x.state = .building ∨ x.state = .verifying then { x with state := .stopped } else x
      (c.1, { c.2 with slotA := stop c.2.slotA, slotB := stop c.2.slotB }) }

/-- QUIESCE (3) or QUIESCE_NOW (4) taken in Serving, with the tasks aborted. -/
def beginQuiesce (s : State) (code : Nat) : State × Nat :=
  let first := s.quiesce = 0
  let s := { s.setNum 0x1000_02 code with
    quiesce := if code = 3 then 1 else 2
    quiesceAt := if first then s.up else s.quiesceAt }
  abortTasks (stopBuilds s) fun t => code == 4 || t.cls == .fill

/-- The conditions of SERVE, with the cause of R435 that refuses it. -/
def serveCause (s : State) : Nat :=
  if nodeId s = 0 then 3 else if s.num 0x2000_03 = 0 then 2 else if s.num 0x0020_01 = 0 then 4 else 0

/-- The states that accept a command (R428). -/
def acceptedIn (code : Nat) (n : NodeState) : Bool :=
  match code with
  | 1 => n == .quiesced
  | 2 => n == .configuring || n == .quiesced || n == .inspect
  | 3 => n == .configuring || n == .serving || n == .inspect
  | 4 => n == .serving
  | 5 => n == .quiesced
  | 6 => n != .safe
  | 7 => n == .configuring || n == .quiesced || n == .inspect
  | _ => false

/-- A command judged: by its code, by a pending transition, by the state, by the conditions (R433, R435). -/
def judgeCommand (s : State) (code : Nat) : Nat :=
  if code = 0 ∨ 7 < code then 7
  else if s.quiesce ≠ 0 then (if code = 1 ∨ code = 5 ∨ code = 7 then 6 else 0)
  else if !acceptedIn code s.node then 1
  else if code = 2 then serveCause s
  else if code = 5 ∧ s.num 0xC010_02 = 0 then 5
  else 0

/-- The regions of every stack laid out anew on entering Serving (R368). -/
def layRegions (s : State) : State := modMaint s fun m => { m with layout := some (s.num 0x5000_04, s.num 0x6000_03) }

/-- The effect of an accepted command; RESTART follows its response. -/
def runCommand (s : State) (code : Nat) : State :=
  match code with
  | 1 => moveNode s .configuring 1
  | 2 =>
    if s.quiesce ≠ 0 then { s.setNum 0x1000_02 0 with quiesce := 0 } else moveNode (layRegions s) .serving 2
  | 3 =>
    if s.quiesce ≠ 0 then s
    else if s.node = .serving then (beginQuiesce s 3).1 else moveNode s .quiesced 3
  | 4 => if s.quiesce = 2 then s else (beginQuiesce s 4).1
  | 5 => moveNode s .inspect 5
  | 6 => enterSafe s 2
  | _ => s

/-- A node command: its cause of R435, kept in LAST_RESULT, and its effect. -/
def nodeCommand (s : State) (code : Nat) : Nat × State :=
  let c := judgeCommand s code
  let s := s.setNum 0x1000_03 c
  (c, if c = 0 then runCommand s code else s)

/-- QUIESCE_COMPLETE (R431): no task remains admitted. -/
def execQuiesceComplete (s : State) : Host.Outcome State Fault Refusal :=
  if s.node = .serving ∧ s.quiesce ≠ 0 ∧ s.tasks.isEmpty then
    let cmd := s.num 0x1000_02
    .next (moveNode ({ s.setNum 0x1000_02 0 with quiesce := 0 }) .quiesced cmd)
  else .next s

/-- QUIESCE_FORCED (R432): a QUIESCE that has not ended within QUIESCE_LIMIT frames goes on as QUIESCE_NOW. -/
def execQuiesceForced (s : State) : Host.Outcome State Fault Refusal :=
  if s.node = .serving ∧ s.quiesce = 1 ∧ s.num 0x1000_07 * frameTicks ≤ s.since s.quiesceAt then
    let (s, n) := beginQuiesce s 4
    .next (s.raise 0x1001 0xFF (leBytes 4 n))
  else .next s

/-! ### Expert access and defaults -/

/-- The effect of a write of EXPERT_ENABLE in Configuring (R436). -/
def expertEnable (s : State) (v : Nat) : State :=
  if v = 0 then (if s.flag 0x1F00_02 then (s.setNum 0x1F00_02 0).raise 0x1004 0xFF (leBytes 1 0) else s)
  else ((s.setNum 0x1F00_02 1).inc 0x1F00_03).raise 0x1004 0xFF (leBytes 1 1)

/-- Entries that FACTORY_DEFAULTS returns to their default (R443). -/
def defaultable (oid : Nat) : Bool :=
  match findDef (oid / 256) (oid % 256) with
  | some d => d.persist && (d.acc == .rw || d.acc == .cw)
  | none => false

/-- FACTORY_DEFAULTS: the values, whose records go in the compaction that follows (R438, R443). -/
def factoryValues (s : State) : State :=
  let vals := s.store.values.filter fun e => !defaultable e.1
  let st := { s.store with
    values := vals
    bankSeq := (s.store.bankSeq + 1) % 2 ^ 32
    used := Config.bankHeader + vals.foldl (fun a e => a + recordSize e.1 e.2) 0 }
  { s with objs := s.objs.filter fun e => !defaultable e.1, store := if s.store.usable then st else s.store }

/-! ### Service commands (R318, R322) -/

/-- CANCEL: its LAST_RESULT. A request without a task ends at once; one that runs ends at its next batch boundary. -/
def cancelRequest (s : State) (id : Nat) : Nat × State :=
  match s.requests.find? fun r => r.id == id with
  | none => (if s.journal.done.any fun d => d.1 == id then 2 else 1, s)
  | some r =>
    if s.tasks.any fun t => t.jsn == r.jsn then (0, modRequest s r.jsn fun r => { r with cancel := true })
    else (0, rearmBusy (endRequest s r.jsn 16 0 0 3))

/-- CLOSE: its LAST_RESULT. A session whose CLOSE is pending is closed already: a further one is accepted and changes nothing. -/
def closeSession (s : State) (tag : Nat) : Nat × State :=
  match if tag = 0 then none else (findSession s tag).or (s.sessions.find? fun x => x.tag == tag) with
  | none => (1, s)
  | some x => (0, if x.state = .active then modSession s x.num fun x => { x with closing := true } else freeSession s x)

/-- SVC_CMD with the last SVC_ARG. -/
def serviceCommand (s : State) (cmd : Nat) : Nat × State :=
  if s.node ≠ .serving ∧ s.node ≠ .quiesced then (3, s.setNum 0x6030_03 3)
  else
    let (r, s) := if cmd = 1 then cancelRequest s (s.num 0x6030_01) else closeSession s (s.num 0x6030_01)
    (r, s.setNum 0x6030_03 r)

/-! ### Journal commands (R495, R501, R507) -/

def strictAscending : List Nat → Bool
  | a :: b :: l => a < b && strictAscending (b :: l)
  | _ => true

/-- SETTLE with the last JOURNAL_ARG: its LAST_RESULT. -/
def settleCommand (s : State) : Nat × State :=
  let arg := s.blob 0xB110_01
  let js := (pieces 4 (arg.length / 4) arg).map leNat
  if s.node ≠ .configuring ∧ s.node ≠ .quiesced then (1, s)
  else if s.journal.settled then (3, s)
  else if arg.length % 4 ≠ 0 ∨ !strictAscending js then (4, s)
  else (0, settleRecords s js)

/-- One adopted record (R501): committed as the device's own with a new JSN; what the session of its tag makes of it. -/
def adoptRecord (s : State) (part : JPart) (o : JEntry) : State :=
  let r := requestOf (entriesOf part o.jsn) o
  let seed := openSeed o
  let jsn := s.journal.nextJsn
  let ctx := ((s.contexts.filter fun c =>
    (c.2.state == .registered || c.2.state == .serving) && c.2.model == r.model && c.2.stage == r.stage).head?).map Prod.fst
  let n := ctx.getD 0xFFFF
  let r := { r with jsn := jsn, context := n, adopted := true, mirrored := false, session := none, commitStamp := s.now,
                    phase := if ctx.isNone then .held else .waiting, wasReplayed := true, rebased := false,
                    replayed := if r.tokens.isEmpty then none else some 0 }
  let s := modJournal s fun j => { j with nextJsn := (jsn + 1) % 2 ^ 32, highest := some (max r.id (j.highest.getD 0)) }
  let (s, num, mismatch) := if r.tag = 0 then (s, none, false) else
    match findSession s r.tag with
    | some x => (modSession s x.num fun x => { x with state := .active, lastAt := s.up }, some x.num, ctx.isSome && x.context != n)
    | none =>
      match openSession s r.tag n seed with
      | none => (tableFull s r.id, none, false)
      | some (s, k) =>
        let own := (sessionHeads part).find? fun h => fieldAt h.payload 0 8 == r.tag
        match own with
        | none => (s, some k, false)
        | some h =>
          let old := sessionOf part h s.up
          let rec' := s.journal.nextJsn
          let s := modJournal s fun j => { j with nextJsn := (rec' + 1) % 2 ^ 32 }
          let s := jNote s ([mkEntry 13 0 0 rec' (leBytes 8 r.tag ++ leBytes 8 seed ++ leBytes 4 r.model ++ leBytes 2 n
              ++ leBytes 2 k ++ leBytes 1 r.stage)] ++ historyEntries rec' 0 old.history
            ++ (recordLineage part h.jsn).map fun l => mkEntry 9 0 0 rec' (leBytes 4 l.1 ++ leBytes 4 l.2))
          (modSession s k fun x => { x with history := old.history, record := some rec' }, some k, false)
  let r := { r with session := num }
  let first := (r.copies.head?.map Prod.snd).getD 0
  let later := ((r.copies.drop 1).map fun c => mkEntry 4 0 0 jsn (leBytes 4 c.1 ++ leBytes 4 c.2))
    ++ (match r.prefilled with
      | some p => [mkEntry 5 0 0 jsn (leBytes 4 p.1 ++ leBytes 4 p.2.1 ++ leBytes 4 p.2.2)]
      | none => [])
    ++ ((chunks12 (r.tokens.length + 1) r.tokens).zipIdx.map fun c =>
        mkEntry 3 0 c.1.length jsn (leBytes 4 (12 * c.2) ++ (c.1.map (leBytes 4)).flatten))
    ++ (match r.acked with
      | some a => [mkEntry 6 0 0 jsn (leBytes 4 a)]
      | none => [])
  let s := jNote (noteBusy { s with requests := s.requests ++ [r] }) (later ++ commitEntries r seed first (r.startPos != 0))
  if mismatch then endRequest s jsn 14 0 0 0
  else if r.tag ≠ 0 ∧ num.isNone then endRequest s jsn 4 0 307200 0
  else if r.notReplayable then endRequest s jsn 18 0 0 0
  else s

/-- ADOPT with the last JOURNAL_ARG: its LAST_RESULT (R501, R507). -/
def adoptCommand (s : State) : Nat × State :=
  let arg := s.blob 0xB110_01
  let ord := fieldAt arg 0 1
  if s.node ≠ .configuring ∧ s.node ≠ .serving ∧ s.node ≠ .quiesced then (1, s)
  else if arg.length ≠ 1 then (4, s)
  else if ord ≠ mirrorFrom s ∨ ord = 255 then (2, s)
  else
    let part := s.journal.mirror
    let opens := openRecords part
    let s := modGang s fun g => { g with refuseFrom := some ord }
    let s := opens.foldl (fun s o => adoptRecord s part o) s
    let list := (opens.map fun o => o.jsn).mergeSort
    let s := (s.setNum 0xB120_01 ord).setNum 0xB120_02 list.length
    let s := s.setBlob 0xB120_03 ((list.map (leBytes 4)).flatten)
    let s := (modJournal s fun j => { j with mirror := JPart.empty }).setNum 0xA000_06 0xFF
    (0, settleAll (refreshNeeded (s.raise 0xB040 0xFF (leBytes 1 ord ++ leBytes 4 list.length))))

/-- JOURNAL_CMD. -/
def journalCommand (s : State) (cmd : Nat) : Nat × State :=
  let (r, s) := if cmd = 1 then settleCommand s else adoptCommand s
  (r, s.setNum 0xB110_03 r)

end Sys2Proof.Machine
end

