-- ==== Sys2Proof/Machine/Requests.lean ====
section
/-! DEFINITION. Requests.lean: service requests from their segments to the journal (R292-R301, R303-R306, R400, R468, R470,
R484), with the meanings of SVC_REQ and SEGMENT_TIMEOUT. -/

namespace Sys2Proof.Machine

/-- The link acknowledgement of a frame; a held frame has had its own on receipt (R397). -/
def ackIf (live : Bool) (s : State) (seq type status : Nat) : State := if live then sendAck s seq type status else s

/-! ### The request header (R294, R296) -/

/-- FP32 bits that are finite and above 0. -/
def positive32 (v : Nat) : Bool := 0 < v && v < 0x7F800000

/-- Sampling fields of a header by SERVICE and SAMPLE. -/
def samplingOk (h : Bytes) : Bool :=
  let gen := fieldAt h 16 1 == 1
  let smp := fieldAt h 19 1
  (smp ≤ if gen then 2 else 0)
    && (if smp = 1 then 1 ≤ fieldAt h 22 2 && fieldAt h 22 2 ≤ 256 else fieldAt h 22 2 == 0)
    && (if smp = 1 ∨ smp = 2 then positive32 (fieldAt h 24 4) else fieldAt h 24 4 == 0)
    && (if gen then 1 ≤ fieldAt h 28 4 && fieldAt h 28 4 ≤ 65536 else fieldAt h 28 4 == 0)

/-- Times, cell and beam of a header by SERVICE. -/
def targetsOk (h : Bytes) : Bool :=
  let svc := fieldAt h 16 1
  (if svc = 2 then fieldAt h 32 8 != 0 && (stampTicks (fieldAt h 32 8)).isSome else fieldAt h 32 8 == 0 && fieldAt h 40 4 != 0)
    && (svc == 1 || fieldAt h 44 4 == 0)
    && (svc == 2 || (fieldAt h 88 4 == 0 && fieldAt h 92 2 == 0))

/-- The input of a header with its INPUT: the kinds of R292, an activation format, the length. -/
def inputOk (h data : Bytes) : Bool :=
  let svc := fieldAt h 16 1
  let kind := fieldAt h 94 1
  let fmt := fieldAt h 95 1
  let n := fieldAt h 96 4
  (if svc = 2 then kind == 1 || kind == 2 else kind == 0)
    && (if kind = 1 then 1 ≤ fmt && fmt ≤ 7 && n % 128 == 0 else fmt == 0)
    && data.length == inputBytes kind fmt n

/-- A request that no rule of R296 calls malformed, the segments' agreement and the STAGE apart. -/
def requestOk (h data : Bytes) : Bool :=
  let svc := fieldAt h 16 1
  let tag := fieldAt h 8 8
  fieldAt h 0 8 != 0 && 1 ≤ svc && svc ≤ 4 && fieldAt h 17 1 < 4 && fieldAt h 20 2 < 4096 && (h.drop 100).all (· == 0)
    && (svc != 1 || tag != 0) && (svc != 2 || tag == 0)
    && samplingOk h && targetsOk h && inputOk h data

/-! ### Segments (R295) -/

/-- The header that all segments of a request share, with IN_LENGTH `n`. -/
def sharedHeader (h : Bytes) (n : Nat) : Bytes :=
  h.take 17 ++ leBytes 1 (fieldAt h 17 1 - if bitOf (fieldAt h 17 1) 1 then 2 else 0) ++ [0] ++ (h.drop 19).take 77 ++ leBytes 4 n
    ++ (h.drop 100).take 28

/-- Whole elements of the kinds that a segment alone can show. -/
def segmentFits (h body : Bytes) : Bool := fieldAt h 94 1 == 1 || body.length == 4 * fieldAt h 96 4

/-- A segment joined to those before it. -/
def joinSegment (before : Option SegIn) (h body : Bytes) (now : Nat) : SegIn :=
  let n := fieldAt h 96 4
  let seg := fieldAt h 18 1
  match before with
  | none =>
    { requestId := fieldAt h 0 8, header := sharedHeader h n, bad := seg != 0 || !segmentFits h body, got := 1, data := body,
      since := now }
  | some q =>
    let differs := sharedHeader h 0 != sharedHeader q.header 0
    { q with header := sharedHeader q.header (fieldAt q.header 96 4 + n), got := q.got + 1, data := q.data ++ body,
             bad := q.bad || differs || seg != q.got || 63 < seg || !segmentFits h body }

def dropSegs (s : State) (id : Nat) : State :=
  { s with ring := { s.ring with segs := s.ring.segs.filter fun q => q.requestId != id } }

/-! ### Known identifiers (R301) -/

inductive KnownId
  | fresh
  | incomplete (jsn : Nat) (owed : Bool)
  | completed (result : Nat)
  | stale
  deriving DecidableEq, Repr

def knownId (s : State) (id : Nat) : KnownId :=
  match s.requests.find? fun r => r.id == id with
  | some r => .incomplete r.jsn r.ackOwed.isSome
  | none =>
    match s.journal.done.find? fun d => d.1 == id with
    | some d => .completed d.2
    | none => if s.journal.highest.any (fun m => id ≤ m) then .stale else .fresh

/-- The one frame that answers a repeat of a completed request (R298, R301). -/
def alreadyDone (s : State) (id cause : Nat) : State :=
  sendConfirmed s 0x41 []
    (leBytes 8 id ++ leBytes 4 0 ++ leBytes 2 0 ++ leBytes 1 17 ++ leBytes 1 cause ++ leBytes 4 0 ++ leBytes 4 0 ++ leBytes 1 1
      ++ leBytes 3 0 ++ leBytes 8 s.stamp ++ List.replicate 28 0#8)

/-- A new request is not accepted: outside Serving, while quiescing (R431), or without the mirror it requires (R470). -/
def refusesNew (s : State) : Bool :=
  s.node != .serving || s.quiesce != 0 || (buddy s != 255 && s.flag 0xA000_04 && mirrorState s != 2)

/-! ### Acceptance of a whole request (R303-R306, R484) -/

/-- What a request comes to at its commit, with the session it uses. -/
structure Acceptance where
  session : Option Nat
  result : Nat
  cause : Nat
  retry : Nat
  deriving DecidableEq, Repr

def refusal (result cause retry : Nat) : Acceptance := { session := none, result := result, cause := cause, retry := retry }

/-- Ticks to the certificate of the running request of a session; free where it has none (log entry 4). -/
def sessionRetry (s : State) (n : Nat) : Nat × State :=
  let running := s.requests.find? fun r => r.session == some n
  match running.bind fun r => s.tasks.find? fun t => t.jsn == r.jsn with
  | some t => (((t.cert + stampPeriod - s.now) % stampPeriod) % 2 ^ 32, s)
  | none => s.drawNat (2 ^ 32)

/-- The session of a request with a tag (R303, R305, R306); none yet while a session of the tag has a pending CLOSE
(R318). -/
def joinSession (s : State) (h : Bytes) (context : Nat) : Acceptance × State :=
  let tag := fieldAt h 8 8
  match findSession s tag with
  | some x =>
    if x.context ≠ context then (refusal 14 0 0, s)
    else if s.num 0x6000_05 < (s.requests.filter fun r => r.session == some x.num).length then
      let (t, s) := sessionRetry s x.num
      (refusal 5 0 t, s)
    else ({ session := some x.num, result := 0, cause := 0, retry := 0 },
      modSession s x.num fun x => { x with state := .active, lastAt := s.up })
  | none =>
    if s.sessions.any fun x => x.tag == tag then
      if s.num 0x6000_05 < (s.requests.filter fun r => r.tag == tag && r.session.isNone).length then
        let (t, s) := s.drawNat (2 ^ 32)
        (refusal 5 0 t, s)
      else ({ session := none, result := 0, cause := 0, retry := 0 }, s)
    else
    match openSession s tag context (seedOf (fieldAt h 48 8) tag (fieldAt h 0 8)) with
    | some (s, k) => ({ session := some k, result := 0, cause := 0, retry := 0 }, s)
    | none =>
      (refusal 4 0 307200, tableFull s (fieldAt h 0 8))

/-- Ticks to drain the admission queue at the rate of R277 (R279). -/
def drainTicks (s : State) : Nat := max 307200 (ceilDiv (waitingCount s * 6144) 100)

/-- The verdict on a request at its commit: malformed (R296), its context (R184), its session, the admission queue (R277). -/
def judgeRequest (s : State) (h : Bytes) (bad : Bool) : Acceptance × State :=
  let ctx := fieldAt h 20 2 % 4096
  if bad then (refusal 6 0 0, s)
  else if (getCtx s ctx).state ≠ .serving then (refusal 3 0 0, s)
  else if s.num 0x2200_09 ≤ waitingCount s then (refusal 2 8 (drainTicks s), countRefusal s 8)
  else if fieldAt h 16 1 = 2 ∨ fieldAt h 8 8 = 0 then ({ session := none, result := 0, cause := 0, retry := 0 }, s)
  else joinSession s h ctx

/-- The request that a header and its input make. -/
def newRequest (s : State) (h data : Bytes) (session : Option Nat) (jsn : Nat) : Request :=
  let ctx := fieldAt h 20 2 % 4096
  let c := getCtx s ctx
  { jsn := jsn, id := fieldAt h 0 8, tag := fieldAt h 8 8, header := h, input := data, context := ctx, model := c.model,
    stage := c.stage, session := session, phase := .waiting, tokens := [], replayed := none, wasReplayed := false, acked := none,
    startPos := ((session.bind fun n => s.sessions.find? fun x => x.num == n).map fun x => x.history.length).getD 0,
    copies := [(0, c.currentCopy.getD 0)], prefilled := none, notReplayable := false, adopted := false,
    mirrored := buddy s != 255 && mirrorState s == 2, commitStamp := s.now, targetBase := s.now, rebased := false, pages := 0,
    cancel := false, sentAcked := false, ackOwed := none, damagedAt := none, rebuilt := false }

/-- The acknowledgement of R31: JOURNALLED at once, or owed until the buddy holds the record (R468) and while MRAM writes are held
(R518); without the mirror that BUDDY names the request counts as a lapse (R470). -/
def journalled (s : State) (jsn seq : Nat) : State :=
  let owed := fun (s : State) => modRequest s jsn fun r => { r with ackOwed := some seq }
  if buddy s ≠ 255 ∧ mirrorState s = 2 then owed s
  else
    let s := if buddy s = 255 then s else s.inc 0xA000_0C
    if mramHeld s then owed s else sendAck s seq 0x40 5

/-- The acknowledgements that the hold of MRAM writes has kept back (R518). -/
def releaseAcks (s : State) : State :=
  if mramHeld s then s else
  (s.requests.filter fun r => r.ackOwed.isSome && !awaitsBuddy s r.jsn).foldl (fun s r =>
    sendAck (modRequest s r.jsn fun r => { r with ackOwed := none }) (r.ackOwed.getD 0) 0x40 5) s

/-- A new request committed (R484) and acknowledged, then completed at once where its verdict says so. Records that the commit has
pushed out no longer hold their copies (R210). -/
def commitRequest (s0 : State) (h data : Bytes) (bad : Bool) (seq : Nat) (live : Bool) : State :=
  let (v, s) := judgeRequest s0 h bad
  let jsn := s.journal.nextJsn
  let r := newRequest s h data v.session jsn
  let own := v.session.bind fun n => s.sessions.find? fun x => x.num == n
  let seed := match own with
    | some x => x.seed
    | none => seedOf (fieldAt h 48 8) r.tag r.id
  let cold := own.any fun x => !x.history.isEmpty && x.lineage.isEmpty
  match jAppendAll s (commitEntries r seed (r.copies.head?.map Prod.snd |>.getD 0) cold) with
  | none => ackIf live (s0.raise 0xB022 0xFF (leBytes 8 r.id)) seq 0x40 4
  | some s =>
    let s := modJournal s fun j => { j with nextJsn := (jsn + 1) % 2 ^ 32, highest := some (max r.id (j.highest.getD 0)) }
    let s := settleAll ({ s with requests := s.requests ++ [r] }.inc 0x6010_04)
    let s := journalled (ackIf live s seq 0x40 0) jsn seq
    if v.result = 0 then noteBusy s else endRequest s jsn v.result v.cause v.retry 0

/-- The last segment of a request has come (R295, R301, R400). -/
def wholeRequest (s : State) (q : SegIn) (seq : Nat) (live : Bool) : State :=
  let h := q.header
  match knownId s q.requestId with
  | .incomplete jsn owed =>
    let s := ackIf live (s.inc 0x6010_09) seq 0x40 0
    if owed then modRequest s jsn fun r => { r with ackOwed := some seq } else sendAck s seq 0x40 5
  | .completed result => alreadyDone (sendAck (ackIf live (s.inc 0x6010_09) seq 0x40 0) seq 0x40 5) q.requestId result
  | .stale => if refusesNew s then ackIf live s seq 0x40 4 else commitRequest (s.inc 0x6010_09) h q.data true seq live
  | .fresh =>
    if refusesNew s then ackIf live s seq 0x40 4
    else
      let stage := (getCtx s (fieldAt h 20 2 % 4096)).stage
      commitRequest s h q.data (q.bad || !requestOk h q.data || stage != 0) seq live

/-- A delivered segment (R295, R400, R404). -/
def serviceIn (s : State) (seq : Nat) (live : Bool) (payload : Bytes) : State :=
  let h := payload.take 128
  let id := fieldAt h 0 8
  if !s.sysUp then ackIf live s seq 0x40 4
  else if payload.length < 128 then ackIf live (s.inc 0x1100_0E) seq 0x40 2
  else if refusesNew s && (knownId s id == .fresh || knownId s id == .stale) then ackIf live (dropSegs s id) seq 0x40 4
  else
    let q := joinSegment (s.ring.segs.find? fun q => q.requestId == id) h (payload.drop 128) s.up
    let s := dropSegs s id
    if bitOf (fieldAt h 17 1) 1 then ackIf live { s with ring := { s.ring with segs := s.ring.segs ++ [q] } } seq 0x40 0
    else wholeRequest s q seq live

/-- SVC_REQ (R400): a segment in order, with its acknowledgement. -/
def execSvcReq (seq : BitVec 32) (payload : Bytes) (s : State) : Host.Outcome State Fault Refusal :=
  .next (serviceIn (heard s) seq.toNat true payload)

/-- SEGMENT_TIMEOUT (R295): 6000h.06 frames since the first segment of an incomplete request. -/
def execSegmentTimeout (requestId : BitVec 64) (s : State) : Host.Outcome State Fault Refusal :=
  match s.ring.segs.find? fun q => q.requestId == requestId.toNat with
  | none => .next s
  | some q =>
    if s.num 0x6000_06 * frameTicks ≤ s.since q.since then .next ((dropSegs s q.requestId).inc 0x6010_0A) else .next s

end Sys2Proof.Machine
end

