-- ==== Sys2Proof/Machine/Recovery.lean ====
section
/-! DEFINITION. Recovery.lean: loss of power, dips, reset levels, a supervisor mismatch, relocation, life data and trim images
(R39, R486, R493, R497-R499, R518, R553, R599), with the meanings of their rows. -/

namespace Sys2Proof.Machine

/-! ### Life data (R39) and trim images (R553) -/

def hourTicks : Nat := 3600 * second

/-- Whole hours move from the model's tick counts into life data, which is saved. -/
def saveLife (s : State) : State :=
  let l := s.life
  let s := s.addSaved 0x0030_01 (l.powered / hourTicks)
  let s := s.addSaved 0x0030_02 (l.serving / hourTicks)
  let s := (s.addSaved 0x0030_05 (l.light / hourTicks)).save 0x0030_04
  { s with life := { powered := l.powered % hourTicks, serving := l.serving % hourTicks, light := l.light % hourTicks,
                     savedAt := s.up } }

/-- SYS runs: not in Sealed, Safe or reset. -/
def sysRuns (s : State) : Bool := s.sysUp && s.node != .sealed && s.refclk

/-- LIFE_DATA_SAVE: once every 60 minutes. -/
def execLifeDataSave (s : State) : Host.Outcome State Fault Refusal :=
  if sysRuns s ∧ hourTicks ≤ s.since s.life.savedAt then .next (saveLife s) else .next s

/-- Ticks spent in Serving since delivery. -/
def servingTicks (s : State) : Nat := s.num 0x0030_02 * hourTicks + s.life.serving

/-- Every ring and region heater code of a pair, as the outputs show them. -/
def trimCodes (s : State) (n : Nat) : List (Nat × Nat) :=
  s.analog.outs.filterMap fun o =>
    let k := o.1
    let f := if k < 1024 then (k - 16) / 16 else (k - 1024) / 66560
    if 16 ≤ k ∧ (k < 528 ∨ 1024 ≤ k) ∧ f / 4 = n then some (k, o.2.code) else none

/-- TRIM_SAVE: once per 3,600 s of Serving the image of every pair goes into the older of its two copies. -/
def execTrimSave (s : State) : Host.Outcome State Fault Refusal :=
  if s.node ≠ .serving ∨ !sysRuns s ∨ servingTicks s < s.analog.trimAt + hourTicks then .next s else
  let img := fun (n : Nat) =>
    ({ pair := n, setpoint := s.num 0x7020_02, codes := trimCodes s n, stamp := s.stamp, whole := true } : TrimImage)
  let s := modAnalog s fun a =>
    { a with trimAt := servingTicks s
             trims := ((List.range 8).map fun n =>
               let old := a.trims.filter fun t => t.pair == n
               old.drop (old.length - 1) ++ [img n]).flatten }
  .next (s.setNum 0x9130_05 s.stamp)

/-! ### Loss of power (R493, R516, R601) -/

/-- POWER_FAIL: PWRFAIL_N has fallen. In Sealed the boot halts and nothing is written; else the sequence runs to its end. -/
def execPowerFail (s : State) : Host.Outcome State Fault Refusal :=
  if s.power.failLow then .next s
  else if s.sysHeld then .next (modPower s fun p => { p with failLow := true })
  else if s.node = .sealed then
    .next { modPower s (fun p => { p with failLow := true, failing := true }) with sysHeld := true }
  else
    let fall := s.stamp
    let s := { s with quiesce := 0 }
    let s := modPower s fun p => { p with failLow := true, failing := true, failOwed := true }
    let s := s.tasks.foldl (fun s t => abortTask s t.num .held 256) s
    let s := settleLight ((List.range 32).foldl stopFacet s)
    let s := (jAppend s (mkEntry 11 0 1 0 (leBytes 8 fall))).getD s
    let (t, s) := s.drawNat 1001
    let s := ((s.addSaved 0xB200_01 1).setSaved 0xB200_02 fall).setSaved 0xB200_03 t
    .next { saveLife s with sysHeld := true }

/-- POWER_RETURN: PWRFAIL_N has been high for 10 ms while the supplies hold. A sequence that has run ends in a restart; a device
that waits in Sealed goes on. -/
def execPowerReturn (s : State) : Host.Outcome State Fault Refusal :=
  if !s.power.failLow then .next s
  else
    let high := modPower s fun p => { p with failLow := false }
    if s.power.failing then .next (restartDevice high 2) else .next high

/-! ### Dips (R497, R498, R518) -/

/-- The facets whose passes a dip stops. -/
def dipPasses (s : State) : Nat → List Nat := fun n =>
  if 96 ≤ n then [n - 96] else if 64 ≤ n then [n - 64]
  else if n < 21 then []
  else if n < 37 then (List.range 4).map (4 * ((n - 21) % 8) + ·)
  else if n < 39 then (List.range 16).map (16 * (n - 37) + ·)
  else
    let lc : Fin 2 := if n = 39 then 0 else 1
    (List.range 32).filter fun f => s.light.amps[lc].testBit (2 * f) || s.light.amps[lc].testBit (2 * f + 1)

/-- Ring loops hold too, but for an LC rail's dip. -/
def dipLoops (n : Nat) : Bool := n != 39 && n != 40

/-- The supply is watched: its rail is good, its domain is on. -/
def railWatched (s : State) (u : Supply) : Bool :=
  match u with
  | .rail r => railGood s r.val
  | .digital f => !s.power.digOff.testBit f.val && railGood s (21 + f.val / 4)
  | .analogue f => !s.power.anaOff.testBit f.val && railGood s (29 + f.val / 4)

/-- A dip in progress holds the ring loops of facet f. -/
def loopsHeld (s : State) (f : Nat) : Bool := s.power.dips.any fun d => dipLoops d.1 && (dipPasses s d.1).contains f

/-- The loops of a facet enter HOLD for a dip (R337), each with the state it had. -/
def holdLoops (x : Facet) : Facet :=
  let g := fun (l : RingLoop) => if l.loop = 0 then l else { l with before := l.loop, loop := 3 }
  { x with optic := { x.optic with base := g x.optic.base, rings := x.optic.rings.map fun r => (r.1, g r.2) } }

/-- The dip is over: each loop is back in its state (R337). -/
def freeLoops (x : Facet) : Facet :=
  let g := fun (l : RingLoop) => if l.loop = 0 then l else { l with before := 0, loop := l.before }
  { x with optic := { x.optic with base := g x.optic.base, rings := x.optic.rings.map fun r => (r.1, g r.2) } }

/-- SUPPLY_DIP: below the warning level, above the reset level. Ignored during the power-fail sequence and in Safe. -/
def execSupplyDip (supply : Supply) (s : State) : Host.Outcome State Fault Refusal :=
  let n := supplyNum supply
  if s.power.failing ∨ s.node = .safe ∨ !railWatched s supply ∨ s.dipping n then .next s else
  let s := match supply with
    | .rail r => (setRail s r.val 3).inc (fam 0x8100_04 r.val)
    | _ => s
  let held := loopsHeld s
  let s := modPower s fun p => { p with dips := p.dips ++ [(n, s.up)] }
  .next ((dipPasses s n).foldl (fun s f =>
    let s := modFacet (stopFacet s f) f fun (x : Facet) => { x with dipping := true }
    if dipLoops n && !held f then modFacet s f holdLoops else s) s)

/-- The dip of a supply is over: freezes are released, and facets that no other dip stops resume, or relock where rings left
capture. -/
def dipOver (s : State) (n ticks : Nat) (lost : List (FacetId × Fin 520 × Fin 128)) : State :=
  let passes := dipPasses s n
  let held := loopsHeld s
  let s := modPower s fun p => { p with dips := p.dips.filter fun d => d.1 != n }
  let s := releaseFreeze s
  let still := (s.power.dips.map fun d => dipPasses s d.1).flatten
  ((List.range 32).filter fun f => passes.contains f || ((facetN s f).dipping && !still.contains f)).foldl (fun s f =>
    let s := if s.power.long.contains n then s else chargeFacet s f 0 ticks
    let s := if held f && !loopsHeld s f then modFacet s f freeLoops else s
    if still.contains f then s else
    let s := modFacet s f fun (x : Facet) => { x with dipping := false }
    let mine := lost.filter fun l => l.1.val == f
    let s := mine.foldl (fun s l => modFacet s f fun x =>
      setRing x l.2.1.val l.2.2.val { ringLoop x l.2.1.val l.2.2.val with loop := 3, ident := 0, rounds := 0 }) s
    if mine.isEmpty then resumeFacet (if (facetN s f).optic.relock.isSome then predictRings s f else s) f
    else startRelock s f 16 true) s

/-- DIP_END: the rail has been above warning plus hysteresis for 10 µs. `micros` is the dip's length, `lost` the rings that lie
outside capture. -/
def execDipEnd (supply : Supply) (micros : Nat) (lost : List (FacetId × Fin 520 × Fin 128)) (s : State) :
    Host.Outcome State Fault Refusal :=
  let n := supplyNum supply
  if s.power.failing ∨ !s.dipping n then .next s else
  let s := match supply with
    | .rail r => setRail s r.val 2
    | _ => s
  let s := ((s.inc 0xB200_04).raiseTo 0xB200_05 (micros % 2 ^ 32)).faultRetried
  let s := releaseAcks (dipOver s n (ceilDiv (micros * 768) 25) lost)
  .next (modPower s fun p => { p with long := p.long.filter fun k => k != n })

/-- LONG_DIP: the dip has reached DIP_FILL_LIMIT. -/
def execLongDip (supply : Supply) (s : State) : Host.Outcome State Fault Refusal :=
  let n := supplyNum supply
  match s.power.dips.find? fun d => d.1 == n with
  | none => .next s
  | some d =>
    let micros := s.since d.2 * 25 / 768
    if s.power.failing ∨ s.power.long.contains n ∨ micros < s.num 0xB200_08 then .next s else
    let s := modPower s fun p => { p with long := p.long ++ [n] }
    let s := (s.inc 0xB200_06).raise 0xB031 0xFF (leBytes 1 n ++ leBytes 4 micros)
    let on := ((dipPasses s n).map (tasksOn s)).flatten.dedup
    let s := ((on.filterMap (findTask s)).filter fun t => t.cls == .fill).foldl
      (fun s t => abortTask s t.num .replay 256) s
    .next (settleAllFacets (recertify s on 2 false false))

/-- RESET_LEVEL_CROSSING: the dies that the supply feeds are held in reset. During the power-fail sequence it is counted only. -/
def execResetLevelCrossing (supply : Supply) (s : State) : Host.Outcome State Fault Refusal :=
  let n := supplyNum supply
  if !railWatched s supply then .next s else
  let s := s.inc 0xB200_07
  if s.power.failing then .next s else
  let s := dipOver s n 0 []
  match supply with
  | .rail r =>
    if r.val < 2 then .next (restartDevice s 2)
    else if r.val < 4 then
      let s := restartDevice s 4
      .next { s with ring := { s.ring with remoteReset := 0 } }
    else .next (loseRail (setRail s r.val 4) r.val)
  | .digital f => .next (loseDomain s f.val true)
  | .analogue f => .next (loseDomain s f.val false)

/-! ### Supervisors and relocation -/

/-- SUPERVISOR_MISMATCH (R499): the last-resort sequencer drives the device to Safe with cause 1. -/
def execSupervisorMismatch (s : State) : Host.Outcome State Fault Refusal :=
  if s.sysHeld then .next s else .next (enterSafe s 1)

/-- JOURNAL_RELOCATE (R486): live entries at the oldest positions move to the head. -/
def execJournalRelocate (count : Nat) (s : State) : Host.Outcome State Fault Refusal :=
  if !sysRuns s then .next s else
  let p := s.journal.own
  let age := fun (pos : Nat) => (pos + jPositions - p.head) % jPositions
  let old := ((p.entries.filter fun e => e.2.live).mergeSort fun a b => age a.1 ≤ age b.1).take count
  let (s, moved) := old.foldl (fun (a : State × List Nat) e => match jAppend a.1 e.2 with
    | some s => (s, a.2 ++ [e.1])
    | none => a) (s, [])
  let s := modJournal s fun j => { j with own := jDrop j.own moved }
  let s := (runsOf moved.mergeSort).foldl (fun s r => (jAppend s (mkEntry 10 0 r.2 0 (leBytes 4 r.1))).getD s) s
  .next (s.add 0xB100_0C moved.length)

end Sys2Proof.Machine
end

