-- ==== Sys2Proof/Machine/FrameStart.lean ====
section
/-! DEFINITION. FrameStart.lean: the work of a frame start (R258, R305, R328, R331, R345, R485, R522, R525-R527, R539). -/

namespace Sys2Proof.Machine

/-- IDLE and EVICTED sessions without a request for IDLE_LIMIT frames are reclaimed (R305). -/
def reclaimSessions (s : State) : State :=
  (s.sessions.filter fun x => x.state != .active && s.num 0x6000_02 * frameTicks ≤ s.since x.lastAt).foldl
    (fun s x => (freeSession s x).inc 0x6010_06) s

/-- A SENT entry of a request, and the release of those it supersedes (R485, R486). -/
def noteSent (s : State) (r : Request) : State :=
  let e := mkEntry 6 0 0 r.jsn (leBytes 4 (r.acked.getD 0))
  let s := jFree (jNote s [e]) fun q => q.kind == 6 && ofRecord r.jsn q && q != e
  modRequest s r.jsn fun r => { r with sentAcked := true }

/-- SENT entries for the requests whose acknowledgements have advanced (R485); a record that overflows may free its copies (R210). -/
def writeSent (s : State) : State :=
  settleAll ((s.requests.filter fun r => r.acked.isSome && !r.sentAcked).foldl noteSent s)

/-- The frame-periodic work of SYS. -/
def frameWork (s : State) : State :=
  let s := heldRoles s
  let s := throttleFrame (slotCapFrame (notePower (crossCheck s)))
  let s := headroomFrame (sourceFrame (heldFrame s))
  writeSent (reclaimSessions s)

/-- FRAME_START (R258): the counter stands at tick 0 of a frame. Nothing runs while SYS is held, without REFCLK, or in Safe. -/
def execFrameStart (s : State) : Host.Outcome State Fault Refusal :=
  if s.refclk ∧ s.now % frameTicks = 0 ∧ s.sysUp then .next (frameWork s) else .next s

end Sys2Proof.Machine
end

