-- ==== Sys2Proof/Machine/Views.lean ====
section
/-! DEFINITION. Views.lean: reading an object (R11, R402, R424): objects that hold a view of the machine's typed state, the
snapshots that a select write takes, and the readings of quantities that the manual gives no model of. -/

namespace Sys2Proof.Machine

/-! ### Facets and engines -/

/-- FACET_STATE (3100h + f.0B). For a facet out of 0020h.01 that has not degraded, because its stack or its heater rail was lost
(R498), R78 lists no state: 3 (DESIGN CHOICE, log entry 124). -/
def facetState (s : State) (f : Nat) : Nat :=
  let x := facetN s f
  if x.degraded then 3 else if s.facetUp f then (if x.lock = .locked then 1 else 2) else if s.power.lost.testBit f then 3 else 0

/-- FREE_SPARES (3100h + f.08): spares that are idle or standing in, and fit (R51). -/
def spareCount (s : State) (f : Nat) : Nat :=
  let x := facetN s f
  ((List.range 520).filter fun p => let r := (rowAt x p).role; r == .idleSpare || r == .standingIn).length

/-- SEQ_STATE (R165). ABORTING shows while no run issues and a queue still discards the commands of an aborted task (log
entry 113). -/
def seqState (s : State) (f : FacetId) : Nat :=
  let x := s.facets[f]
  let e := s.engines[f.val]
  let heads := [e.queue true, e.queue false].filter fun q => !q.cmds.isEmpty
  if x.degraded then 6
  else if x.lock != .starting && !passesRun x then 4
  else if runHeld x then 3
  else if (currentRun s f.val).isSome then 1
  else if e.prio.discard.isSome || e.fill.discard.isSome then 5
  else if heads.isEmpty then 0
  else if heads.all fun q => q.waitAt.isSome then 2 else 1

/-- SLOTS_FREE (3500h + f.09). -/
def slotsFree (s : State) (f : Nat) : Nat :=
  2048 - ((facetN s f).slots.filter fun e => e.2.state != .free).foldl (fun a e => a + e.2.span) 0

/-- BUS_SOURCE (7100h + f.02). The dark bits show once the seal has been written: the default of the table has them clear. -/
def busSource (s : State) (f : Nat) : Nat :=
  let src := fun b => (sourceIn (sourceActive s) b).val
  let dark := fun b => (s.node != .sealed && busDark s b).toNat
  src (2 * f) + 2 * src (2 * f + 1) + 4 * dark (2 * f) + 8 * dark (2 * f + 1)

/-- REGION_DRIVE (7100h + f.0D): the codes of the region heaters, once the seal has been written: the default is zeros. -/
def regionDrive (s : State) (f : Nat) : Bytes :=
  if s.node = .sealed then List.replicate 32 0#8
  else ((List.range 16).map fun r => leBytes 2 (outTarget s (heaterKey f r))).flatten

/-! ### Streams -/

/-- The 64-byte descriptor of a stream (R229). -/
def descBytes (d : StreamDesc) : Bytes :=
  leBytes 2 d.stream ++ leBytes 2 d.task ++ leBytes 1 (clsCode d.cls) ++ leBytes 1 d.producer ++ leBytes 1 d.receivers.length
    ++ leBytes 1 (d.multicast.toNat + 2 * d.escape.toNat) ++ leBytes 2 d.poolBase ++ leBytes 2 d.poolBlocks
    ++ leBytes 2 d.escapeBlocks ++ leBytes 2 d.maxBuffer ++ leBytes 2 d.lagBudget ++ leBytes 2 d.catchupBlocks
    ++ leBytes 1 d.catchupJig ++ leBytes 11 0
    ++ (((d.receivers.map fun r => leBytes 1 r.1 ++ leBytes 1 r.2).flatten ++ List.replicate 32 0#8).take 32)

def streamsOn (s : State) (n : Nat) : List Stream := s.streams.filter fun x => x.desc.eic == n

/-! ### The device's lists -/

/-- PLACES_FREE (5030h.03); nothing is laid out before the seal. -/
def placesFree (s : State) : Bytes :=
  ((List.range 8).map fun n => leBytes 2 (if s.node = .sealed then 0 else (freePlaces s n).length)).flatten

/-- NEEDED_LIST (5040h.02). -/
def neededList (s : State) : Bytes :=
  (s.needed.map fun e => leBytes 4 e.1 ++ leBytes 1 e.2.1 ++ leBytes 3 0 ++ leBytes 4 e.2.2).flatten

/-- PAGES_FREE (6010h.03). -/
def pagesFree (s : State) : Nat := if s.node = .sealed then 0 else kvPages s - kvUsed s

/-- RESULTS (9020h.01): 256 results of R544. -/
def resultsBlob (s : State) : Bytes :=
  ((List.range 256).map fun ch => match chanResult s ch with
    | some r => leBytes 4 (unsignedOf 32 r.code) ++ leBytes 1 r.flags ++ leBytes 1 r.conv ++ leBytes 2 r.age
    | none => leBytes 8 0).flatten

/-- CONV_STATE (9000h + c.05). -/
def convState (s : State) (c : Fin 4) : Nat := if !convRuns s c then 4 else if s.analog.convs[c].failed then 3 else 1

/-- OUT_STATE (9100h + k.03). -/
def outState (s : State) (k : Fin 16) : Nat :=
  let e := s.analog.exts[k]
  if frozen s then 2 else if e.step ≠ 0 then 3 else if (playingOn s k.val).isSome then 4 else if e.service then 1 else 0

/-- STAND_IN_ACTIVE (A000h.0D): ordinals carried in effect (R454). -/
def standInActive (s : State) : Nat := s.gang.leaving.foldl (fun a o => withBit a o true) (s.num 0xA000_0A)

/-- Entries of the dictionary (1020h.05): subindices 00h included, members counted singly. -/
def objectCount : Nat :=
  dictAll.foldl (fun a d => a + d.count) 0 + ((dictAll.map fun d => (d.base, d.count)).dedup.foldl (fun a d => a + d.2) 0)

/-! ### Views -/

/-- The views of single objects. -/
def viewOne (s : State) : Nat → Option Val
  | 0x1000_01 => some (.num s.node.code)
  | 0x1010_06 => some (.num s.store.used)
  | 0x1020_05 => some (.num objectCount)
  | 0x1100_0B => some (.num (s.events.sys.recs.length + s.events.lnk.recs.length))
  | 0x2000_07 => some (.num s.stamp)
  | 0x2200_08 => some (.num (waitingCount s))
  | 0x5000_02 => some (.num s.contexts.length)
  | 0x5030_03 => some (.bytes (placesFree s))
  | 0x5040_01 => some (.num s.needed.length)
  | 0x5040_02 => some (.bytes (neededList s))
  | 0x6010_01 => some (.num s.sessions.length)
  | 0x6010_02 => some (.num (s.sessions.filter fun x => x.state == .evicted).length)
  | 0x6010_03 => some (.num (pagesFree s))
  | 0x7000_02 => some (.num ((inputOf s 0).state.code + 16 * (inputOf s 1).state.code))
  | 0x9020_01 => some (.bytes (resultsBlob s))
  | 0xA000_0D => some (.num (standInActive s))
  | 0xB100_03 => some (.num (64 * jUsed s.journal.own))
  | 0xB100_04 => some (.num s.requests.length)
  | 0xB100_05 => some (.num ((s.requests.map fun r => r.jsn).foldl (fun (a : Option Nat) j => some (min j (a.getD j))) none |>.getD 0))
  | 0xB100_06 => some (.num s.journal.nextJsn)
  | 0xB100_09 => some (.num s.journal.unsettled.length)
  | 0xB120_04 => some (.num (s.requests.filter fun r => r.adopted && r.phase == .held).length)
  | 0xC000_04 => some (.num (slotFw s 0))
  | 0xC000_05 => some (.num (slotFw s 1))
  | 0xC000_06 => some (.num (slotFw s 2))
  | _ => none

/-- The views of members of a family: index and subindex. -/
def viewFam (s : State) (index sub : Nat) : Option Val :=
  let n := index % 32
  let f : FacetId := ⟨n, Nat.mod_lt _ (by decide)⟩
  if 0x3100 ≤ index ∧ index < 0x3120 then
    match sub with
    | 0x08 => some (.num (spareCount s n))
    | 0x0B => some (.num (facetState s n))
    | _ => none
  else if 0x3200 ≤ index ∧ index < 0x3220 then
    if sub = 1 then some (.bytes (rowMapBytes (facetN s n))) else none
  else if 0x3500 ≤ index ∧ index < 0x3520 then
    if sub = 9 then some (.num (slotsFree s n)) else none
  else if 0x3700 ≤ index ∧ index < 0x3720 then
    match sub with
    | 0x01 => some (.num (seqState s f))
    | 0x09 => some (.num (s.engines[f.val].depth true))
    | 0x0A => some (.num (s.engines[f.val].depth false))
    | _ => none
  else if 0x4200 ≤ index ∧ index < 0x4208 then
    match sub with
    | 0x01 => some (.num (streamsOn s (index % 8)).length)
    | 0x02 => some (.num (blocksFree s (index % 8)))
    | _ => none
  else if 0x7100 ≤ index ∧ index < 0x7120 then
    match sub with
    | 0x01 => some (.num (facetN s n).lock.code)
    | 0x02 => some (.num (busSource s n))
    | 0x08 => some (.num (((facetN s n).optic.cal.map fun c => c.row).getD 0x3FF))
    | 0x0B => some (.num (oldestCal s n))
    | 0x0D => some (.bytes (regionDrive s n))
    | _ => none
  else if 0x9000 ≤ index ∧ index < 0x9004 then
    if sub = 5 then some (.num (convState s ⟨index % 4, Nat.mod_lt _ (by decide)⟩)) else none
  else if 0x9100 ≤ index ∧ index < 0x9110 then
    if sub = 3 then some (.num (outState s ⟨index % 16, Nat.mod_lt _ (by decide)⟩)) else none
  else none

/-- Quantities that hardware measures or counts and that the manual gives no model of, with their size in bytes and whether
they are counts (log entry 4): optical powers, FEC counts, accesses beyond a share of an HBM3E port, amplifier power, status words of regulators, glitches, refused accesses of the test access port. -/
def freeBytes (index sub : Nat) : Option (Nat × Bool) :=
  if index = 0x1110 ∨ index = 0x1111 then
    match sub with
    | 3 => some (16, false)
    | 4 => some (8, true)
    | 5 => some (4, true)
    | _ => none
  else if 0x4010 ≤ index ∧ index < 0x4018 then
    if sub = 4 then some (8, true) else none
  else if 0x8100 ≤ index ∧ index < 0x8129 ∧ sub = 6 then some (2, false)
  else if 0xA010 ≤ index ∧ index < 0xA014 then
    match sub with
    | 3 => some (32, false)
    | 7 => some (8, true)
    | _ => none
  else match index, sub with
    | 0x7000, 9 => some (8, false)
    | 0x8600, 7 => some (4, true)
    | 0x8600, 8 => some (4, true)
    | 0xC000, 0x0C => some (4, true)
    | _, _ => none

/-- The counts of FEC-corrected codewords, which are faults of class 1 (R478). -/
def fecCounts : List (Nat × Nat) :=
  [(0x1110, 4), (0x1111, 4), (0xA010, 7), (0xA011, 7), (0xA012, 7), (0xA013, 7)]

/-- Such a quantity brought up to the present clock: where time has passed since its last sample, or the last reset, a count
has grown by a free number and a measurement is free; else it stands as it was, after a reset at its default (R15). -/
def sampleOne (s : State) (index sub : Nat) : State :=
  let oid := 256 * index + sub
  match freeBytes index sub, findDef index sub with
  | some (n, count), some d =>
    if sparseGet (fun _ => s.sampledFrom) s.sampled oid = s.up then s else
    let (v, s) := s.drawNat (2 ^ (8 * n))
    let s := { s with sampled := sparsePut (fun _ => s.sampledFrom) s.sampled oid s.up }
    if d.ty = .blob then s.setBlob oid (leBytes n v)
    else
      let s := s.setNum oid (if count then (s.num oid + v) % 2 ^ (8 * n) else v)
      if fecCounts.contains (index, sub) then s.faultCorrected v else s
  | _, _ => s

/-- As `sampleOne`; the count of class 1 takes in the codewords that the links have corrected (R478). -/
def sampleFree (s : State) (index sub : Nat) : State :=
  if index = 0xB000 ∧ sub = 1 then fecCounts.foldl (fun s e => sampleOne s e.1 e.2) s else sampleOne s index sub

/-- The value that an entry shows in a state. -/
def shown (s : State) (oid : Nat) : Val :=
  match viewOne s oid with
  | some v => v
  | none => (viewFam s (oid / 256) (oid % 256)).getD (s.val oid)

/-- The value of an entry taken in one instant (R424); an RC object is set to its default by it (R11, R12), and one of a least
or greatest value is emptied (R612). -/
def readObject (s : State) (index sub : Nat) : Val × State :=
  let oid := 256 * index + sub
  let s := sampleFree s index sub
  let v := shown s oid
  match findDef index sub with
  | some d =>
    if d.acc = .rc then (v, { s.setVal oid (dfltOf oid) with held := s.held.filter fun o => o != oid }) else (v, s)
  | none => (v, s)

/-! ### Snapshots that a select takes -/

/-- The type code of R427. -/
def tyCode : Ty → Nat
  | .b => 1
  | .u8 => 2
  | .u16 => 3
  | .u32 => 4
  | .u64 => 5
  | .s32 => 6
  | .s64 => 7
  | .f32 => 8
  | .text => 9
  | .blob => 10

/-- The access code of an entry, where one member of a family differs: the table of converter 0 is RO (R542). -/
def accOf (index sub : Nat) (d : ObjDef) : Acc := if index = 0x9000 ∧ sub = 0x0A then .ro else d.acc

def accCode : Acc → Nat
  | .ro => 0
  | .rw => 1
  | .wo => 2
  | .rc => 3
  | .cw => 4
  | .bootOnly => 5

/-- Objects that LNK answers while SYS is unavailable (R28, R404). -/
def lnkHolds (index : Nat) : Bool := [0x0000, 0x0010, 0x0020, 0x1000, 0x1100, 0x1110, 0x1111, 0x1120].contains index

/-- CAT_ENTRY of an entry (R427). -/
def catEntry (s : State) (index sub : Nat) : Nat :=
  let rest := fun (ty acc level persist : Nat) =>
    ty + 16 * acc + 128 * level + 256 * persist + 512 * (lnkHolds index).toNat
      + 1024 * (mapDenies s index sub 0 || mapDenies s index sub 1).toNat + 65536 * ((subMax index).getD 0)
  if sub = 0 then (if (subMax index).isSome then rest 2 0 0 0 else 0)
  else match findDef index sub with
    | some d => rest (tyCode d.ty) (accCode (accOf index sub d)) d.expert.toNat d.persist.toNat
    | none => 0

/-- CAT_DEFAULT: empty for a factory, restored or running value. -/
def catDefault (index sub : Nat) : Bytes :=
  if sub = 0 then leBytes 1 ((subMax index).getD 0)
  else match findDef index sub with
    | some d => (d.dflt.map (valBytes (256 * index + sub))).getD []
    | none => []

/-- The least existing entry above a selection in one index. -/
def nextSub (index sub : Nat) : Option Nat :=
  ((dictArea (index / 4096)).filter fun d => d.base ≤ index && index < d.base + d.count && sub < d.sub).foldl
    (fun (a : Option Nat) d => some (min d.sub (a.getD d.sub))) none

/-- The least index above one that holds an object. -/
def nextIndex (index : Nat) : Option Nat :=
  dictAll.foldl (fun (a : Option Nat) d =>
    let c := max d.base (index + 1)
    if c < d.base + d.count then some (min c (a.getD c)) else a) none

/-- CAT_NEXT in CAT_SELECT form; FFFFFFFFh when none. -/
def catNext (sel : Nat) : Nat :=
  let index := bitsOf sel 23 8
  let sub := bitsOf sel 7 0
  match nextSub index sub with
  | some k => 256 * index + k
  | none => match nextIndex index with
    | some i => 256 * i
    | none => 0xFFFFFFFF

/-- CAT_SELECT (R427). -/
def catSelect (s : State) (v : Nat) : State :=
  let index := bitsOf v 23 8
  let sub := bitsOf v 7 0
  (((s.setNum 0x1020_01 v).setNum 0x1020_02 (catEntry s index sub)).setBlob 0x1020_03 (catDefault index sub)).setNum 0x1020_04
    (catNext v)

/-- TABLE_SELECT (R289): the reservations of one engine in the frames of an SFN, in START order. -/
def tableSelect (s : State) (v : Nat) : State :=
  let rs := (s.tables.filter fun r => r.frame % 1024 == bitsOf v 9 0 && r.engine == bitsOf v 17 10).mergeSort
    fun a b => a.start ≤ b.start
  (s.setNum 0x2100_03 v).setBlob 0x2100_04 ((rs.map fun r =>
    leBytes 1 r.engine ++ leBytes 1 r.cls ++ leBytes 2 r.task ++ leBytes 4 r.start ++ leBytes 4 r.length ++ leBytes 1 r.kind
      ++ leBytes 3 0).flatten)

/-- STREAM_SELECT (R256). -/
def streamSelect (s : State) (v : Nat) : State :=
  (s.setNum 0x4300_01 v).setBlob 0x4300_02 (((findStream s (bitsOf v 12 10) (bitsOf v 9 0)).map fun x => descBytes x.desc).getD [])

/-- One slot of a context snapshot (R216). -/
def slotView (s : State) (c : Ctx) (b : Bool) : List Nat :=
  let x := c.slot b
  [x.copyId, x.state.code + (if x.damaged.isEmpty then 0 else 8), x.batches,
    if x.state = .empty then 0 else journalCount s c.model c.stage x.copyId]

/-- CTX_SELECT (R216). -/
def ctxSelect (s : State) (v : Nat) : State :=
  let c := getCtx s v
  let builds := [c.slotA, c.slotB].filter fun x => x.state == .building || x.state == .stopped
  let vals : List Nat :=
    [v, c.state.code, c.model, c.stage, (c.pendingTo.map Bool.toNat).getD 0xFF] ++ slotView s c false ++ slotView s c true
      ++ [(builds.map fun x => x.blocks.length).foldl (· + ·) 0, (builds.map fun x => x.total).foldl (· + ·) 0,
          c.slotA.spilled + c.slotB.spilled]
  vals.zipIdx.foldl (fun s p => s.setNum (0x5020_01 + p.2) p.1) s

/-- PLACE_SELECT (R218). -/
def placeSelect (s : State) (v : Nat) : State :=
  let x := (getCtx s (bitsOf v 11 0)).slot (v.testBit 12)
  let ps := x.pins.filter fun p => p.pair == bitsOf v 15 13
  (s.setNum 0x5030_01 v).setBlob 0x5030_02 ((ps.map fun p =>
    leBytes 4 p.operand ++ leBytes 4 p.rowTile ++ leBytes 4 p.chunk ++ leBytes 1 p.trit ++ leBytes 1 0 ++ leBytes 2 p.place).flatten)

/-- SESSION_SELECT (R321). -/
def sessionSelect (s : State) (tag : Nat) : State :=
  let vals : List Nat := match s.sessions.find? fun x => x.tag == tag with
    | some x =>
      let mine := (s.requests.filter fun r => r.session == some x.num).length
      [x.state.code, x.num, x.context, x.history.length,
        x.pages + ((s.requests.filter fun r => r.session == some x.num).foldl (fun a r => a + r.pages) 0),
        s.since x.lastAt / frameTicks, mine - 1, x.seed]
    | none => [0, 0, 0, 0, 0, 0, 0, 0]
  vals.zipIdx.foldl (fun s p => s.setNum (0x6020_02 + p.2) p.1) (s.setNum 0x6020_01 tag)

/-- The active state of a ring (R360): the trit of the plane in the rings at the logical row that its physical row carried when
that plane was loaded (R52); 0 for a row that carried none. -/
def ringTrit (x : Facet) (row lane : Nat) : Nat :=
  let l := (ringRow x row).logical
  if x.active.id.zero || x.active.bytes.isEmpty || !carries x row then 0
  else match tritAt x.active.bytes (128 * l + lane) with
    | 1 => 1
    | -1 => 3
    | _ => 0

/-- RING_SELECT (R360). -/
def ringSelect (s : State) (v : Nat) : State :=
  let x := facetN s (bitsOf v 4 0)
  let r := ringLoop x (bitsOf v 14 5) (bitsOf v 21 15)
  let code := outTarget s (ringKey (bitsOf v 4 0) (bitsOf v 14 5) (bitsOf v 21 15))
  (s.setNum 0x7400_01 v).setNum 0x7400_02 (code + 1024 * r.loop + 2 ^ 13 * r.line + 2 ^ 19 * r.ident
    + 2 ^ 21 * ringTrit x (bitsOf v 14 5) (bitsOf v 21 15))

/-- SENSOR_SELECT (R536). -/
def sensorSelect (s : State) (i : Nat) : State :=
  let st := if (reading s i).isNone then 2 else if s.power.replaced.contains i then 1 else 0
  (s.setNum 0x8500_02 i).setBlob 0x8500_04
    (leBytes 4 ((reading s i).getD 0) ++ leBytes 4 ((estimate s i).getD 0) ++ leBytes 1 st ++ leBytes 3 0)

end Sys2Proof.Machine
end

