-- ==== Sys2Proof/Machine/Writes.lean ====
section
/-! DEFINITION. Writes.lean: judging a parameter request by the ordered checks of R422 and the effect of an accepted write,
object by object; the result codes of R403. -/

namespace Sys2Proof.Machine

/-! ### The ordered checks (R422) -/

/-- SYS answers, or LNK for the objects that it holds (R28, R404). -/
def answers (s : State) (index : Nat) (write : Bool) : Bool := s.sysUp || (!write && lnkHolds index)

def entryExists (index sub : Nat) : Bool := if sub = 0 then (subMax index).isSome else (findDef index sub).isSome

/-- Checks 1 to 5 of a read: the result of R403, 0 where it is answered. -/
def judgeRead (s : State) (index sub : Nat) : Nat :=
  if !answers s index false then 8
  else if !entryExists index sub then 1
  else if mapDenies s index sub 0 then 9
  else if sub ≠ 0 ∧ (findDef index sub).any (fun d => d.acc == .wo) then 2
  else 0

/-- The node states that accept a write (R423): those that the defining chapter names, else Configuring, Serving, Quiesced
and Inspect. -/
def statesFor (s : State) (index sub : Nat) (acc : Acc) : List NodeState :=
  if acc = .cw then [.configuring]
  else if 0xA010 ≤ index ∧ index < 0xA014 ∧ sub = 5 then
    if s.flag (fam 0xA010_04 (index - 0xA010)) then [.configuring, .quiesced, .inspect]
    else [.configuring, .serving, .quiesced, .inspect]
  else match index, sub with
    | 0x1F00, 1 => [.configuring]
    | 0x1010, 5 => [.configuring]
    | 0x2000, 8 => [.configuring, .quiesced]
    | 0x2100, 3 => [.inspect]
    | 0x3600, 1 => [.inspect]
    | 0x4300, 1 => [.inspect]
    | 0x6030, 2 => [.serving, .quiesced]
    | 0x9040, 3 => [.configuring, .quiesced]
    | 0xB110, 2 => [.configuring, .serving, .quiesced]
    | 0xA000, 0x0A => [.configuring, .serving, .quiesced]
    | 0xC000, 0x0A => [.configuring, .serving, .quiesced]
    | 0xC000, 0x0B => [.configuring]
    | 0xC020, 2 => [.configuring, .serving, .quiesced]
    | _, _ => [.configuring, .serving, .quiesced, .inspect]

/-- Expert access for a write that the present state accepts (R13, R436, R437). -/
def expertHeld (s : State) : Bool := s.flag 0x1F00_02 || (s.node == .inspect && s.flag 0xC010_02)

/-- The length fits the type (R401). -/
def lengthOk (ty : Ty) (n : Nat) : Bool :=
  match ty with
  | .text => n ≤ 255
  | .blob => true
  | t => n == t.bits / 8

def toVal (ty : Ty) (b : Bytes) : Val :=
  match ty with
  | .text => .bytes b
  | .blob => .bytes b
  | _ => .num (leNat b)

/-- A CTX_CMD word sets no reserved value (R215). -/
def ctxWordOk (v : Nat) : Bool :=
  let op := bitsOf v 3 0
  1 ≤ op && op ≤ 9 && bitsOf v 19 17 < 3 && bitsOf v 31 20 == 0 && (descNeeded op && op != 1 || bitsOf v 63 32 == 0)

/-- Check 8: the range of the entry's table, and what the state adds to it. -/
def rangeOf422 (s : State) (index sub : Nat) (d : ObjDef) (v : Val) : Bool :=
  valueOk d v && stateOk s index sub v && (match index, sub with
    | 0x3600, 1 => peekOk v.asNum
    | 0x5010, 1 => ctxWordOk v.asNum
    | 0x9030, 1 => (urgentOf v.asNum).isSome
    | 0xC020, 2 => s.num 0xC020_01 != 0xFF
    | _, _ => true)

/-- The checks of a write in order: the result of R403, 0 where it is accepted. -/
def judgeWrite (s : State) (index sub : Nat) (b : Bytes) : Nat :=
  if !answers s index true then 8
  else if !entryExists index sub then 1
  else if mapDenies s index sub 1 then 9
  else match findDef index sub with
    | none => 2
    | some d =>
      let acc := accOf index sub d
      if acc = .ro ∨ acc = .rc ∨ acc = .bootOnly then 2
      else if !(statesFor s index sub acc).contains s.node then 3
      else if d.expert ∧ !expertHeld s then 4
      else if !lengthOk d.ty b.length then 6
      else if !rangeOf422 s index sub d (toVal d.ty b) then 5
      else 0

/-! ### Effects -/

/-- A plain object takes its value, saved where it is marked P (R439). -/
def plainWrite (s : State) (oid : Nat) (d : ObjDef) (v : Val) : State :=
  let s := s.setVal oid v
  if d.persist then s.save oid else s

/-- A command's own result as the result of R613: `3` or the given code for the node state, 5 for every other cause. -/
def result613 (r node : Nat) : Nat := if r = 0 then 0 else if r = node then 3 else 5

/-- A context command word (R215). -/
def ctxWord (s : State) (v : Nat) : Nat × State :=
  let r := ctxCommand s (bitsOf v 3 0) (bitsOf v 15 4) (v.testBit 16) (bitsOf v 19 17) (bitsOf v 63 32)
  (result613 r.1 3, r.2)

/-- CACHE_PLACES (5000h.03): places that leave the shelf cache lose their cached records (R191). -/
def cacheWrite (s : State) (n : Nat) : State :=
  let s := s.setNum 0x5000_03 n
  { s with cache := Vector.ofFn fun (p : Fin 8) => s.cache[p].filter fun e => (cachePlaces s p.val).contains e.2 }

/-- STAND_IN (R454): an added ordinal takes effect at once, a removed one stays while an admitted gang task carries it. -/
def standInWrite (s : State) (v : Nat) : State :=
  let old := standInActive s
  let s := s.setNum 0xA000_0A v
  modGang s fun g => { g with leaving := (List.range 64).filter fun o => old.testBit o && !v.testBit o && ordinalCarried s o }

/-- The ordinals whose route a new table changes. -/
def routesMoved (s : State) (v : Bytes) : List Nat :=
  (List.range 64).filter fun o => fieldAt v (2 * o) 2 != fieldAt (s.blob 0xA020_01) (2 * o) 2

/-- Admitted tasks with traffic over a route: gang tasks with a part at the ordinal, jigs that read from it, streams to it. -/
def tasksOver (s : State) (os : List Nat) : List Nat :=
  let gangs := (s.tasks.filter fun t => match t.gang with
    | some (_, others) => others.any os.contains
    | none => false).map fun t => t.num
  let jigs := (s.jigs.filter fun j =>
    let sh := jigShape j.entries
    !j.ended && sh.remote && sh.stack < 4 && os.contains (neighbourOf s sh.stack)).map (jigTask s)
  let streams := (s.streams.filter fun x =>
    x.desc.receivers.any fun r => r.1 == 0x48 && r.2 < 4 && os.contains (neighbourOf s r.2)).map fun x => x.desc.task
  (gangs ++ jigs ++ streams).dedup

/-- ROUTE_TABLE (R452): frames first sent after the write take the new routes; tasks with priced traffic over a changed one are at
risk (R282; the cause of CERT_AT_RISK has no code of its own there: 6, log entry 43). -/
def routeWrite (s : State) (v : Bytes) : State :=
  let os := routesMoved s v
  let s := s.setBlob 0xA020_01 v
  let s := recertify s (tasksOver s os) 6 false false
  routesChanged (s.raise 0xA015 0xFF [])

/-- Sixteen codes of a calibration that a raw write of CAL_CMD brings with it: free (log entry 4). -/
def freeCodes (s : State) : Vector Int 16 × State :=
  (Vector.ofFn fun (i : Fin 16) => signedOf 24 (Config.freeNat (s.free + i.val)), { s with free := s.free + 16 })

/-- CAL_CMD with the codes of its conversions. -/
def calCommand (s : State) (n : Nat) (codes : Option (Vector Int 16)) : Nat × State :=
  let drawn := match codes with
    | some cs => (cs, s)
    | none => freeCodes s
  let r := calDone (match n with
    | 1 => calZero drawn.2 drawn.1
    | 2 => calFullScale drawn.2 drawn.1
    | _ => calClear s)
  (result613 r.1 2, r.2)

/-- TRIGGER with its TRIGGER_RESULT (R555, R562). -/
def triggerCommand (s : State) (b : Bytes) : Nat × State :=
  let r := if b.length ≠ 16 then (2, s) else triggerOut s b
  (result613 r.1 3, r.2.setNum 0x9120_04 r.1)

/-- What follows from a default that FACTORY_DEFAULTS has put in force: as from a write of it, but no TRIPPED input is
re-armed (R443). -/
def defaultEffect (s : State) (oid : Nat) : State :=
  let k := oid / 256 % 16
  if oid % 256 = 1 ∧ 0x9100 ≤ oid / 256 ∧ oid / 256 < 0x9110 then aoutCode s ⟨k % 16, Nat.mod_lt _ (by decide)⟩ (s.num oid)
  else if oid % 256 = 2 ∧ 0x9100 ≤ oid / 256 ∧ oid / 256 < 0x9110 then
    spanWrite s ⟨k % 16, Nat.mod_lt _ (by decide)⟩ (s.num oid)
  else if oid % 256 = 4 ∧ 0xA010 ≤ oid / 256 ∧ oid / 256 < 0xA014 then
    peerEnable s ⟨k % 4, Nat.mod_lt _ (by decide)⟩ (s.num oid)
  else match oid with
    | 0x5000_03 => cacheWrite s (s.num oid)
    | 0x7000_01 => inputBits s (s.num oid) false
    | 0x7010_01 => writeSourceMap s (s.num oid)
    | 0x8010_01 => railTable s (s.blob oid)
    | 0xA000_01 => startPeers s
    | 0xA000_03 => mirrorResync s
    | 0xA020_01 => routesChanged (s.raise 0xA015 0xFF [])
    | _ => s

/-- FACTORY_DEFAULTS (R443). -/
def factoryDefaults (s : State) : State :=
  let changed := (s.objs.filter fun e => defaultable e.1).map Prod.fst
  changed.foldl defaultEffect (factoryValues s)

/-- The effect of an accepted write with the result of its PARAM_RESP. `codes` are the conversions of a calibration. -/
def applyWrite (s : State) (index sub : Nat) (d : ObjDef) (v : Val) (codes : Option (Vector Int 16)) : Nat × State :=
  let oid := 256 * index + sub
  let k := index - d.base
  let n := v.asNum
  let b := v.asBytes
  let kept := fun (s : State) => if d.persist then s.save oid else s
  match d.base, sub with
  | 0x1001, 0x01 => let r := nodeCommand s n; (if r.1 = 0 then 0 else if r.1 = 7 then 5 else 3, r.2)
  | 0x1010, 0x05 => (0, if n = 1 then factoryDefaults s else s)
  | 0x1020, 0x01 => (0, catSelect s n)
  | 0x1110, 0x0B => (0, laneRestore s ⟨k % 2, Nat.mod_lt _ (by decide)⟩ n)
  | 0x1F00, 0x01 => (0, expertEnable s n)
  | 0x2000, 0x08 => (0, timeReset s n)
  | 0x2100, 0x03 => (0, tableSelect s n)
  | 0x3600, 0x01 => (0, takePeek s n)
  | 0x4300, 0x01 => (0, streamSelect s n)
  | 0x5000, 0x03 => (0, kept (cacheWrite s n))
  | 0x5010, 0x01 => ctxWord s n
  | 0x5010, 0x02 => (0, { s with ctxDesc := some b })
  | 0x5020, 0x01 => (0, ctxSelect s n)
  | 0x5030, 0x01 => (0, placeSelect s n)
  | 0x6020, 0x01 => (0, sessionSelect s n)
  | 0x6030, 0x02 => let r := serviceCommand s n; (result613 r.1 3, r.2)
  | 0x7000, 0x01 => (0, kept (inputEnable s n))
  | 0x7010, 0x01 => (0, kept (writeSourceMap s n))
  | 0x7400, 0x01 => (0, ringSelect s n)
  | 0x8010, 0x01 => (0, kept (railTable s b))
  | 0x8500, 0x02 => (0, sensorSelect s n)
  | 0x9030, 0x01 => let r := urgentRequest s n; (if r.1 then 0 else 5, r.2)
  | 0x9040, 0x03 => calCommand s n codes
  | 0x9100, 0x01 => (0, kept (aoutCode s ⟨k % 16, Nat.mod_lt _ (by decide)⟩ n))
  | 0x9100, 0x02 => (0, kept (spanWrite s ⟨k % 16, Nat.mod_lt _ (by decide)⟩ n))
  | 0x9120, 0x03 => triggerCommand s b
  | 0xA000, 0x01 => (0, startPeers (plainWrite s oid d v))
  | 0xA000, 0x03 => (0, mirrorResync (plainWrite s oid d v))
  | 0xA000, 0x0A => (0, kept (standInWrite s n))
  | 0xA010, 0x04 => (0, kept (peerEnable s ⟨k % 4, Nat.mod_lt _ (by decide)⟩ n))
  | 0xA010, 0x0C => (0, peerLaneRestore s ⟨k % 4, Nat.mod_lt _ (by decide)⟩ n)
  | 0xA020, 0x01 => (0, kept (routeWrite s b))
  | 0xB110, 0x02 => let r := journalCommand s n; (result613 r.1 1, r.2)
  | 0xC000, 0x0A => if n = 0 then (0, s) else if s.num 0xC000_01 = 2 then (3, s) else (0, commitImage s)
  | 0xC020, 0x02 => (0, writeImage s b)
  | 0xC030, 0x01 => (0, writeNonce s b)
  | _, _ => (0, plainWrite s oid d v)

/-- A command object refused for the node state leaves that cause in its companion (R435, R613); a context command that would use the
descriptor consumes it (R215). -/
def refusedWrite (s : State) (index sub r : Nat) (b : Bytes) : State :=
  if r ≠ 3 then s else match index, sub with
    | 0x1001, 1 => s.setNum 0x1000_03 1
    | 0x5010, 1 => ctxRefused s (bitsOf (leNat b) 3 0)
    | 0x6030, 2 => s.setNum 0x6030_03 3
    | 0x9040, 3 => s.setNum 0x9040_04 2
    | 0xB110, 2 => s.setNum 0xB110_03 1
    | _, _ => s

/-- A write judged and, where it is accepted, carried out (R422, R424). -/
def writeObject (s : State) (index sub : Nat) (b : Bytes) (codes : Option (Vector Int 16)) : Nat × State :=
  let r := judgeWrite s index sub b
  if r ≠ 0 then (r, refusedWrite s index sub r b)
  else match findDef index sub with
    | some d => applyWrite s index sub d (toVal d.ty b) codes
    | none => (1, s)

/-! ### Requests of the ring (R401, R402) -/

def modXfer (s : State) (x : Xfer) (v : Option XferIn) : State := { s with ring := { s.ring with xfers := s.ring.xfers.set x v } }

/-- A PARAM_SEG of a read that still waits for the window. -/
def waitingSeg (x : Xfer) (f : Frame) : Bool := f.type == 0x12 && fieldAt f.arg 0 1 == x.val

/-- A PARAM_REQ with a transfer number still in use ends the earlier transfer with RESULT 7: a segmented write, or a read of which
segments still wait (log entry 142). -/
def endXfer (s : State) (x : Xfer) : State :=
  match s.ring.xfers[x] with
  | some t => sendResp (modXfer s x none) x.val 7 t.index t.sub 0 []
  | none =>
    if !s.ring.waiting.any (waitingSeg x) then s else
    match s.ring.reads.find? fun e => e.1 == x.val with
    | none => s
    | some (_, index, sub) =>
      sendResp { s with ring := { s.ring with
        waiting := s.ring.waiting.filter fun f => !waitingSeg x f
        reads := s.ring.reads.filter fun e => e.1 != x.val } } x.val 7 index sub 0 []

/-- The further segments of a read, from the value taken at its delivery. -/
def sendSegs (x total : Nat) : Nat → Nat → Bytes → State → State
  | 0, _, _, s => s
  | n + 1, off, b, s =>
    if b.isEmpty then s
    else sendSegs x total n (off + 4096) (b.drop 4096)
      (sendConfirmed s 0x12 (leBytes 1 x ++ leBytes 3 0 ++ leBytes 4 off ++ leBytes 4 total) (b.take 4096))

/-- A read delivered: its value, or its refusal, in a PARAM_RESP and the PARAM_SEG frames that follow it. -/
def deliverRead (s : State) (x : Xfer) (index sub : Nat) : State :=
  let s := endXfer (heard s) x
  let r := judgeRead s index sub
  if r ≠ 0 then sendResp s x.val r index sub 0 []
  else
    let (v, s) := readObject s index sub
    let b := valBytes (256 * index + sub) v
    let s := sendResp s x.val 0 index sub b.length (b.take 4096)
    let s := if b.length ≤ 4096 then s
      else { s with ring := { s.ring with reads := (x.val, index, sub) :: s.ring.reads.filter fun e => e.1 != x.val } }
    sendSegs x.val b.length 4096 4096 (b.drop 4096) s

/-- An accepted RESTART follows its response (R433). -/
def restartAfter (s : State) (index sub r : Nat) (b : Bytes) : State :=
  if index = 0x1001 ∧ sub = 1 ∧ r = 0 ∧ leNat b = 7 then restartDevice s 5 else s

/-- A write delivered whole: its effect or refusal, then its PARAM_RESP. -/
def deliverWrite (s : State) (x : Xfer) (index sub : Nat) (b : Bytes) (codes : Option (Vector Int 16)) : State :=
  let s := endXfer (heard s) x
  let (r, s) := writeObject s index sub b codes
  restartAfter (sendResp s x.val r index sub 0 []) index sub r b

/-- A malformed frame that has been consumed (R395). -/
def frameMalformed (s : State) : State := (heard s).inc 0x1100_0E

/-- The first frame of a write (R401): a value of up to 4,096 bytes whole, or the first part of a segmented transfer. -/
def beginWrite (s : State) (x : Xfer) (index sub total : Nat) (b : Bytes) : State :=
  if b.length = total then deliverWrite s x index sub b none
  else
    modXfer (endXfer (heard s) x) x (some { index := index, sub := sub, total := total, data := b, since := s.up })

/-- A PARAM_SEG (R401, R402): the next part of a transfer; the last part makes the write take effect. -/
def segment (s : State) (x : Xfer) (offset total : Nat) (b : Bytes) : State :=
  match s.ring.xfers[x] with
  | none => frameMalformed s
  | some t =>
    if t.total ≠ total ∨ t.data.length ≠ offset ∨ b.length ≠ min 4096 (total - offset) then frameMalformed s
    else if offset + b.length < total then modXfer (heard s) x (some { t with data := t.data ++ b })
    else deliverWrite (modXfer s x none) x t.index t.sub (t.data ++ b) none

end Sys2Proof.Machine
end

