-- ==== Sys2Proof/Machine/ParamRows.lean ====
section
/-! DEFINITION. ParamRows.lean: the commands that arrive as parameter requests (R401, R402): transfers, and one meaning for each
object with a row of its own. -/

namespace Sys2Proof.Machine

/-! ### Transfers -/

/-- PARAM_WRITE (R401, R402): whole, or the first part of a segmented write. -/
def execParamWrite (x : Xfer) (index : BitVec 16) (sub : BitVec 8) (total : Nat) (value : Bytes) (s : State) :
    Host.Outcome State Fault Refusal :=
  if 16777216 < total ∨ value.length ≠ min total 4096 then .next (frameMalformed s)
  else .next (beginWrite s x index.toNat sub.toNat total value)

/-- RC_READ (R11, R402): the value at delivery; a register that is cleared on read starts anew. -/
def execRcRead (x : Xfer) (index : BitVec 16) (sub : BitVec 8) (s : State) : Host.Outcome State Fault Refusal :=
  .next (deliverRead s x index.toNat sub.toNat)

/-- PARAM_ABORT (R401): the transfer in use under the number ends with RESULT 7. -/
def execParamAbort (x : Xfer) (s : State) : Host.Outcome State Fault Refusal := .next (endXfer (heard s) x)

/-- PARAM_SEG (R402). -/
def execParamSeg (x : Xfer) (offset total : Nat) (payload : Bytes) (s : State) : Host.Outcome State Fault Refusal :=
  .next (segment s x offset total payload)

/-- XFER_TIMEOUT (R402): 1100h.0A frames since the first frame of the transfer. -/
def execXferTimeout (x : Xfer) (s : State) : Host.Outcome State Fault Refusal :=
  match s.ring.xfers[x] with
  | none => .next s
  | some t => if s.num 0x1100_0A * frameTicks ≤ s.since t.since then .next (endXfer s x) else .next s

/-! ### The node (R428, R435, R436, R443, R445) -/

def execConfigure (x : Xfer) (s : State) : Host.Outcome State Fault Refusal := .next (deliverWrite s x 0x1001 1 [1] none)
def execServe (x : Xfer) (s : State) : Host.Outcome State Fault Refusal := .next (deliverWrite s x 0x1001 1 [2] none)
def execQuiesce (x : Xfer) (s : State) : Host.Outcome State Fault Refusal := .next (deliverWrite s x 0x1001 1 [3] none)
def execQuiesceNow (x : Xfer) (s : State) : Host.Outcome State Fault Refusal := .next (deliverWrite s x 0x1001 1 [4] none)
def execInspect (x : Xfer) (s : State) : Host.Outcome State Fault Refusal := .next (deliverWrite s x 0x1001 1 [5] none)
def execSafe (x : Xfer) (s : State) : Host.Outcome State Fault Refusal := .next (deliverWrite s x 0x1001 1 [6] none)
def execRestart (x : Xfer) (s : State) : Host.Outcome State Fault Refusal := .next (deliverWrite s x 0x1001 1 [7] none)

def execExpertEnable (x : Xfer) (v : Byte) (s : State) : Host.Outcome State Fault Refusal :=
  .next (deliverWrite s x 0x1F00 1 [v] none)

def execFactoryDefaults (x : Xfer) (v : Byte) (s : State) : Host.Outcome State Fault Refusal :=
  .next (deliverWrite s x 0x1010 5 [v] none)

def execCatSelect (x : Xfer) (v : BitVec 32) (s : State) : Host.Outcome State Fault Refusal :=
  .next (deliverWrite s x 0x1020 1 (leBytes 4 v.toNat) none)

/-! ### Ports and the gang (R388, R452, R454, R467) -/

def execLaneRestore (x : Xfer) (port : RingPort) (v : Byte) (s : State) : Host.Outcome State Fault Refusal :=
  .next (deliverWrite s x (0x1110 + port.val) 0x0B [v] none)

def execPeerLaneRestore (x : Xfer) (p : PeerPort) (v : Byte) (s : State) : Host.Outcome State Fault Refusal :=
  .next (deliverWrite s x (0xA010 + p.val) 0x0C [v] none)

def execBuddyWrite (x : Xfer) (v : Byte) (s : State) : Host.Outcome State Fault Refusal :=
  .next (deliverWrite s x 0xA000 3 [v] none)

def execRouteWrite (x : Xfer) (v : Bytes) (s : State) : Host.Outcome State Fault Refusal :=
  .next (deliverWrite s x 0xA020 1 v none)

def execStandInWrite (x : Xfer) (v : BitVec 64) (s : State) : Host.Outcome State Fault Refusal :=
  .next (deliverWrite s x 0xA000 0x0A (leBytes 8 v.toNat) none)

/-! ### Contexts (R215-R218) -/

/-- The octets of a CTX_CMD word (R215). -/
def ctxBytes (op : Nat) (a : CtxArgs) : Bytes :=
  leBytes 8 (op + 16 * a.context.toNat + 2 ^ 16 * a.slot.toNat + 2 ^ 17 * a.source.toNat + 2 ^ 32 * a.copyId.toNat)

def execRegister (x : Xfer) (a : CtxArgs) (s : State) : Host.Outcome State Fault Refusal :=
  .next (deliverWrite s x 0x5010 1 (ctxBytes 1 a) none)
def execDeregister (x : Xfer) (a : CtxArgs) (s : State) : Host.Outcome State Fault Refusal :=
  .next (deliverWrite s x 0x5010 1 (ctxBytes 2 a) none)
def execBuild (x : Xfer) (a : CtxArgs) (s : State) : Host.Outcome State Fault Refusal :=
  .next (deliverWrite s x 0x5010 1 (ctxBytes 3 a) none)
def execSwitch (x : Xfer) (a : CtxArgs) (s : State) : Host.Outcome State Fault Refusal :=
  .next (deliverWrite s x 0x5010 1 (ctxBytes 4 a) none)
def execDiscard (x : Xfer) (a : CtxArgs) (s : State) : Host.Outcome State Fault Refusal :=
  .next (deliverWrite s x 0x5010 1 (ctxBytes 5 a) none)
def execRepair (x : Xfer) (a : CtxArgs) (s : State) : Host.Outcome State Fault Refusal :=
  .next (deliverWrite s x 0x5010 1 (ctxBytes 6 a) none)
def execAbandon (x : Xfer) (a : CtxArgs) (s : State) : Host.Outcome State Fault Refusal :=
  .next (deliverWrite s x 0x5010 1 (ctxBytes 7 a) none)
def execStore (x : Xfer) (a : CtxArgs) (s : State) : Host.Outcome State Fault Refusal :=
  .next (deliverWrite s x 0x5010 1 (ctxBytes 8 a) none)
def execUnstore (x : Xfer) (a : CtxArgs) (s : State) : Host.Outcome State Fault Refusal :=
  .next (deliverWrite s x 0x5010 1 (ctxBytes 9 a) none)

def execCtxDesc (x : Xfer) (v : Bytes) (s : State) : Host.Outcome State Fault Refusal :=
  .next (deliverWrite s x 0x5010 2 v none)

def execCtxSelect (x : Xfer) (v : BitVec 16) (s : State) : Host.Outcome State Fault Refusal :=
  .next (deliverWrite s x 0x5020 1 (leBytes 2 v.toNat) none)

def execPlaceSelect (x : Xfer) (v : BitVec 32) (s : State) : Host.Outcome State Fault Refusal :=
  .next (deliverWrite s x 0x5030 1 (leBytes 4 v.toNat) none)

/-! ### Services (R318, R321) -/

def execCancel (x : Xfer) (s : State) : Host.Outcome State Fault Refusal := .next (deliverWrite s x 0x6030 2 [1] none)
def execClose (x : Xfer) (s : State) : Host.Outcome State Fault Refusal := .next (deliverWrite s x 0x6030 2 [2] none)

def execSessionSelect (x : Xfer) (tag : BitVec 64) (s : State) : Host.Outcome State Fault Refusal :=
  .next (deliverWrite s x 0x6020 1 (leBytes 8 tag.toNat) none)

/-! ### Time, tables, facets, streams (R263, R288, R156, R250) -/

def execTimeReset (x : Xfer) (v : Byte) (s : State) : Host.Outcome State Fault Refusal :=
  .next (deliverWrite s x 0x2000 8 [v] none)

def execTableSelect (x : Xfer) (v : BitVec 32) (s : State) : Host.Outcome State Fault Refusal :=
  .next (deliverWrite s x 0x2100 3 (leBytes 4 v.toNat) none)

def execPeek (x : Xfer) (v : BitVec 64) (s : State) : Host.Outcome State Fault Refusal :=
  .next (deliverWrite s x 0x3600 1 (leBytes 8 v.toNat) none)

def execStreamSelect (x : Xfer) (v : BitVec 16) (s : State) : Host.Outcome State Fault Refusal :=
  .next (deliverWrite s x 0x4300 1 (leBytes 2 v.toNat) none)

/-! ### Light, journal, rails, sensors -/

def execInputEnable (x : Xfer) (v : Byte) (s : State) : Host.Outcome State Fault Refusal :=
  .next (deliverWrite s x 0x7000 1 [v] none)

def execSourceMap (x : Xfer) (v : BitVec 64) (s : State) : Host.Outcome State Fault Refusal :=
  .next (deliverWrite s x 0x7010 1 (leBytes 8 v.toNat) none)

def execRingSelect (x : Xfer) (v : BitVec 32) (s : State) : Host.Outcome State Fault Refusal :=
  .next (deliverWrite s x 0x7400 1 (leBytes 4 v.toNat) none)

def execSettle (x : Xfer) (s : State) : Host.Outcome State Fault Refusal := .next (deliverWrite s x 0xB110 2 [1] none)
def execAdopt (x : Xfer) (s : State) : Host.Outcome State Fault Refusal := .next (deliverWrite s x 0xB110 2 [2] none)

def execRailTable (x : Xfer) (v : Bytes) (s : State) : Host.Outcome State Fault Refusal :=
  .next (deliverWrite s x 0x8010 1 v none)

def execSensorSelect (x : Xfer) (v : BitVec 16) (s : State) : Host.Outcome State Fault Refusal :=
  .next (deliverWrite s x 0x8500 2 (leBytes 2 v.toNat) none)

/-! ### Converters and outputs (R539, R549, R551-R555) -/

def execUrgent (x : Xfer) (v : BitVec 16) (s : State) : Host.Outcome State Fault Refusal :=
  .next (deliverWrite s x 0x9030 1 (leBytes 2 v.toNat) none)

/-- CAL_ZERO with the codes that its sixteen conversions gave. -/
def execCalZero (x : Xfer) (codes : Vector Int 16) (s : State) : Host.Outcome State Fault Refusal :=
  .next (deliverWrite s x 0x9040 3 [1] (some codes))

def execCalFullScale (x : Xfer) (codes : Vector Int 16) (s : State) : Host.Outcome State Fault Refusal :=
  .next (deliverWrite s x 0x9040 3 [2] (some codes))

def execCalClear (x : Xfer) (s : State) : Host.Outcome State Fault Refusal := .next (deliverWrite s x 0x9040 3 [3] none)

def execAoutCode (x : Xfer) (k : Fin 16) (v : BitVec 16) (s : State) : Host.Outcome State Fault Refusal :=
  .next (deliverWrite s x (0x9100 + k.val) 1 (leBytes 2 v.toNat) none)

def execSpan (x : Xfer) (k : Fin 16) (v : Byte) (s : State) : Host.Outcome State Fault Refusal :=
  .next (deliverWrite s x (0x9100 + k.val) 2 [v] none)

def execTrigger (x : Xfer) (v : Bytes) (s : State) : Host.Outcome State Fault Refusal :=
  .next (deliverWrite s x 0x9120 3 v none)

/-! ### Firmware and attestation (R574, R575, R580) -/

def execNonce (x : Xfer) (v : Bytes) (s : State) : Host.Outcome State Fault Refusal :=
  .next (deliverWrite s x 0xC030 1 v none)

def execImageData (x : Xfer) (v : Bytes) (s : State) : Host.Outcome State Fault Refusal :=
  .next (deliverWrite s x 0xC020 2 v none)

def execCommit (x : Xfer) (v : Byte) (s : State) : Host.Outcome State Fault Refusal :=
  .next (deliverWrite s x 0xC000 0x0A [v] none)

end Sys2Proof.Machine
end

