-- ==== Sys2Proof/Machine/Ring.lean ====
section
/-! DEFINITION. Ring.lean: the Kangeiz ring (R390-R413): frames received, removed, forwarded and consumed, confirmation in
SEQ order, cyclic maps, events, ring management; one meaning for each row. -/

namespace Sys2Proof.Machine

/-! ### Acknowledgements and resending (R397-R399) -/

/-- A frame sent again with RESEND, and with SYNC where it is the first after a RESYNC. -/
def resendFrame (s : State) (t : TxFrame) (sync : Bool) : State :=
  let f := { t.frame with flags := t.frame.flags ||| (2 ||| if sync then 4 else 0) }
  (sendOwn s f).inc 0x1100_0F

def modUnacked (s : State) (g : List TxFrame → List TxFrame) : State := { s with ring := { s.ring with unacked := g s.ring.unacked } }

/-- Every unacknowledged frame sent again, the first with SYNC (status 3). -/
def resyncTx (s : State) : State :=
  let l := s.ring.unacked
  let s := modUnacked s fun l => l.map fun (t : TxFrame) => { t with sentAt := s.up }
  l.zipIdx.foldl (fun s t => resendFrame s t.1 (t.2 == 0)) s

/-- What the acknowledgement of an SVC_RESP does (R226, R302, R400): TOKEN_INDEX is that of R297. -/
def responseAcked (s : State) (f : Frame) : State :=
  let id := fieldAt f.payload 0 8
  let k := fieldAt f.payload 8 4
  let s := { s with requests := s.requests.map fun (r : Request) =>
    if r.id = id then { r with acked := some (max k (r.acked.getD 0)), sentAcked := false } else r }
  releaseOutput s id k (bitOf (fieldAt f.payload 24 1) 0)

/-- An ACK from node 0. -/
def ackIn (s : State) (seq status : Nat) : State :=
  match s.ring.unacked.find? fun t => t.frame.seq.toNat == seq with
  | none => s
  | some t =>
    if 5 < status then s.inc 0x1100_0E
    else if status = 3 then resyncTx s
    else
      let s := modUnacked s fun l => l.filter fun t => t.frame.seq.toNat != seq
      let s := if t.frame.type = 0x41 then responseAcked s t.frame else s
      pumpTx 256 s

/-- ACK (R398): settles one frame, or makes every unacknowledged one go again. -/
def execAck (ackedSeq : BitVec 32) (status : Byte) (s : State) : Host.Outcome State Fault Refusal :=
  .next (ackIn (heard s) ackedSeq.toNat status.toNat)

/-- An unacknowledged frame is due again: after 1100h.04 ticks, after 1100h.05 times once per heartbeat period. -/
def resendDue (s : State) (t : TxFrame) : Bool :=
  let wait := if t.resends < s.num 0x1100_05 then s.num 0x1100_04 else s.num 0x1100_07 * frameTicks
  wait ≤ s.since t.sentAt

/-- RETX_TIMEOUT (R399). -/
def execRetxTimeout (seq : BitVec 32) (s : State) : Host.Outcome State Fault Refusal :=
  match s.ring.unacked.find? fun t => t.frame.seq == seq with
  | none => .next s
  | some t =>
    if resendDue s t then
      .next (resendFrame (modUnacked s fun l => l.map fun (u : TxFrame) =>
        if u.frame.seq = seq then { u with sentAt := s.up, resends := u.resends + 1 } else u) t false)
    else .next s

/-! ### Cyclic maps (R405, R406) -/

/-- The entries of a map, as index and subindex. -/
def cyclicEntries (s : State) (m : Nat) : List (Nat × Nat) :=
  let b := s.blob (fam 0x1200_04 m)
  (pieces 4 (b.length / 4) b).map fun e => (bitsOf (leNat e) 23 8, bitsOf (leNat e) 7 0)

/-- Bytes of an entry's value. -/
def entryBytesOf (e : Nat × Nat) : Nat := (objTy (256 * e.1 + e.2)).bits / 8

/-- A firing stamp of a map (R405). -/
def firesAt (s : State) (m t : Nat) : Bool := t % (1024 * frameTicks) % s.num (fam 0x1200_02 m) == s.num (fam 0x1200_03 m)

/-- One entry of a map written; a refused one is counted. -/
def applyEntry (s : State) (m : Nat) (e : Nat × Nat) (b : Bytes) : State :=
  let r := writeObject s e.1 e.2 b none
  if r.1 = 0 then r.2 else r.2.inc (fam 0x1200_07 m)

def applyEntries (m : Nat) : List (Nat × Nat) → Bytes → State → State
  | [], _, s => s
  | e :: es, b, s => applyEntries m es (b.drop (entryBytesOf e)) (applyEntry s m e (b.take (entryBytesOf e)))

/-- The values of a receive map written in entry order (R406). -/
def applyMap (s : State) (m : Nat) (payload : Bytes) : State := (applyEntries m (cyclicEntries s m) payload s).inc (fam 0x1200_05 m)

def modCyclic (s : State) (g : List CyclicWait → List CyclicWait) : State := { s with ring := { s.ring with cyclic := g s.ring.cyclic } }

/-- A CYCLIC frame that fits its receive map: its stamp one of the map's, its payload the values and nothing else. -/
def cyclicOk (s : State) (m stamp : Nat) (payload : Bytes) : Bool :=
  s.num (fam 0x1200_01 m) == 2 && (stampTicks stamp).any (fun t => firesAt s m t)
    && payload.length == ((cyclicEntries s m).map entryBytesOf).foldl (· + ·) 0

/-- A CYCLIC frame consumed (R404, R406). -/
def cyclicIn (s : State) (m stamp : Nat) (payload : Bytes) : State :=
  if !s.sysUp then s
  else if !cyclicOk s m stamp payload then s.inc 0x1100_0E
  else
    let t := (stampTicks stamp).getD 0
    let mine := s.ring.cyclic.filter fun c => c.map == m
    if s.isPast t then (applyMap s m payload).inc (fam 0x1200_06 m)
    else if mine.any fun c => c.stamp == t then
      modCyclic s fun l => l.map fun (c : CyclicWait) => if c.map = m ∧ c.stamp = t then { c with payload := payload } else c
    else if 4 ≤ mine.length then s.inc (fam 0x1200_06 m)
    else modCyclic s fun l => l ++ [{ map := m, stamp := t, payload := payload }]

/-- CYCLIC (R406). -/
def execCyclic (map : Fin 16) (stamp : BitVec 64) (payload : Bytes) (s : State) : Host.Outcome State Fault Refusal :=
  .next (cyclicIn (heard s) map.val stamp.toNat payload)

/-- A value sampled for a transmit map; one that the seal's map hides is free (log entry 4). -/
def sampleEntry (s : State) (e : Nat × Nat) : Bytes × State :=
  let oid := 256 * e.1 + e.2
  if judgeRead s e.1 e.2 ≠ 0 then
    let (n, s) := s.drawNat (2 ^ (8 * entryBytesOf e))
    (leBytes (entryBytesOf e) n, s)
  else
    let (v, s) := readObject s e.1 e.2
    (valBytes oid v, s)

def sampleEntries : List (Nat × Nat) → State → Bytes × State
  | [], s => ([], s)
  | e :: es, s =>
    let (b, s) := sampleEntry s e
    let (bs, s) := sampleEntries es s
    (b ++ bs, s)

/-- CYCLIC_FIRE (R405, R406): the present instant is a firing stamp of a transmit map. -/
def execCyclicFire (map : Fin 16) (s : State) : Host.Outcome State Fault Refusal :=
  let m := map.val
  if s.refclk && s.sysUp && s.num (fam 0x1200_01 m) == 1 && firesAt s m s.now && (ownPort s).isSome then
    let (b, s) := sampleEntries (cyclicEntries s m) s
    .next ((sendPlain s 0x20 (leBytes 1 m ++ List.replicate 7 0#8 ++ leBytes 8 s.stamp) b).inc (fam 0x1200_05 m))
  else .next s

/-- The waiting frame of a map that is due, the earliest first. -/
def cyclicDue (s : State) (m : Nat) : Option CyclicWait :=
  (s.ring.cyclic.filter fun c => c.map == m && !stampBefore s.now c.stamp).foldl
    (fun (a : Option CyclicWait) c => match a with
      | none => some c
      | some d => if stampBefore c.stamp d.stamp then some c else some d) none

/-- CYCLIC_APPLY (R406): the stamp of a waiting frame has come. -/
def execCyclicApply (map : Fin 16) (s : State) : Host.Outcome State Fault Refusal :=
  match if s.sysUp then cyclicDue s map.val else none with
  | none => .next s
  | some c => .next (applyMap (modCyclic s fun l => l.filter fun d => d != c) c.map c.payload)

/-! ### Events (R407) -/

/-- A record of an EVENT frame; `top` is set for LNK's own. -/
def eventBytes (top : Bool) (e : EventRec) : Bytes :=
  leBytes 2 e.code ++ leBytes 1 e.unit ++ leBytes 1 0 ++ leBytes 4 (e.number % 2 ^ 31 + if top then 2 ^ 31 else 0)
    ++ leBytes 8 e.stamp ++ (e.data ++ List.replicate 48 0#8).take 48

/-- The queue of SYS or LNK's own. -/
def eventQueue (s : State) (lnk : Bool) : EventQueue := if lnk then s.events.lnk else s.events.sys

def modEvents (s : State) (lnk : Bool) (g : EventQueue → EventQueue) : State :=
  { s with events :=
    if lnk then { s.events with lnk := g s.events.lnk } else { s.events with sys := g s.events.sys } }

/-- EVENTS_LOST in a queue that has dropped records, once it has space again: their count and the first lost NUMBER, that of LNK's
queue with bit 31 set. -/
def eventsLost (s : State) (lnk : Bool) : State :=
  let q := eventQueue s lnk
  if q.dropped = 0 then s
  else
    (modEvents s lnk fun q => { q with dropped := 0, firstLost := 0 }).raiseIn lnk 0x1015 0xFF
      (leBytes 4 q.dropped ++ leBytes 4 (q.firstLost % 2 ^ 31 + if lnk then 2 ^ 31 else 0))

/-- The oldest record of a queue has waited 1100h.09 ticks. -/
def eventDue (s : State) (l : List EventRec) : Bool := l.head?.any fun r => s.num 0x1100_09 ≤ s.since r.queuedAt

/-- EVENT_SEND (R407): 64 records wait, or the oldest has waited 1100h.09 ticks. SYS's records go only while SYS answers. -/
def execEventSend (s : State) : Host.Outcome State Fault Refusal :=
  let sys := if s.sysUp then s.events.sys.recs else []
  let lnk := s.events.lnk.recs
  if s.refclk && (64 ≤ sys.length + lnk.length || eventDue s sys || eventDue s lnk) then
    let a := sys.take 64
    let b := lnk.take (64 - a.length)
    let s := modEvents (modEvents s false fun q => { q with recs := q.recs.drop a.length }) true fun q =>
      { q with recs := q.recs.drop b.length }
    let s := sendConfirmed s 0x30 (leBytes 1 (a.length + b.length)) ((a.map (eventBytes false) ++ b.map (eventBytes true)).flatten)
    let s := if a.isEmpty then s else eventsLost s false
    .next (if b.isEmpty then s else eventsLost s true)
  else .next s

/-! ### Weight frames (R193, R411) -/

def weightIn (s : State) (seq : Nat) (live : Bool) (model stage copy block : Nat) (payload : Bytes) : State :=
  if payload.length ≠ 4096 then ackIf live (s.inc 0x1100_0E) seq 0x60 2
  else if !s.sysUp then ackIf live s seq 0x60 4
  else
    let (taken, s) := weightBlockIn s model stage copy block none payload
    ackIf live s seq 0x60 (if taken then 0 else 4)

/-- WEIGHT_BLOCK (R193, R411): RECEIVED for a block taken or held already, REFUSED for one discarded otherwise. -/
def execWeightBlock (seq : BitVec 32) (model : BitVec 32) (stage : Byte) (copyId block : BitVec 32) (payload : Bytes) (s : State) :
    Host.Outcome State Fault Refusal :=
  .next (weightIn (heard s) seq.toNat true model.toNat stage.toNat copyId.toNat block.toNat payload)

/-! ### Ring management (R412, R413) -/

def ownSerial (s : State) : Nat := s.num 0x0000_06

/-- The node state as LNK reports it (R28). -/
def reportedState (s : State) : Nat := if s.sysUp then s.node.code else 5

/-- ROLL_CALL answered. The delay of 10 µs × (SERIAL mod 256) is left out (log entry 44). -/
def rollCallIn (s : State) (dir : Nat) : State :=
  sendPlain s 0x70 (leBytes 1 2)
    (leBytes 8 (ownSerial s) ++ leBytes 1 (nodeId s) ++ leBytes 1 (reportedState s) ++ leBytes 1 (s.num 0x0020_05) ++ leBytes 1 dir)

def execRollCall (dir : Fin 2) (s : State) : Host.Outcome State Fault Refusal := .next (rollCallIn (heard s) dir.val)

/-- ASSIGN for this device: both values saved, then acknowledged. -/
def assignIn (s : State) (seq : Nat) (live toOwn : Bool) (serial id ring : Nat) : State :=
  if 64 < id then ackIf live (s.inc 0x1100_0E) seq 0x70 2
  else if serial ≠ ownSerial s then (if toOwn then ackIf live s seq 0x70 4 else s)
  else if s.node = .sealed ∨ s.node = .configuring ∨ s.node = .quiesced then
    ackIf live ((s.setSaved 0x1100_01 id).setSaved 0x1100_02 ring) seq 0x70 0
  else ackIf live s seq 0x70 4

def execAssign (seq : BitVec 32) (toOwn : Bool) (serial : BitVec 64) (nodeId : Byte) (ringId : BitVec 32) (s : State) :
    Host.Outcome State Fault Refusal :=
  .next (assignIn (heard s) seq.toNat true toOwn serial.toNat nodeId.toNat ringId.toNat)

/-- A STATE frame as a write of 1001h.01: the status of its ACK, and the effect less that of RESTART. -/
def stateWrite (s : State) (command : Nat) : Nat × State :=
  let r := writeObject s 0x1001 1 (leBytes 1 command) none
  (if r.1 = 0 then 0 else if r.1 = 5 then 2 else 4, r.2)

/-- The device is a target of a broadcast STATE. -/
def targeted (s : State) (targets : Nat) : Bool := nodeId s != 0 && targets.testBit (nodeId s - 1)

/-- A STATE frame to the device itself. -/
def stateIn (s : State) (seq : Nat) (live : Bool) (command : Nat) : State :=
  let (r, s) := stateWrite s command
  let s := ackIf live (if r = 2 then s.inc 0x1100_0E else s) seq 0x70 r
  if r = 0 ∧ command = 7 then restartDevice s 5 else s

/-- A STATE frame to 127. -/
def stateAll (s : State) (command targets : Nat) : State :=
  if !targeted s targets then s
  else
    let (r, s) := stateWrite s command
    let s := if r = 2 then s.inc 0x1100_0E else s
    if r = 0 ∧ command = 7 then restartDevice s 5 else s

/-- STATE (R412): to the device, or to 127 with its target list. The row gives no SEQ, so the ACK of a unicast frame is
that of its RING_FRAME_RECEIVE (log entry 45). -/
def execState (command : Byte) (broadcast : Bool) (targets : BitVec 64) (s : State) : Host.Outcome State Fault Refusal :=
  if broadcast then .next (stateAll (heard s) command.toNat targets.toNat)
  else .next (stateIn (heard s) 0 false command.toNat)

/-- RESET (R413): carried out by LNK in every node state. -/
def resetIn (s : State) (seq : Nat) (live : Bool) (serial kind : Nat) : State :=
  if kind ≠ 1 ∧ kind ≠ 2 then ackIf live (s.inc 0x1100_0E) seq 0x70 2
  else if serial ≠ ownSerial s then ackIf live s seq 0x70 4
  else restartDevice (ackIf live s seq 0x70 0) (if kind = 1 then 3 else 4)

def execReset (seq : BitVec 32) (serial : BitVec 64) (kind : Byte) (s : State) : Host.Outcome State Fault Refusal :=
  .next (resetIn (heard s) seq.toNat true serial.toNat kind.toNat)

/-- LAST_EVENT: the NUMBER last queued, of LNK's queue while SYS does not answer; 0 while there is none. -/
def lastEvent (s : State) : Nat :=
  if s.sysUp then s.events.sys.last % 2 ^ 31
  else if s.events.lnk.last = 0 then 0 else 2 ^ 31 + s.events.lnk.last % 2 ^ 31

/-- HEARTBEAT (R412): once per 1100h.07 frames. -/
def execHeartbeat (s : State) : Host.Outcome State Fault Refusal :=
  if s.refclk && s.num 0x1100_07 * frameTicks ≤ s.since s.ring.heartbeatAt then
    .next (sendPlain { s with ring := { s.ring with heartbeatAt := s.up } } 0x70 (leBytes 1 6)
      (leBytes 1 (nodeId s) ++ leBytes 1 (reportedState s) ++ leBytes 1 (s.num 0x2000_03) ++ leBytes 1 (s.num 0x0020_05)
        ++ leBytes 4 (s.num 0x0020_01) ++ leBytes 1 (s.num 0x0020_02) ++ leBytes 1 (s.num 0x0020_03) ++ leBytes 1 (s.num 0x0020_04)
        ++ leBytes 1 0 ++ leBytes 4 (lastEvent s) ++ leBytes 8 s.stamp))
  else .next s

/-- NODE0_SILENT (R412): 1100h.08 frames without a frame from node 0. -/
def execNode0Silent (s : State) : Host.Outcome State Fault Refusal :=
  if s.refclk && !s.ring.node0Silent && s.num 0x1100_08 * frameTicks ≤ s.since s.ring.node0At then
    .next (({ s with ring := { s.ring with node0Silent := true } }).raise 0x1016 0xFF [])
  else .next s

/-! ### Consuming a frame (R395-R397) -/

def frameOp (f : Frame) : Nat := fieldAt f.arg 0 1
def frameConfirm (f : Frame) : Bool := f.flags.getLsbD 0

/-- Whether a type that node 0 sends is confirmed; none for every other type (R396, R412). -/
def confirmOf (f : Frame) : Option Bool :=
  match f.type.toNat with
  | 0x01 => some false
  | 0x10 => some true
  | 0x12 => some true
  | 0x20 => some false
  | 0x40 => some true
  | 0x50 => some false
  | 0x51 => some false
  | 0x60 => some true
  | 0x70 => match frameOp f with
    | 1 => some false
    | 3 => some true
    | 4 => some (f.dest != 127)
    | 5 => some true
    | _ => none
  | _ => none

def allZero (b : Bytes) : Bool := b.all (· == 0)

/-- The arguments and payload of a frame within their ranges, reserved bytes 0. -/
def argsOk (f : Frame) : Bool :=
  let a := f.arg
  let p := f.payload
  match f.type.toNat with
  | 0x01 => fieldAt a 5 1 ≤ 5 && allZero (a.drop 6)
  | 0x10 =>
    let op := fieldAt a 1 1
    let total := fieldAt a 8 4
    fieldAt a 0 1 ≤ 7 && 1 ≤ op && op ≤ 3 && fieldAt a 5 3 == 0 && allZero (a.drop 12)
      && (if op = 2 then total ≤ 16777216 && p.length == min total 4096 else total == 0 && p.isEmpty)
  | 0x12 => fieldAt a 0 1 ≤ 7 && fieldAt a 1 3 == 0 && fieldAt a 4 4 % 4096 == 0 && allZero (a.drop 12)
  | 0x20 => fieldAt a 0 1 < 16 && fieldAt a 1 7 == 0
  | 0x60 => fieldAt a 5 3 == 0
  | 0x70 => allZero (a.drop 1) && (match frameOp f with
    | 1 => p.isEmpty
    | 3 => p.length == 16 && fieldAt p 8 1 ≤ 64 && fieldAt p 9 3 == 0
    | 4 => p.length == 16 && fieldAt p 1 7 == 0
    | _ => p.length == 9)
  | _ => allZero a

/-- A consumed frame that breaks R6 or whose fields are out of range (R395), LENGTH among them. -/
def frameBad (f : Frame) : Bool :=
  decide (4096 < f.length) || f.flags.toNat / 8 != 0 || f.path.toNat / 4 != 0 || confirmOf f != some (frameConfirm f) || (!frameConfirm f && f.seq != 0)
    || (frameConfirm f && f.dest == 127) || !argsOk f

/-- A foreign frame (R395). -/
def foreign (s : State) (f : Frame) : Bool :=
  f.src != 0 || (f.ringId.toNat != ringId s && !(f.type == 0x70 && (frameOp f == 1 || frameOp f == 3)))

/-- A foreign frame counted; FOREIGN_RING once per frame period. -/
def foreignIn (s : State) (f : Frame) : State :=
  let s := s.inc 0x1100_0D
  let now := s.now / frameTicks
  if s.ring.foreignFrame = some now then s
  else ({ s with ring := { s.ring with foreignFrame := some now } }).raise 0x1018 0xFF (leBytes 4 f.ringId.toNat ++ leBytes 1 f.src.toNat)

/-- An ASSIGN to 126 for another device: no answer. -/
def notMine (s : State) (f : Frame) : Bool := f.dest == 126 && f.type == 0x70 && frameOp f == 3 && fieldAt f.payload 0 8 != ownSerial s

/-- The next part of a segmented write is in its place (R401). -/
def segmentOk (s : State) (x : Xfer) (offset total : Nat) (b : Bytes) : Bool :=
  match s.ring.xfers[x] with
  | none => false
  | some t => t.total == total && t.data.length == offset && b.length == min 4096 (total - offset)

def xferOf (n : Nat) : Xfer := ⟨n % 8, Nat.mod_lt _ (by decide)⟩

/-- A confirmed frame delivered in SEQ order (R397); `live` while its own acknowledgement is still to be sent. -/
def deliver (s : State) (f : Frame) (live : Bool) : State :=
  let a := f.arg
  let seq := f.seq.toNat
  let p := f.payload
  match f.type.toNat with
  | 0x10 =>
    let s := ackIf live s seq 0x10 0
    let x := xferOf (fieldAt a 0 1)
    match fieldAt a 1 1 with
    | 1 => deliverRead s x (fieldAt a 2 2) (fieldAt a 4 1)
    | 2 => beginWrite s x (fieldAt a 2 2) (fieldAt a 4 1) (fieldAt a 8 4) p
    | _ => endXfer s x
  | 0x12 =>
    let x := xferOf (fieldAt a 0 1)
    let (offset, total) := (fieldAt a 4 4, fieldAt a 8 4)
    segment (ackIf live s seq 0x12 (if segmentOk s x offset total p then 0 else 2)) x offset total p
  | 0x40 => serviceIn s seq live p
  | 0x60 => weightIn s seq live (fieldAt a 0 4) (fieldAt a 4 1) (fieldAt a 8 4) (fieldAt a 12 4) p
  | _ => match frameOp f with
    | 3 => assignIn s seq live (f.dest != 126) (fieldAt p 0 8) (fieldAt p 8 1) (fieldAt p 12 4)
    | 4 => stateIn s seq live (fieldAt p 0 1)
    | _ => if f.dest = 126 then ackIf live s seq 0x70 4 else resetIn s seq live (fieldAt p 0 8) (fieldAt p 8 1)

/-- The state that an outcome answers. -/
def stateOr (s : State) (o : Host.Outcome State Fault Refusal) : State :=
  match o with
  | .next t => t
  | _ => s

/-- An unconfirmed frame consumed; `port` is that of its arrival. The fraction of a tick of an arrival is free (log entry 4). -/
def consumePlain (s : State) (port : RingPort) (f : Frame) : State :=
  let a := f.arg
  match f.type.toNat with
  | 0x01 => ackIn s (fieldAt a 0 4) (fieldAt a 5 1)
  | 0x20 => cyclicIn s (fieldAt a 0 1) (fieldAt a 8 8) f.payload
  | 0x50 =>
    let (n, s) := s.drawNat 65536
    stateOr s (execTime (1 - port) (f.path.getLsbD 1) f.payload (BitVec.ofNat 16 n) s)
  | 0x51 =>
    let (n, s) := s.drawNat 65536
    if f.path.getLsbD 1 then (if timePayloadOk true f.payload then s else s.inc 0x1100_0E)
    else stateOr s (execProbe (1 - port) f.payload (BitVec.ofNat 16 n) s)
  | _ => if frameOp f = 1 then rollCallIn s (1 - port.val) else stateAll s (fieldAt f.payload 0 1) (fieldAt f.payload 8 8)

/-! ### Confirmed frames in SEQ order (R397, R399) -/

/-- The stream of a frame: frames to 126 are numbered apart from those to the device. -/
def isAll (f : Frame) : Bool := f.dest == 126

def setNext (s : State) (all : Bool) (n : Nat) : State :=
  if all then { s with ring := { s.ring with rxNextAll := some (n % 2 ^ 32) } }
  else { s with ring := { s.ring with rxNext := some (n % 2 ^ 32) } }

def rxBase (s : State) (all : Bool) : Option Nat := if all then s.ring.rxNextAll else s.ring.rxNext

/-- Held frames that the gap no longer holds back are delivered, each in turn. -/
def drainHeld (all : Bool) : Nat → State → State
  | 0, s => s
  | n + 1, s =>
    match rxBase s all with
    | none => s
    | some k =>
      match s.ring.rxHeld.find? fun f => isAll f == all && f.seq.toNat == k with
      | none => s
      | some f =>
        let s := setNext { s with ring := { s.ring with rxHeld := s.ring.rxHeld.filter fun g => g != f } } all (k + 1)
        drainHeld all n (if frameBad f then s else deliver s f false)

/-- SYNC sets the base and discards what is held of that stream. -/
def syncRx (s : State) (f : Frame) : State :=
  if f.flags.getLsbD 2 then
    setNext { s with ring := { s.ring with rxHeld := s.ring.rxHeld.filter fun g => isAll g != isAll f } } (isAll f) f.seq.toNat
  else s

/-- The answer to a frame that breaks the rules: counted and MALFORMED; an EVENT frame while SYS does not answer is REFUSED
(R395, R404). -/
def answerBad (s : State) (f : Frame) (live : Bool) : State :=
  if f.type = 0x30 ∧ !s.sysUp then ackIf live s f.seq.toNat 0x30 4
  else ackIf live (s.inc 0x1100_0E) f.seq.toNat f.type.toNat 2

/-- A confirmed frame consumed: delivered in order, held ahead of a gap, or answered as a duplicate or with RESYNC. What is refused
ahead of a gap because SYS does not answer (R404) is held as a frame of no type, which fills its place and does nothing. -/
def consumeConfirmed (s : State) (f : Frame) : State :=
  let bad := frameBad f
  let live := !notMine s f
  let type := f.type.toNat
  let seq := f.seq.toNat
  let s := syncRx s f
  let hold := fun (f : Frame) => { s with ring := { s.ring with rxHeld := s.ring.rxHeld ++ [f] } }
  match rxBase s (isAll f) with
  | none => ackIf live s seq type 3
  | some k =>
    let d := (seq + 2 ^ 32 - k) % 2 ^ 32
    if d = 0 then
      let s := setNext s (isAll f) (seq + 1)
      let s := if bad then answerBad s f live else deliver s f live
      drainHeld (isAll f) s.ring.rxHeld.length s
    else if 2 ^ 31 ≤ d then ackIf live s seq type 1
    else if s.ring.rxHeld.any (fun g => isAll g == isAll f && g.seq == f.seq) then ackIf live s seq type 1
    else if !bad ∧ !s.sysUp ∧ (type = 0x40 ∨ type = 0x60) then
      ackIf live (hold { f with type := 0xFF }) seq type 4
    else
      let s := hold f
      if bad then answerBad s f live else ackIf live s seq type 0

/-- A frame consumed: foreign, malformed, or carried out (R395). -/
def consume (s : State) (port : RingPort) (f : Frame) : State :=
  if foreign s f then foreignIn s f
  else
    let s := heard s
    if frameConfirm f then consumeConfirmed s f
    else if frameBad f then s.inc 0x1100_0E
    else consumePlain s port f

/-! ### Forwarding (R392-R394) -/

/-- Residence beyond 1.000 µs added to the CORRECTION of a PROBE or TIME frame; its length is free (log entry 4). -/
def addResidence (s : State) (f : Frame) : Frame × State :=
  if (f.type = 0x50 ∨ f.type = 0x51) ∧ f.payload.length = 32 then
    let (n, s) := s.drawNat (2 ^ 32)
    let c := (fieldAt f.payload 20 4 + n) % 2 ^ 32
    ({ f with payload := f.payload.take 20 ++ leBytes 4 c ++ f.payload.drop 24 }, s)
  else (f, s)

/-- A transit frame leaves by the opposite port, or is turned back where that one is wrapped. -/
def forward (s : State) (port : RingPort) (f : Frame) : State :=
  let (f, s) := addResidence s f
  let f := { f with hops := f.hops - 1 }
  if portUp s (1 - port) then emit s (1 - port) f else emit s port { f with path := f.path ||| 2 }

/-- The frame is removed as a bad one (R394): by its FEC, by its CRC over header and payload (R395), by a LENGTH that disagrees with
the bytes received, or with HOPS 0. -/
def badArrival (f : Frame) : Bool := !f.fecOk || f.crc != frameCrc f || f.payload.length != f.length || f.hops == 0

/-- A frame received (R392-R395). -/
def receiveFrame (s : State) (port : RingPort) (f : Frame) : State :=
  let s := s.inc (fam 0x1110_07 port.val)
  let own := nodeId s
  if badArrival f then s.inc (fam 0x1110_06 port.val)
  else if own ≠ 0 ∧ f.src.toNat = own then s
  else if own ≠ 0 ∧ f.dest.toNat = own then consume s port f
  else if f.dest = 127 ∨ (f.dest = 126 ∧ own = 0) then consume (forward s port f) port f
  else forward s port f

/-- RING_FRAME_RECEIVE (R392): on a port that is up. -/
def execRingFrameReceive (port : RingPort) (frame : Frame) (s : State) : Host.Outcome State Fault Refusal :=
  if s.refclk && portUp s port then .next (receiveFrame s port frame) else .next s

end Sys2Proof.Machine
end

