-- ==== Sys2Proof/Machine/VecOps.lean ====
section
/-! DEFINITION. VecOps.lean: the vector store, the operand fields, row operations and quantisation of the vector units
(R167-R176), as shared operations. -/

namespace Sys2Proof.Machine

/-! ### Fields and the store (R167, R168) -/

/-- The fields of a vector operation (R168). -/
structure VArgs where
  prec : Nat
  dst : Nat
  a : Nat
  b : Nat
  c : Nat
  len : Nat
  count : Nat
  imm : Nat
  deriving DecidableEq, Repr

def vargs (w : BitVec 128) : VArgs :=
  { prec := cmdBits w 9 8, dst := cmdBits w 23 10, a := cmdBits w 37 24, b := cmdBits w 51 38, c := cmdBits w 65 52,
    len := cmdBits w 81 66, count := cmdBits w 93 82, imm := cmdBits w 125 94 }

/-- Bytes of an input and of an output element. -/
def VArgs.inSize (v : VArgs) : Nat := if v.prec = 1 then 2 else 4
def VArgs.outSize (v : VArgs) : Nat := if v.prec = 0 then 4 else 2

/-- Lines of a row of `n` bytes; each row begins on a line boundary. -/
def rowLines (n : Nat) : Nat := ceilDiv n 64

/-- `rows` rows of `n` bytes from a line stay below line 16,384. -/
def inStore (line rows n : Nat) : Bool := decide (line + rows * rowLines n ≤ 16384)

def storeBytes (s : State) (f line n : Nat) : Bytes := memRead s.mem (vstoreBase f + 64 * line) n

def putBytes (s : State) (f line : Nat) (b : Bytes) : State := storeMem s (vstoreBase f + 64 * line) b

/-- The elements of row r at a line, as FP32 patterns; BF16 is widened exactly (R170). -/
def readRow (s : State) (f line size len r : Nat) : List Nat :=
  let b := storeBytes s f (line + r * rowLines (size * len)) (size * len)
  (List.range len).map fun i => if size = 2 then fieldAt b (2 * i) 2 * 65536 else fieldAt b (4 * i) 4

/-- An element in the output precision, with the flags of its rounding. -/
def outElem (size x : Nat) : Bytes × Nat :=
  if size = 2 then
    let r := toBf16 x
    (leBytes 2 r.1, r.2)
  else (leBytes 4 x, 0)

/-- What a row operation yields for one row: its elements, each a value in the output precision or a U32, and flags. -/
structure RowOut where
  values : List (Nat × Bool)
  flags : Nat
  deriving DecidableEq, Repr

def RowOut.ofFp (l : List (Nat × Nat)) : RowOut :=
  { values := l.map fun x => (x.1, true), flags := l.foldl (fun a x => a ||| x.2) 0 }

/-- The flags of several steps without the NaNs and infinities that arise between them: NAN_IN tells of the inputs alone (R171). -/
def stepFlags (inputs : List Nat) (flags : Nat) : Nat :=
  inputs.foldl (fun a x => a ||| nanIn x) (flags &&& (flagINV + flagOVF + flagDIV0 + flagSAT))

/-- A row computed in several steps from its inputs. -/
def RowOut.stepped (inputs : List Nat) (l : List (Nat × Nat)) : RowOut :=
  let o := RowOut.ofFp l
  { o with flags := stepFlags inputs o.flags }

/-- The indices among the values of a row. -/
def RowOut.indices (o : RowOut) : List Nat := (o.values.filter fun v => !v.2).map Prod.fst

/-- A row as bytes. -/
def RowOut.bytes (size : Nat) (o : RowOut) : Bytes × Nat :=
  o.values.foldl (fun (a : Bytes × Nat) v =>
    if v.2 then
      let e := outElem size v.1
      (a.1 ++ e.1, a.2 ||| e.2)
    else (a.1 ++ leBytes 4 v.1, a.2)) ([], o.flags)

/-- Rows written from a line, and the flags of all. -/
def writeRows (s : State) (f line size : Nat) (rows : List RowOut) : State × Nat :=
  (rows.zipIdx).foldl (fun (a : State × Nat) o =>
    let b := o.1.bytes size
    (putBytes a.1 f (line + o.2 * rowLines b.1.length) b.1, a.2 ||| b.2)) (s, 0)

/-! ### The head of a vector unit's queue -/

/-- Flags of an operation set in the task's status and in VEC_FLAGS (R171, R180). -/
def vecFlags (s : State) (f task flags : Nat) : State :=
  let s := s.setNum (fam 0x3900_02 f) (s.num (fam 0x3900_02 f) ||| flags)
  modTask s task fun t =>
    let mine := sparseGet (fun _ => 0) t.unitFlags (32 + f)
    { t with vflags := t.vflags ||| flags, unitFlags := sparsePut (fun _ => 0) t.unitFlags (32 + f) (mine ||| flags) }

/-- What a sampling operation gave its task: opcode, IMM and the index of each row (R312). -/
def noteSample (s : State) (task op imm : Nat) (indices : List Nat) : State :=
  modTask s task fun t => { t with sampled := t.sampled ++ [(op, imm, indices)] }

/-- The fields that every vector operation checks (R166, R168): reserved bits, precision, lengths. -/
def vecFields (w : BitVec 128) : Nat :=
  let v := vargs w
  if cmdBits w 127 126 ≠ 0 then 2 else if v.prec = 3 ∨ v.len = 0 ∨ v.count = 0 then 3 else 0

/-- Where `count` rows of n bytes from a line lie in the store. -/
def rowRanges (line count n : Nat) : List (Nat × Nat) := (List.range count).map fun r => (64 * (line + r * rowLines n), n)

/-- The ranges of the store that an operation reads (R169): its operands' rows; VSTORE reads them where it writes its buffer. -/
def vecReads (s : State) (f op : Nat) (v : VArgs) : List (Nat × Nat) :=
  let z := v.inSize
  let a := rowRanges v.a v.count (z * v.len)
  let b := rowRanges v.b v.count (z * v.len)
  let c := rowRanges v.c v.count (z * v.len)
  if op = 0x40 ∨ op = 0x41 then []
  else if op = 0x42 then
    let head := storeBytes s f v.a 64
    rowRanges v.a 1 (sumTileBytes (fieldAt head 0 1 % 3) (decide (3 ≤ fieldAt head 0 1)) (fieldAt head 4 2) (fieldAt head 6 2))
  else if op = 0x45 ∨ op = 0x52 then a ++ b ++ c
  else if op = 0x43 ∨ op = 0x44 ∨ op = 0x46 ∨ op = 0x47 ∨ op = 0x51 ∨ op = 0x53 then a ++ b
  else if op = 0x56 then a ++ rowRanges v.b 1 (z * v.len)
  else if op = 0x57 then a ++ rowRanges v.b 1 (z * v.count)
  else if op = 0x59 then rowRanges v.a v.count ((z + 4) * v.len)
  else a

/-- A vector operation at the head of unit f's queue: it reads its operands (R364), and an uncorrectable word aborts its task
(R365). -/
def runVec (s : State) (f : Nat) (prio : Bool) (op : Nat) (body : State → VArgs → Binding → Judge) : State :=
  runHead s (32 + f) prio (fun w => cmdOp w == op) fun s w b =>
    let c := vecFields w
    if c ≠ 0 then .bad c else
    match checkRanges .vectorStore f (vecReads s f op (vargs w)) s with
    | (t, none) => body t (vargs w) b
    | (t, some a) => match body s (vargs w) b with
      | .done _ => .done (readAbort t .vectorStore f a (32 + f) prio b.task)
      | j => j

/-- A non-finite input aborts the task without replay (R175). -/
def nonFinite (s : State) (f : Nat) (prio : Bool) (b : Binding) (op : Nat) : State :=
  let s := (s.inc (fam 0x3900_04 f)).raise 0x3042 f
    (leBytes 1 (32 + f) ++ leBytes 2 b.context ++ leBytes 4 b.copy ++ leBytes 2 b.task ++ leBytes 1 op)
  dropTask (abortTask s b.task (.complete 11) 256) (32 + f) prio b.task

def isFinite (x : Nat) : Bool := decide (x % 2 ^ 31 < 0x7F800000)

/-- Rows computed from operands A, B and C of COUNT rows each, and written from DST; `mask` are the flags of the
operation's row in R169. `aLen`, `bLen`, `cLen` give the elements read per row, 0 where an operand is not used. -/
def rowsBody (f : Nat) (prio : Bool) (mask aLen bLen cLen outBytes : Nat)
    (op : VArgs → List Nat → List Nat → List Nat → RowOut) (s : State) (v : VArgs) (b : Binding) : Judge :=
  let z := v.inSize
  if !inStore v.a v.count (z * aLen) || (bLen != 0 && !inStore v.b v.count (z * bLen))
    || (cLen != 0 && !inStore v.c v.count (z * cLen)) || !inStore v.dst v.count outBytes then .bad 3 else
  let rows := (List.range v.count).map fun r =>
    op v (readRow s f v.a z aLen r) (if bLen = 0 then [] else readRow s f v.b z bLen r)
      (if cLen = 0 then [] else readRow s f v.c z cLen r)
  let (s, flags) := writeRows (popCmd s (32 + f) prio) f v.dst v.outSize rows
  .done (vecFlags s f b.task (flags &&& mask))

/-- An elementwise operation of one, two or three operands. -/
def elementwise (f : Nat) (prio : Bool) (mask : Nat) (args : Nat) (g : VArgs → Nat → Nat → Nat → Nat × Nat) (s : State)
    (v : VArgs) (b : Binding) : Judge :=
  rowsBody f prio mask v.len (if 2 ≤ args then v.len else 0) (if 3 ≤ args then v.len else 0) (v.outSize * v.len)
    (fun v xs ys zs => RowOut.ofFp ((List.range v.len).map fun i => g v (xs.getD i 0) (ys.getD i 0) (zs.getD i 0))) s v b

/-! ### Rows (R169, R170) -/

/-- Several FP32 steps with the flags of all. -/
def stepF (g : Nat → Nat × Nat) (x : Nat × Nat) : Nat × Nat := let r := g x.1; (r.1, x.2 ||| r.2)
def stepF2 (g : Nat → Nat → Nat × Nat) (x y : Nat × Nat) : Nat × Nat := let r := g x.1 y.1; (r.1, x.2 ||| y.2 ||| r.2)

def fneg (x : Nat) : Nat := if isNan x then x else x ^^^ 2 ^ 31

/-- The maximum of a row in the tree of R170; NaN loses to a number. -/
def rowMax (xs : List Nat) : Nat := ((pairTree fmax 17 xs).head?).getD 0

def nanFlags (xs : List Nat) : Nat := xs.foldl (fun a x => a ||| nanIn x) 0

/-- VSOFTMAX: y = A * IMM, then e^(y - max y) * recip(sum). -/
def softmaxRow (v : VArgs) (xs : List Nat) : RowOut :=
  let ys := xs.map fun x => fmul x v.imm
  let m := rowMax (ys.map Prod.fst)
  let es := ys.map fun y => stepF (fexp 0x50) (stepF (fun y => fadd y (fneg m)) y)
  let r := stepF frecip (fsum (es.map Prod.fst))
  RowOut.stepped (v.imm :: xs) (es.map fun e => stepF2 fmul e r)

/-- The mean of squares, or of values, of a row. -/
def rowMean (xs : List (Nat × Nat)) : Nat × Nat :=
  let r := fsum (xs.map Prod.fst)
  let q := fdivNat r.1 xs.length
  (q.1, q.2 ||| r.2 ||| xs.foldl (fun a x => a ||| x.2) 0)

/-- VRMSNORM: A * B * rsqrt(mean(A^2) + IMM). -/
def rmsRow (v : VArgs) (xs ys : List Nat) : RowOut :=
  let r := stepF frsqrt (stepF (fun m => fadd m v.imm) (rowMean (xs.map fun x => fmul x x)))
  RowOut.stepped (v.imm :: xs ++ ys) ((xs.zip ys).map fun p => stepF2 fmul (fmul p.1 p.2) r)

/-- VLAYERNORM: (A - mean) * rsqrt(var + IMM) * B + C. -/
def layerRow (v : VArgs) (xs ys zs : List Nat) : RowOut :=
  let m := rowMean (xs.map fun x => (x, 0))
  let ds := xs.map fun x => stepF2 fadd (x, 0) (fneg m.1, m.2)
  let r := stepF frsqrt (stepF (fun q => fadd q v.imm) (rowMean (ds.map fun d => stepF2 fmul d d)))
  RowOut.stepped (v.imm :: xs ++ ys ++ zs) (((ds.zip ys).zip zs).map fun p =>
    stepF2 fadd (stepF2 fmul (stepF2 fmul p.1.1 r) (p.1.2, 0)) (p.2, 0))

/-- A finite value as a signed integer times a power of two. -/
def flFin (x : Nat) : Option (Int × Int) :=
  match fl32 x with
  | .fin s m e => some (sMag s m, e)
  | _ => none

/-- The exact products a * c and b * d of finite values, at one exponent. -/
def twoProducts (a c b d : Nat) : Option (Int × Int × Int) :=
  (flFin a).bind fun x => (flFin c).bind fun z => (flFin b).bind fun y => (flFin d).bind fun w =>
    let e := min (x.2 + z.2) (y.2 + w.2)
    some (x.1 * z.1 * 2 ^ (x.2 + z.2 - e).toNat, y.1 * w.1 * 2 ^ (y.2 + w.2 - e).toNat, e)

/-- a * c - b * d (or + with `plus`), exact and rounded once, then within 2 ulp (R170). -/
def rotateElem (plus : Bool) (a c b d : Nat) : Nat × Nat :=
  let w := nanIn a ||| nanIn b ||| nanIn c ||| nanIn d
  match twoProducts a c b d with
  | some (p, q, e) =>
    let r := if plus then p + q else p - q
    within2 0x53 (a + 2 ^ 32 * b + 2 ^ 64 * c + 2 ^ 96 * d + (if plus then 2 ^ 128 else 0)) (decide (r < 0)) r.natAbs 1 e
  | none =>
    let q := fmul b d
    let r := fadd (fmul a c).1 (if plus then q.1 else fneg q.1)
    (r.1, w)

/-- VROTARY: pairs rotated by the cosine and sine pairs of B. The manual states no result for a last
element without a partner: a free value, the same for the same operands (R170; log entry 127). -/
def rotaryRow (v : VArgs) (xs ys : List Nat) : RowOut :=
  RowOut.ofFp ((List.range v.len).map fun i =>
    let j := i / 2 * 2
    let x := xs.getD j 0
    let y := xs.getD (j + 1) 0
    let c := ys.getD j 0
    let n := ys.getD (j + 1) 0
    if v.len ≤ j + 1 then ((Config.rotateUnpaired x c).toNat, 0)
    else if i % 2 = 0 then rotateElem false x c y n else rotateElem true x n y c)

/-- VREDMAX: the largest value and its lowest index. -/
def redmaxRow (xs : List Nat) : RowOut :=
  let best := (pairTree (fun (x y : Nat × Nat) =>
    if isNan x.1 then (if isNan y.1 then x else y) else if isNan y.1 then x else if fle y.1 x.1 then x else y) 17
    xs.zipIdx).head?.getD (0, 0)
  let r := if isNan best.1 then (nan32, 0) else best
  { values := [(r.1, true), (r.2, false)], flags := nanFlags xs }

/-- One value goes before another in the list of VTOPK: larger first, NaNs last, lower index on ties. -/
def topBefore (x y : Nat × Nat) : Bool :=
  if isNan x.1 then isNan y.1 && decide (x.2 ≤ y.2)
  else if isNan y.1 then true
  else if fle y.1 x.1 then (if fle x.1 y.1 then decide (x.2 ≤ y.2) else true) else false

/-- VTOPK. -/
def topkRow (v : VArgs) (xs : List Nat) : RowOut :=
  let top := (xs.zipIdx.mergeSort topBefore).take v.imm
  { values := (top.map fun x => [(if isNan x.1 then nan32 else x.1, true), (x.2, false)]).flatten, flags := nanFlags xs }

/-- The index that VSAMPLE takes from value and index pairs (R169). -/
def sampleIndex (imm : Nat) (ps : List (Nat × Nat)) : Nat × Nat :=
  let total := fsum (ps.map Prod.fst)
  let q := round32 false imm (2 ^ 32) 0
  let t := stepF2 fmul q total
  let walk := ps.foldl (fun (a : (Nat × Nat) × Option Nat) p =>
    match a.2 with
    | some _ => a
    | none =>
      let r := stepF2 fadd a.1 (p.1, 0)
      (r, if fle t.1 r.1 then some p.2 else none)) ((0, 0), none)
  (walk.2.getD ((ps.getLast?.map Prod.snd).getD 0), stepFlags (ps.map Prod.fst) (t.2 ||| walk.1.2))

/-! ### Sum tiles (R172) -/

/-- VSUMCVT of element k of a sum tile: an FP32 value and, for winner forms, its index. -/
def sumElem (tile : Bytes) (k : Nat) : (Nat × Nat) × Nat :=
  let form := fieldAt tile 0 1
  let win := decide (3 ≤ form)
  let f := form % 3
  let o := 64 + k * formBytes f win
  let v := match f with
    | 0 => let m := signedOf 32 (fieldAt tile o 4); round32 (decide (m < 0)) m.natAbs 1 (fieldAt tile 1 1)
    | 1 =>
      let m := signedOf 32 (fieldAt tile o 4)
      round32 (decide (m < 0)) m.natAbs 1 (signedOf 16 (fieldAt tile 8 2) + signedOf 8 (fieldAt tile (o + 4) 1))
    | _ =>
      let m := signedOf 64 (fieldAt tile o 8)
      round32 (decide (m < 0)) m.natAbs 1 (signedOf 16 (fieldAt tile (o + 8) 2))
  (v, if win then fieldAt tile (o + formBytes f false) 4 else 0)

/-! ### Quantisation (R173-R176) -/

/-- The range of an aligned integer format (R81); T1 is clamped to -1 to +1. -/
def intRange (c : Nat) : Int × Int :=
  match c with
  | 0 => (-1, 1)
  | 1 => (-2, 1)
  | 2 => (-8, 7)
  | _ => (-128, 127)

/-- RNE of an FP32 value to an integer. -/
def rneInt (x : Nat) : Int :=
  match fl32 x with
  | .fin s m e => if 0 ≤ e then sMag s m * 2 ^ e.toNat else rneDiv (sMag s m) (2 ^ (-e).toNat)
  | _ => 0

/-- A value of an integer format, and whether it was clamped. -/
def quantInt (c x : Nat) : Int × Bool :=
  let a := rneInt x
  let (lo, hi) := intRange c
  (max lo (min hi a), decide (a < lo) || decide (hi < a))

/-- Magnitude bits, smallest exponent and largest value (as m * 2^e) of an OCP element format; emax of R174. -/
def ocpShape (c : Nat) : Nat × Int × Nat × Int :=
  match c with
  | 4 => (2, -1, 6, 2)
  | 5 => (4, -9, 448, 8)
  | _ => (3, -16, 57344, 15)

/-- The shared scale field of a block of 32 (R174). -/
def ocpScale (c : Nat) (xs : List Nat) : Nat :=
  let amax := xs.foldl (fun a x => if fle a (x % 2 ^ 31) then x % 2 ^ 31 else a) 0
  match fl32 amax with
  | .fin _ m e =>
    if m = 0 then 127 else
    let x := (Nat.log2 m : Int) + e - (ocpShape c).2.2.2 + 127
    (max 0 (min 254 x)).toNat
  | _ => 127

/-- An element rounded to an OCP format at a scale field: sign, m, e for m * 2^e, and whether it was clamped. -/
def ocpElem (c scale x : Nat) : (Bool × Nat × Int) × Bool :=
  match fl32 x with
  | .fin s m e0 =>
    if m = 0 then ((s, 0, 0), false) else
    let (p, emin, top, _) := ocpShape c
    let e := e0 - ((scale : Int) - 127)
    let q := max ((Nat.log2 m : Int) + e - ((p : Int) - 1)) emin
    let sh := e - q
    let r := (if 0 ≤ sh then ((m * 2 ^ sh.toNat : Nat) : Int) else rneDiv (m : Int) (2 ^ (-sh).toNat)).toNat
    let (r, q) := if r = 2 ^ p then (2 ^ (p - 1), q + 1) else (r, q)
    let big := if 0 ≤ q then decide (top < r * 2 ^ q.toNat) else decide (top * 2 ^ (-q).toNat < r)
    if big then
      let k := Nat.log2 top + 1 - p
      ((s, top / 2 ^ k, (k : Int)), true)
    else ((s, r, q), false)
  | _ => ((false, 0, 0), false)

/-- The code of an OCP element (R97). -/
def ocpCode (c : Nat) (v : Bool × Nat × Int) : Nat :=
  let (s, m, q) := v
  match c with
  | 4 =>
    let d := (if 0 ≤ q + 1 then m * 2 ^ (q + 1).toNat else m / 2)
    (([0, 1, 2, 3, 4, 6, 8, 12].findIdx? fun x => x == d).getD 0) + (if s then 8 else 0)
  | 5 => (if m < 8 then m else ((q + 10) * 8 + (m - 8 : Int)).toNat) + (if s then 128 else 0)
  | _ => (if m < 4 then m else ((q + 17) * 4 + (m - 4 : Int)).toNat) + (if s then 128 else 0)

/-- A value rounded to BF16 (R174). -/
def bfElem (x : Nat) : Nat := (toBf16 x).1

/-- A chunk of 128 FP32 values, zero beyond the row, and the products with IMM. -/
def chunkOf (xs : List Nat) (imm k : Nat) : List Nat :=
  (List.range 128).map fun i => match xs[128 * k + i]? with
    | some x => (fmul x imm).1
    | none => 0

/-- The aligned integers and exponent of a chunk for the activation role, and the elements clamped (R173, R174). -/
def quantChunk (c : Nat) (ys : List Nat) : (List Int × Int) × Nat :=
  if !fmtScaled c then
    let q := ys.map (quantInt c)
    ((q.map Prod.fst, 0), (q.filter Prod.snd).length)
  else if c = 7 then
    let vs := ys.filterMap fun y => elemValue 7 (bfElem y)
    match alignFloat (fmtN 7 false) vs with
    | .ok a => ((a.ints, a.exp), 0)
    | .error _ => ((vs.map fun _ => 0, -128), 0)
  else
    let scales := (List.range 4).map fun k => ocpScale c ((ys.drop (32 * k)).take 32)
    let es := ys.zipIdx.map fun y => (ocpElem c (scales.getD (y.2 / 32) 127) y.1, scales.getD (y.2 / 32) 127)
    let sat := (es.filter fun e => e.1.2).length
    let a := if c = 4 then
        alignMf4 (es.map fun e =>
          let v := e.1.1
          (sMag v.1 (if 0 ≤ v.2.2 + 1 then v.2.1 * 2 ^ (v.2.2 + 1).toNat else v.2.1 / 2), e.2))
      else alignFloat (fmtN c false) (es.map fun e => (e.1.1.1, e.1.1.2.1, e.1.1.2.2 + ((e.2 : Int) - 127)))
    match a with
    | .ok a => ((a.ints, a.exp), sat)
    | .error _ => ((ys.map fun _ => 0, -128), sat)

/-- A stored chunk row of a weight format (R97, R176), and the elements clamped. A value that rounds to BF16 infinity is stored as
it rounds, and refused where it is converted (R93, R109). -/
def storeChunk (c : Nat) (ys : List Nat) : Bytes × Nat :=
  if !fmtScaled c then
    let q := ys.map (quantInt c)
    (packContainers (fmtStoredBits c) (q.map fun x => unsignedOf (fmtStoredBits c) x.1), (q.filter Prod.snd).length)
  else if c = 7 then ((ys.map fun y => leBytes 2 (bfElem y)).flatten, 0)
  else
    let scales := (List.range 4).map fun k => ocpScale c ((ys.drop (32 * k)).take 32)
    let es := ys.zipIdx.map fun y => ocpElem c (scales.getD (y.2 / 32) 127) y.1
    ((scales.map (leBytes 1)).flatten ++ packContainers (if c = 4 then 4 else 8) (es.map fun e => ocpCode c e.1),
     (es.filter Prod.snd).length)

end Sys2Proof.Machine
end

