-- ==== Sys2Proof/Machine/StreamRows.lean ====
section
/-! DEFINITION. StreamRows.lean: jigs, conversions, pushes, releases, escape grants and the stall sentinel (R225-R250): one
meaning for each row. -/

namespace Sys2Proof.Machine

/-! ### Jigs (R232-R235) -/

/-- A load jig hands its buffers to the queue and station that its EMIT or PLANE names, where its stream has one receiver with a
queue of a station (R221, R234). -/
def bindReceiver (sh : JigShape) (x : Stream) : Stream :=
  match x.receivers with
  | [r] =>
    if sh.store || r.engine == 0x48 then x
    else if r.engine < 64 then { x with receivers := [{ r with engine := r.engine / 32 * 32 + sh.station, queue := sh.queue }] }
    else { x with receivers := [{ r with queue := sh.station % 4 * 32 + sh.queue }] }
  | _ => x

/-- JIG_START (R232, R233): the scheduler writes the jig's entries and starts it for an open stream of its engine; a jig
that is not well formed is a jig fault. A stream runs one jig at a time, an engine at most 16; a further one waits its turn. -/
def execJigStart (engine : Fin 9) (jig : BitVec 8) (eic : PairId) (stream : BitVec 10) (entries : List (BitVec 64))
    (what : JigData) (s : State) : Host.Outcome State Fault Refusal :=
  let es := entries.map fun e => e.toNat
  let n := stream.toNat
  match findStream s eic.val n with
  | none => .next s
  | some x =>
    let busy := s.jigs.any fun j => !j.ended && ((j.eic == eic.val && j.stream == n) || (j.engine == engine.val && j.jig == jig.toNat))
    if busy then .next s else
    let s := { s with jigTable := sparsePut (fun _ => []) s.jigTable (engine.val * 256 + jig.toNat) (es.take 16) }
    match jigBad engine.val es with
    | some i => .next (jigFault s eic.val engine.val jig.toNat n x.desc.task i 0)
    | none =>
      let sh := jigShape es
      let j : JigRun := {
        engine := engine.val, jig := jig.toNat, eic := eic.val, stream := n, entries := es, next := 0,
        tag := bitsOf sh.ender 53 46, emitted := 0, openBuf := none, data := [], converting := false, what := what,
        reading := 0, got := [], hold := none, skip := 0, ended := false, catchup := false, firstSerial := x.nextSerial }
      let s := modStream s eic.val n (bindReceiver sh)
      .next (touch { s with jigs := s.jigs ++ [j] } x.desc.task)

/-- A fault of a running jig. -/
def runFault (s : State) (j : JigRun) (entry addr : Nat) : State :=
  jigFault s j.eic j.engine j.jig j.stream (jigTask s j) entry addr

/-- The shelf places of the records of a stored tile that the cache of its pair holds, and how many it does not hold (R191); a
tile that no operand has is not cached. -/
def tileCached (s : State) (j : JigRun) (sh : JigShape) (a : Nat) : List Nat × Nat :=
  match findTask s (jigTask s j), j.ofOperand with
  | some t, true =>
    let k := jigTile s j sh a
    let id := cacheId t.context t.copy k.operand sh.format k.rowTile k.chunk
    let n := fmtTrits sh.format
    let ps := (List.range n).filterMap fun i => cacheFind s j.eic (id i)
    (ps, n - ps.length)
  | _, _ => ([], 0)

/-- An emission served by the shelf cache: its records go to the converter's output as they stand. -/
def cachedEmission (s : State) (j : JigRun) (sh : JigShape) (ps : List Nat) : State :=
  let s := s.inc (fam 0x4200_04 j.eic)
  let recs := (ps.map fun p => memRead s.mem (shelfBase j.eic + p * recordBytes) recordBytes).drop j.skip
  let c : ConvertJob := {
    eic := j.eic, stream := j.stream, task := jigTask s j, skip := 0, made := true, records := recs, context := 0,
    copy := 0, operand := 0, rowTile := 0, chunk := 0, rows := 0, lanes := 0, cached := false, format := sh.format, tile := [] }
  let s := modConvert s j.eic fun l => l ++ [c]
  let s := modJig s j.eic j.stream fun j => { j with converting := true, skip := 0 }
  let (s, rest) := pushRecords s j.eic j.stream sh recs
  endJig (endConvert s c rest) j.eic j.stream sh.total

/-- Bytes of the buffer that a load jig opens next. -/
def jigBuffer (j : JigRun) (sh : JigShape) : Nat := min sh.perBuf (sh.total - j.next) * sh.len

/-- The data of an emission asked for at its home. -/
def homeEmission (s : State) (j : JigRun) (sh : JigShape) (a : Nat) (errors : List (Nat × ReadOutcome)) : State :=
  if sh.remote then match jigFetch s j sh a with
    | some s => s
    | none => runFault s j 0 a
  else jigRead s j sh a errors

/-- A load emission at address a. Each record that the cache holds is a hit and read from the shelf; any other record of an
operand is a miss, and its emission goes to the operand's home (R191). -/
def loadEmission (s : State) (j : JigRun) (sh : JigShape) (a : Nat) (errors : List (Nat × ReadOutcome)) : State :=
  if sh.tiles then
    let (ps, missed) := tileCached s j sh a
    match checkRanges .shelf j.eic (ps.map fun p => (p * recordBytes, recordBytes)) s with
    | (s, some w) => abortTask (noteShelfBad s j.eic w 3 (jigTask s j)) (jigTask s j) .replay 256
    | (s, none) =>
      let s := (ps.foldl (fun s p => touchCache s j.eic p) s).add 0x5000_0A missed
      if missed = 0 && !ps.isEmpty then cachedEmission s j sh ps else homeEmission s j sh a errors
  else
    match j.openBuf with
    | some _ => homeEmission s j sh a errors
    | none =>
      match takeBuf s j.eic j.stream (jigBuffer j sh) j.tag sh.plane with
      | none => starve s j.eic j.stream
      | some (s, serial) =>
        let s := if sh.plane && j.ofOperand then s.add 0x5000_0A 1 else s
        let s := modJig s j.eic j.stream fun j => { j with openBuf := some serial }
        homeEmission s { j with openBuf := some serial } sh a errors

/-- One part of the open buffer of a store jig written to its stack; the last part ends the buffer. What a store into a remote home
does there the manual does not say: nothing is written here (log entry 104). -/
def storePart (s : State) (j : JigRun) (sh : JigShape) (a : Nat) (data : Bytes) (hold : Option Hold) : State :=
  let part := data.take sh.len
  let s := if sh.remote then s else countPort (storeMem s (hbmBase sh.stack + a) part) j.engine sh.stack part.length true
  let s := s.inc (fam 0x4200_04 j.eic)
  let rest := data.drop sh.len
  let done := rest.isEmpty || sh.perBuf ≤ j.emitted + 1 || sh.total ≤ j.next + 1
  let s := modJig s j.eic j.stream fun j =>
    if done then { j with next := j.next + 1, emitted := 0, data := [], hold := none, tag := (j.tag + sh.tagStep) % 256 }
    else { j with next := j.next + 1, emitted := j.emitted + 1, data := rest, hold := hold }
  let s := if done then releaseHold s hold else s
  endJig (touch s (jigTask s j)) j.eic j.stream sh.total

/-- A store emission at address a (R228, R234): the first of a buffer pops it, checks its tag and reads it (R364, R365); the last
releases it. -/
def storeEmission (s : State) (j : JigRun) (sh : JigShape) (a : Nat) : State :=
  if j.emitted ≠ 0 then storePart s j sh a j.data j.hold else
  match queueAt s sh.station sh.queue with
  | [] => s
  | i :: _ =>
    if handleTag i.handle ≠ j.tag then runFault s j sh.enderAt a else
    match checkItem s i with
    | (s, some w) => abortTask (noteTaskBad s .staging i.eic w (jigTask s j)) (jigTask s j) .replay 256
    | (s, none) =>
      storePart (popQueue s sh.station sh.queue) j sh a (itemData s sh.station i) (holdOf sh.station sh.queue i)

/-- A jig can make its next emission: nothing of it is on its way, and its buffer or the credits for it are at hand. -/
def jigReady (s : State) (j : JigRun) : Bool :=
  let sh := jigShape j.entries
  !j.converting && j.reading == 0 && decide (j.next < sh.total)
    && (if sh.store then j.emitted != 0 || !(queueAt s sh.station sh.queue).isEmpty
        else sh.tiles || j.openBuf.isSome || (takeBuf s j.eic j.stream (jigBuffer j sh) j.tag sh.plane).isSome)

/-- The jigs that an engine runs: the first 16 that have not ended, in the order of their starts (R232). -/
def enginesJigs (s : State) (engine : Nat) : List JigRun := (s.jigs.filter fun j => !j.ended && j.engine == engine).take 16

/-- The class of a jig's stream. -/
def jigClass (s : State) (j : JigRun) : Nat := ((findStream s j.eic j.stream).map fun x => clsCode x.desc.cls).getD 3

/-- The ready jig that an engine chooses: by class, then by the earliest start (R232). -/
def jigChoice (s : State) (engine : Nat) : Option JigRun :=
  ((enginesJigs s engine).filter (jigReady s)).foldl (fun (a : Option JigRun) j => match a with
    | none => some j
    | some k => if jigClass s j < jigClass s k then some j else some k) none

/-- The first read of a catch-up stream may delay the task's next phase beyond its checkpoint (R282): whether it would is free. -/
def catchupRisk (s : State) (j : JigRun) : State :=
  if !j.catchup || j.openBuf.isSome || ((findStream s j.eic j.stream).map fun x => x.nextSerial) != some 0 then s else
  let (late, s) := s.drawBool
  if late then recertify s [jigTask s j] 5 false false else s

/-- The first access of an emission of the remote fetch engine to HBM3E that falls in no window granting it (R577), with its entry:
the words of a gathering index list, else the emission itself. A window's address counts the stacks in order, each by its size
(DESIGN CHOICE, log entry 145). -/
def windowFault (s : State) (j : JigRun) (sh : JigShape) (a : Nat) : Option (Nat × Nat) :=
  if j.engine ≠ 8 ∨ sh.remote then none else
  let at_ := sh.stack * hbmBytes
  match (gatherWord sh j.next).find? fun w => !windowsGrant s 1 2 (at_ + w.1) w.2 with
  | some w => some (sh.gatherAt, w.1)
  | none => if windowsGrant s 1 (if sh.store then 3 else 2) (at_ + a) sh.len then none else some (sh.enderAt, a)

/-- The next emission of a jig. -/
def emitJig (s : State) (j : JigRun) (errors : List (Nat × ReadOutcome)) : State :=
  let sh := jigShape j.entries
  if j.converting || j.reading != 0 then s
  else if sh.total ≤ j.next then endJig s j.eic j.stream sh.total
  else match (jigBad j.engine j.entries).map fun i => (i, 0) with
    | some (entry, addr) => runFault s j entry addr
    | none => match jigAddr s sh (jigLimit s j sh) j.next with
      | .error (entry, addr) => runFault s j entry addr
      | .ok a =>
        match windowFault s j sh a with
        | some (entry, addr) => runFault s j entry addr
        | none =>
        if !jigReady s j then (if sh.store then s else loadEmission s j sh a errors) else
        match checkRanges .hbm sh.stack (gatherWord sh j.next) (countGather s j.engine sh) with
        | (s, some w) => abortTask (noteHbmBad s sh.stack w 3 (jigTask s j) 1 (contextOf s (jigTask s j))) (jigTask s j) .replay 256
        | (s, none) => if sh.store then storeEmission s j sh a else loadEmission s j sh a errors

/-- A dip stops a jig: of a rail of its stack, whose arbiter issues no new access (R518), or of the rail of its own engine
(R497, R512). -/
def jigDips (s : State) (e : Nat) (sh : JigShape) : Bool :=
  (!sh.remote && (s.dipping 4 || s.dipping (5 + sh.stack) || s.dipping (13 + sh.stack))) || (decide (e < 8) && s.dipping (21 + e))

/-- JIG_EMISSION (R232, R234): the next emission of a jig, in loop order, with the errors that its words have come to hold. A jig waits
while its last tile is converted, a remote read is under way, no credit is held for its next buffer, its queue is empty, or its engine
chooses another. Of catch-up jigs under one number, one that is ready goes first. -/
def execJigEmission (engine : Fin 9) (jig : BitVec 8) (errors : List (Nat × ReadOutcome)) (s : State) :
    Host.Outcome State Fault Refusal :=
  let mine := (enginesJigs s engine.val).filter fun j => j.jig == jig.toNat
  match ((jigChoice s engine.val).filter fun j => j.jig == jig.toNat).or mine.head? with
  | none => .next s
  | some j =>
    if jigDips s engine.val (jigShape j.entries) then .next s else
    let other := jigReady s j && !((jigChoice s engine.val).any fun k => k.jig == j.jig)
    if other then .next s else
    let s := catchupRisk s j
    match runningJig s j.eic j.stream with
    | none => .next s
    | some j => .next (emitJig s j errors)

/-! ### Conversions (R105-R111, R191) -/

/-- A refused conversion: counted, told, its task aborted and not replayed (R109). -/
def refuseTile (s : State) (c : ConvertJob) (cause : Nat) : State :=
  let s := (s.inc 0x3300_05).raise 0x3020 c.eic
    (leBytes 2 c.context ++ leBytes 4 c.copy ++ leBytes 4 c.operand ++ leBytes 4 c.rowTile ++ leBytes 4 c.chunk
      ++ leBytes 1 cause)
  let s := modConvert s c.eic fun l => l.filter fun q => q != c
  abortTask s c.task (.complete 8) 256

/-- A tile converted: counted, an operand's records offered to the cache, then handed on (R106, R107, R110, R191). -/
def convertDone (s : State) (c : ConvertJob) (recs : List Bytes) (rounded clamped : Nat) : State :=
  let s := ((s.inc 0x3300_04).add 0x3300_06 rounded).add 0x3300_07 clamped
  let s := if !c.cached then s else recs.zipIdx.foldl (fun s r =>
    cachePut s c.eic (cacheId c.context c.copy c.operand c.format c.rowTile c.chunk r.2) r.1) s
  modConvert s c.eic fun l => l.map fun q => if q = c then { q with made := true, records := recs.drop c.skip, tile := [] } else q

/-- PLANE_CONVERT_COMPLETE (R107, R109): the plane converter of pair n is done with its oldest tile; a tile whose buffers
wait for credits gives its next ones. -/
def execPlaneConvertComplete (n : PairId) (s : State) : Host.Outcome State Fault Refusal :=
  match (s.converts[n.val]).head? with
  | none => .next s
  | some c =>
    let id : RecId := { context := c.context, copy := c.copy, operand := c.operand, format := c.format, rowTile := c.rowTile,
                        chunk := c.chunk, trit := 0 }
    let r : Except Nat State := if c.made then .ok s else
      match convertTile (s.num 0x3000_04) id c.rows c.lanes c.tile with
      | .error cause => .error cause
      | .ok (recs, rounded, clamped) => .ok (convertDone s c recs rounded clamped)
    match r with
    | .error cause => .next (refuseTile s c cause)
    | .ok s =>
      match (s.converts[n.val]).head?, runningJig s c.eic c.stream with
      | some d, some j =>
        let sh := jigShape j.entries
        let (s, rest) := pushRecords s c.eic c.stream sh d.records
        .next (endJig (endConvert s d rest) c.eic c.stream sh.total)
      | _, _ => .next s

/-! ### Pushes and releases (R226, R227) -/

/-- A number of bytes that nothing in the manual fixes. -/
def drawBytes : Nat → State → Bytes × State
  | 0, s => ([], s)
  | n + 1, s =>
    let (b, s) := s.drawNat 256
    let (l, s) := drawBytes n s
    (leBytes 1 b ++ l, s)

/-- The control cores produce a biscuit into a stream of theirs (R220): what it holds, and its tag, the manual leaves to their
firmware: free (log entry 106). -/
def coreBiscuit (s : State) (eic n : Nat) : State :=
  let (len, s) := s.drawNat 256
  let (tag, s) := s.drawNat 256
  let (data, s) := drawBytes (len + 1) s
  match takeBuf s eic n data.length tag false with
  | some (s, serial) => finishBuf s eic n serial 0 data
  | none => s

/-- HANDLE_PUSH (R227, R240, R248-R250): the buffers of a stream that are ready and wait are pushed, oldest first, while
every receiver's queue has room; the control cores have one to push whenever they are asked. -/
def execHandlePush (n : PairId) (stream : BitVec 10) (s : State) : Host.Outcome State Fault Refusal :=
  match findStream s n.val stream.toNat with
  | none => .next s
  | some x =>
    if x.desc.producer = 0x49 ∧ x.ready.isEmpty then .next (coreBiscuit s n.val stream.toNat)
    else .next (pushAll s n.val stream.toNat 64)

/-- The stream whose handle stands at the head of a queue and whose consumer there is the control cores. -/
def coreStream (s : State) (f q : Nat) : Option (Stream × QItem) :=
  match (queueAt s f q).head? with
  | none => none
  | some i => (findStream s i.eic i.stream).bind fun x =>
      if (x.receivers[receiverAt x f q]?).any fun r => r.engine == 0x49 then some (x, i) else none

/-- BUFFER_RELEASE (R226): the consumers of a station release what they have done with: runs whose every symbol has an
accepted verdict, planes that no symbol needs any more (R64), and, for a queue that the control cores consume, its head. -/
def execBufferRelease (station : FacetId) (queue : Fin 32) (s : State) : Host.Outcome State Fault Refusal :=
  let s := finishRuns s station.val
  match coreStream s station.val queue.val with
  | none => .next s
  | some (x, i) =>
    .next (releaseBuf (popQueue s station.val queue.val) x.desc.eic x.desc.stream i.buf (receiverAt x station.val queue.val))

/-! ### Sends of words that cannot be decoded (R365) -/

/-- The address of a code word that cannot be decoded in a buffer that a stream is about to send. -/
def badSend (s : State) (x : Stream) : Option Nat :=
  let first := (x.ready.head?.bind fun b => findBuf x b.buf).filter (sendBad s x)
  let peers := x.receivers.filterMap fun r =>
    if r.onPeer then (r.unsent.head?.bind (findBuf x)).filter fun b => decide (b.blocks ≤ r.window) else none
  (first.toList ++ peers).findSome? fun b => (checkBlocks s x.desc.eic (b.blockNums x.desc) b.bytes).2

/-- The tasks whose sends meet such words are aborted (log entry 135). -/
def abortBadSends (s : State) : State :=
  if s.maint.errs.isEmpty then s else
  s.streams.foldl (fun s x => match badSend s x with
    | some a => if (findTask s x.desc.task).isSome
        then abortTask (noteTaskBad s .staging x.desc.eic a x.desc.task) x.desc.task .replay 256 else s
    | none => s) s

/-! ### Escape grants and the stall sentinel (R245-R247) -/

/-- A producer has waited 4100h.05 ticks with every block of its pool held, and may use the escape reserve (R245). -/
def grantDue (s : State) (x : Stream) : Bool :=
  (match x.starvedAt with
    | some t => decide (s.num 0x4100_05 ≤ s.since t)
    | none => false) && x.desc.escape && !x.granted && decide (x.desc.poolBlocks ≤ x.held)

/-- The escape reserve granted for one buffer; the task's progress starts again (R247). -/
def grantEscape (s : State) (x : Stream) : State :=
  touch ((modStream s x.desc.eic x.desc.stream fun x => { x with granted := true }).inc (fam 0x4200_07 x.desc.eic)) x.desc.task

/-- ESCAPE_GRANT (R245). -/
def execEscapeGrant (n : PairId) (stream : BitVec 10) (s : State) : Host.Outcome State Fault Refusal :=
  match findStream s n.val stream.toNat with
  | none => .next s
  | some x => .next (if grantDue s x then grantEscape s x else s)

/-- Tasks whose queue entries or biscuits keep the next push of stream x waiting. -/
def blockers (s : State) (x : Stream) : List Nat :=
  match x.ready with
  | [] => []
  | b :: _ =>
    ((x.receivers.filter fun r => r.inGroup && r.engine != 0x48 && !roomFor s x.desc.eic b.biscuit.isSome r).map fun r =>
      let f := receiverStation x.desc.eic r
      let inQueue := (queueAt s f (receiverQueue r)).map fun i => (i.eic, i.stream)
      let inBiscuit := if b.biscuit.isNone then [] else match s.stations[f]? with
        | some st => st.biscuits.toList.filterMap fun c => c.map fun c => (c.eic, c.stream)
        | none => []
      (inQueue ++ inBiscuit).filterMap fun k => (findStream s k.1 k.2).map fun y => y.desc.task).flatten

/-- The command at a head waits for a handle of its own streams (R246). -/
def dataWait (s : State) (e : Nat) (w : BitVec 128) : Bool :=
  match cmdOp w with
  | 0x02 => srcKind w == 1 && (queueAt s e (srcQueue w)).isEmpty
  | 0x10 => (queueAt s e (passInQ w)).isEmpty
  | 0x40 => (queueAt s (e - 32) ((vargs w).a % 32)).isEmpty
  | _ => false

/-- A jig waits for credits, or for a handle of its queue. -/
def jigWaits (s : State) (j : JigRun) : Bool :=
  !j.converting && j.reading == 0 && decide (j.next < (jigShape j.entries).total) && !jigReady s j

/-- A buffer waits for an acknowledgement or a credit of a peer or of the ring. -/
def onFrames (s : State) (x : Stream) (b : Buf) : Bool :=
  s.ring.outBufs.any (fun o => o.eic == x.desc.eic && o.stream == x.desc.stream && o.buf == b.serial)
    || x.receivers.any fun r => r.sent.contains b.serial || r.unsent.contains b.serial

/-- A producer that waits for the credits of a stream waits for a consumer of this device: not every buffer that holds them waits for
a frame. -/
def localCredits (s : State) (x : Stream) : Bool :=
  let held := x.bufs.filter fun b => b.blocks != 0
  held.isEmpty || !held.all (onFrames s x)

/-- The push of a stream's oldest buffer waits for a receiver of this device. -/
def localPush (s : State) (x : Stream) : Bool :=
  match x.ready with
  | [] => false
  | b :: _ => x.receivers.any fun r => r.inGroup && r.engine != 0x48
      && (!roomFor s x.desc.eic b.biscuit.isSome r || (b.biscuit.isSome && 4 ≤ biscuitsHeld s x.desc.eic x.desc.stream))

/-- An engine of the task waits for credits, for a queue entry, or for a handle of its own streams (R246): a producer with
a push due or without credits, a jig, records converted, a head that waits for data. A wait on a TIME_WAIT or on a frame of a peer or
of the ring is not watched. -/
def watched (s : State) (n : Nat) : Bool :=
  let creditsOf := fun (eic stream : Nat) => (findStream s eic stream).any (localCredits s)
  s.streams.any (fun x => x.desc.task == n && ((x.wants && localCredits s x) || localPush s x))
    || s.jigs.any (fun j => !j.ended && jigTask s j == n && jigWaits s j && ((jigShape j.entries).store || creditsOf j.eic j.stream))
    || s.converts.toList.any (fun l => l.any fun c => c.task == n && c.made && !c.records.isEmpty && creditsOf c.eic c.stream)
    || s.engines.toList.zipIdx.any fun e => [e.1.prio, e.1.fill].any fun q =>
      (match q.binding with
        | some b => b.task == n
        | none => false)
      && q.waitAt.isSome && (match q.cmds.head? with
        | some w => dataWait s e.2 w
        | none => false)

/-- Time in which a task is not watched does not count toward its stall limit (R246). -/
def restSentinel (s : State) : State :=
  { s with tasks := s.tasks.map fun t => if watched s t.num then t else { t with progressAt := s.up } }

/-- The youngest of a set of tasks: the one admitted last. -/
def youngest (s : State) (ns : List Nat) : Option Task :=
  (s.tasks.filter fun t => ns.contains t.num).foldl
    (fun (a : Option Task) t => match a with
      | none => some t
      | some u => if u.order ≤ t.order then some t else some u) none

/-- STALL_ABORT (R246, R247): a watched task without progress for 4100h.04 ticks has the youngest task of its set aborted and
replayed, unless an escape grant is due to one of its producers, which then comes first. -/
def execStallAbort (task : BitVec 16) (s : State) : Host.Outcome State Fault Refusal :=
  let n := task.toNat
  match findTask s n with
  | none => .next s
  | some t =>
    if !watched s n || s.since t.progressAt < s.num 0x4100_04 then .next s else
    let mine := s.streams.filter fun x => x.desc.task == n
    match mine.find? (grantDue s) with
    | some x => .next (grantEscape s x)
    | none =>
    match youngest s (n :: (mine.map (blockers s)).flatten) with
    | none => .next s
    | some v =>
      let x : Option Stream := (mine.find? fun x => x.starvedAt.isSome || !x.ready.isEmpty).or mine.head?
      let eic := (x.map fun x => x.desc.eic).getD 0
      let s := (s.inc (fam 0x4200_06 eic)).raise 0x4040 eic
        (leBytes 1 ((x.map fun x => x.desc.producer).getD 0xFF) ++ leBytes 2 n
          ++ leBytes 2 ((x.map fun x => x.desc.stream).getD 0xFFFF) ++ leBytes 2 v.num)
      .next (touch (abortTask s v.num .replay 256) n)

end Sys2Proof.Machine
end

