-- ==== Sys2Proof/Machine/Vector.lean ====
section
/-! DEFINITION. Vector.lean: the vector operations of R169, one meaning for each row. A row acts when the head of the queue
of unit f is its operation. -/

namespace Sys2Proof.Machine

def vflagsAll : Nat := flagINV + flagOVF + flagNANIN

/-! ### Buffers (40h, 41h) -/

/-- The end of a load: the buffer's bytes, read from its blocks (R364, R365), lie in the store, and the blocks are released. -/
def vloadBody (f : Nat) (prio : Bool) (s : State) (v : VArgs) (b : Binding) : Judge :=
  let q := v.a % 32
  match queueAt s f q with
  | [] => .wait (markWait s (32 + f) prio)
  | i :: _ =>
    let data := itemData s f i
    if handleTag i.handle ≠ v.a / 32 % 256 then .bad 8
    else if !inStore v.dst 1 data.length then .bad 3
    else match checkItem s i with
      | (s, some a) => .done (readAbort s .staging i.eic a (32 + f) prio b.task)
      | (s, none) =>
        let s := popQueue (popCmd s (32 + f) prio) f q
        .done (putBytes (releaseHold s (holdOf f q i)) f v.dst data)

/-- VLOAD (R169). -/
def execVload (f : FacetId) (prio : Bool) (s : State) : Host.Outcome State Fault Refusal :=
  .next (runVec s f.val prio 0x40 (vloadBody f.val prio))

/-- An element as VSTORE copies it (R169): its pattern as it stands where it keeps its width; FP32 rounded for BF16 out. -/
def copyElem (inSize outSize x : Nat) : Bytes :=
  if inSize = outSize then (if inSize = 2 then leBytes 2 (x / 65536) else leBytes 4 x) else (outElem outSize x).1

/-- A VSTORE is complete once its buffer has been pushed; until then it stays at the head (R227). -/
def vstoreEnd (f : Nat) (prio : Bool) (s : State) (k : Nat × Nat × Nat) : Judge :=
  if pushed s k then .done (popCmd s (32 + f) prio)
  else .wait (modQueue (markWait s (32 + f) prio) (32 + f) prio fun q => { q with pushing := some k })

/-- LEN * COUNT elements to a new buffer of the stream into the queue that DST names. -/
def vstoreBody (f : Nat) (prio : Bool) (s : State) (v : VArgs) (b : Binding) : Judge :=
  match ((engineN s (32 + f)).queue prio).pushing with
  | some k => vstoreEnd f prio s k
  | none =>
  if !inStore v.a v.count (v.inSize * v.len) then .bad 3 else
  match streamInto s (32 + f) b.task (v.dst % 32) with
  | none => .wait (markWait s (32 + f) prio)
  | some x =>
    let rows := (List.range v.count).map fun r => (readRow s f v.a v.inSize v.len r).map (copyElem v.inSize v.outSize)
    let data := rows.flatten.flatten
    if bufTooBig (some x) data.length then .bad 3 else
    match takeBuf s x.desc.eic x.desc.stream data.length (v.dst / 32 % 256) false with
    | none => .wait (starve (markWait s (32 + f) prio) x.desc.eic x.desc.stream)
    | some (s, serial) =>
      match checkRanges .vectorStore f (rowRanges v.a v.count (v.inSize * v.len)) s with
      | (s, some a) => .done (readAbort s .vectorStore f a (32 + f) prio b.task)
      | (s, none) =>
        vstoreEnd f prio (finishBuf s x.desc.eic x.desc.stream serial (if v.outSize = 4 then 2 else 3) data)
          (x.desc.eic, x.desc.stream, serial)

/-- VSTORE (R169). -/
def execVstore (f : FacetId) (prio : Bool) (s : State) : Host.Outcome State Fault Refusal :=
  .next (runVec s f.val prio 0x41 (vstoreBody f.val prio))

/-! ### Sum tiles (42h) -/

/-- The rows of a sum tile: its vectors, each of ROWS elements; winner forms give value and index. -/
def vsumcvtBody (f : Nat) (prio : Bool) (s : State) (v : VArgs) (b : Binding) : Judge :=
  let head := storeBytes s f v.a 64
  let form := fieldAt head 0 1
  let win := decide (3 ≤ form)
  let rows := fieldAt head 4 2
  let vecs := fieldAt head 6 2
  let bytes := sumTileBytes (form % 3) win rows vecs
  let width := if win then (v.outSize + 4) * rows else v.outSize * rows
  if !inStore v.a 1 bytes || !inStore v.dst vecs width then .bad 3 else
  let tile := storeBytes s f v.a bytes
  let row := fun (k : Nat) =>
    let es := (List.range rows).map fun r => sumElem tile (k * rows + r)
    ({ values := (es.map fun e => if win then [(e.1.1, true), (e.2, false)] else [(e.1.1, true)]).flatten,
       flags := es.foldl (fun a e => a ||| e.1.2) 0 } : RowOut)
  let (s, flags) := writeRows (popCmd s (32 + f) prio) f v.dst v.outSize ((List.range vecs).map row)
  let s := modTask s b.task fun t => { t with inexact := t.inexact || (fieldAt head 2 1).testBit 0 }
  .done (vecFlags s f b.task (flags &&& flagOVF))

/-- VSUMCVT (R172). -/
def execVsumcvt (f : FacetId) (prio : Bool) (s : State) : Host.Outcome State Fault Refusal :=
  .next (runVec s f.val prio 0x42 (vsumcvtBody f.val prio))

/-! ### Elementwise operations (43h-4Fh) -/

/-- VADD. -/
def execVadd (f : FacetId) (prio : Bool) (s : State) : Host.Outcome State Fault Refusal :=
  .next (runVec s f.val prio 0x43 (elementwise f.val prio vflagsAll 2 fun _ a b _ => fadd a b))

/-- VMUL. -/
def execVmul (f : FacetId) (prio : Bool) (s : State) : Host.Outcome State Fault Refusal :=
  .next (runVec s f.val prio 0x44 (elementwise f.val prio vflagsAll 2 fun _ a b _ => fmul a b))

/-- VFMA, rounded once. -/
def execVfma (f : FacetId) (prio : Bool) (s : State) : Host.Outcome State Fault Refusal :=
  .next (runVec s f.val prio 0x45 (elementwise f.val prio vflagsAll 3 fun _ a b c => ffma a b c))

/-- VMAX. -/
def execVmax (f : FacetId) (prio : Bool) (s : State) : Host.Outcome State Fault Refusal :=
  .next (runVec s f.val prio 0x46 (elementwise f.val prio flagNANIN 2 fun _ a b _ => (fmax a b, nanIn a ||| nanIn b)))

/-- VMIN. -/
def execVmin (f : FacetId) (prio : Bool) (s : State) : Host.Outcome State Fault Refusal :=
  .next (runVec s f.val prio 0x47 (elementwise f.val prio flagNANIN 2 fun _ a b _ => (fmin a b, nanIn a ||| nanIn b)))

/-- VSCALE: A times IMM. -/
def execVscale (f : FacetId) (prio : Bool) (s : State) : Host.Outcome State Fault Refusal :=
  .next (runVec s f.val prio 0x48 (elementwise f.val prio vflagsAll 1 fun v a _ _ => fmul a v.imm))

/-- VEXP. -/
def execVexp (f : FacetId) (prio : Bool) (s : State) : Host.Outcome State Fault Refusal :=
  .next (runVec s f.val prio 0x49 (elementwise f.val prio (flagOVF + flagNANIN) 1 fun _ a _ _ => fexp 0x49 a))

/-- VRSQRT. -/
def execVrsqrt (f : FacetId) (prio : Bool) (s : State) : Host.Outcome State Fault Refusal :=
  .next (runVec s f.val prio 0x4A (elementwise f.val prio (flagINV + flagDIV0 + flagNANIN) 1 fun _ a _ _ => frsqrt a))

/-- VRECIP. -/
def execVrecip (f : FacetId) (prio : Bool) (s : State) : Host.Outcome State Fault Refusal :=
  .next (runVec s f.val prio 0x4B (elementwise f.val prio (flagDIV0 + flagNANIN) 1 fun _ a _ _ => frecip a))

/-- VTANH. -/
def execVtanh (f : FacetId) (prio : Bool) (s : State) : Host.Outcome State Fault Refusal :=
  .next (runVec s f.val prio 0x4C (elementwise f.val prio flagNANIN 1 fun _ a _ _ => ftanh 0x4C a))

/-- VSIGMOID. -/
def execVsigmoid (f : FacetId) (prio : Bool) (s : State) : Host.Outcome State Fault Refusal :=
  .next (runVec s f.val prio 0x4D (elementwise f.val prio flagNANIN 1 fun _ a _ _ => fsigmoid 0x4D a))

/-- VGELU. -/
def execVgelu (f : FacetId) (prio : Bool) (s : State) : Host.Outcome State Fault Refusal :=
  .next (runVec s f.val prio 0x4E (elementwise f.val prio flagNANIN 1 fun _ a _ _ => fgelu 0x4E a))

/-- VSILU. -/
def execVsilu (f : FacetId) (prio : Bool) (s : State) : Host.Outcome State Fault Refusal :=
  .next (runVec s f.val prio 0x4F (elementwise f.val prio flagNANIN 1 fun _ a _ _ => fsilu 0x4F a))

/-! ### Row operations (50h-59h) -/

/-- VSOFTMAX. -/
def execVsoftmax (f : FacetId) (prio : Bool) (s : State) : Host.Outcome State Fault Refusal :=
  .next (runVec s f.val prio 0x50 fun s v b =>
    (rowsBody f.val prio vflagsAll v.len 0 0 (v.outSize * v.len) (fun v xs _ _ => softmaxRow v xs) s v b).map fun t =>
      noteSample t b.task 0x50 v.imm [])

/-- VRMSNORM. -/
def execVrmsnorm (f : FacetId) (prio : Bool) (s : State) : Host.Outcome State Fault Refusal :=
  .next (runVec s f.val prio 0x51 fun s v b =>
    rowsBody f.val prio (flagINV + flagNANIN) v.len v.len 0 (v.outSize * v.len)
      (fun v xs ys _ => rmsRow v xs ys) s v b)

/-- VLAYERNORM. -/
def execVlayernorm (f : FacetId) (prio : Bool) (s : State) : Host.Outcome State Fault Refusal :=
  .next (runVec s f.val prio 0x52 fun s v b =>
    rowsBody f.val prio (flagINV + flagNANIN) v.len v.len v.len (v.outSize * v.len)
      (fun v xs ys zs => layerRow v xs ys zs) s v b)

/-- VROTARY. -/
def execVrotary (f : FacetId) (prio : Bool) (s : State) : Host.Outcome State Fault Refusal :=
  .next (runVec s f.val prio 0x53 fun s v b =>
    rowsBody f.val prio flagNANIN v.len v.len 0 (v.outSize * v.len)
      (fun v xs ys _ => rotaryRow v xs ys) s v b)

/-- VREDSUM: one value a row. -/
def execVredsum (f : FacetId) (prio : Bool) (s : State) : Host.Outcome State Fault Refusal :=
  .next (runVec s f.val prio 0x54 fun s v b =>
    rowsBody f.val prio (flagOVF + flagNANIN) v.len 0 0 v.outSize
      (fun _ xs _ _ => let r := fsum xs; { values := [(r.1, true)], flags := stepFlags xs r.2 }) s v b)

/-- The indices that an operation on the rows of operand A gives. -/
def rowIndices (s : State) (f : Nat) (v : VArgs) (g : List Nat → RowOut) : List Nat :=
  ((List.range v.count).map fun r => (g (readRow s f v.a v.inSize v.len r)).indices).flatten

/-- VREDMAX: a value and its index a row. -/
def execVredmax (f : FacetId) (prio : Bool) (s : State) : Host.Outcome State Fault Refusal :=
  .next (runVec s f.val prio 0x55 fun s v b =>
    (rowsBody f.val prio flagNANIN v.len 0 0 (v.outSize + 4) (fun _ xs _ _ => redmaxRow xs) s v b).map fun t =>
      noteSample t b.task 0x55 v.imm (rowIndices s f.val v redmaxRow))

/-- The products of two lists, summed in the tree of R170. -/
def dotSum (xs ys : List Nat) : Nat × Nat :=
  let ps := (xs.zip ys).map fun p => fmul p.1 p.2
  let r := fsum (ps.map Prod.fst)
  (r.1, stepFlags (xs ++ ys) (r.2 ||| ps.foldl (fun a p => a ||| p.2) 0))

/-- VDOT: B one row, and one output row of COUNT values; whether out[r] is that, or COUNT rows of one value, the manual does not say
(DESIGN CHOICE, log entry 126). -/
def vdotBody (f : Nat) (prio : Bool) (s : State) (v : VArgs) (b : Binding) : Judge :=
  let z := v.inSize
  if !inStore v.a v.count (z * v.len) || !inStore v.b 1 (z * v.len) || !inStore v.dst 1 (v.outSize * v.count) then .bad 3
  else
    let ys := readRow s f v.b z v.len 0
    let out := RowOut.ofFp ((List.range v.count).map fun r => dotSum (readRow s f v.a z v.len r) ys)
    let (s, flags) := writeRows (popCmd s (32 + f) prio) f v.dst v.outSize [out]
    .done (vecFlags s f b.task (flags &&& vflagsAll))

/-- VDOT. -/
def execVdot (f : FacetId) (prio : Bool) (s : State) : Host.Outcome State Fault Refusal :=
  .next (runVec s f.val prio 0x56 (vdotBody f.val prio))

/-- VWSUM: one output row of LEN values, B one row of COUNT weights. -/
def vwsumBody (f : Nat) (prio : Bool) (s : State) (v : VArgs) (b : Binding) : Judge :=
  let z := v.inSize
  if !inStore v.a v.count (z * v.len) || !inStore v.b 1 (z * v.count) || !inStore v.dst 1 (v.outSize * v.len) then .bad 3
  else
    let ws := readRow s f v.b z v.count 0
    let rows := (List.range v.count).map (readRow s f v.a z v.len)
    let out := RowOut.ofFp ((List.range v.len).map fun i => dotSum ws (rows.map fun r => r.getD i 0))
    let (s, flags) := writeRows (popCmd s (32 + f) prio) f v.dst v.outSize [out]
    .done (vecFlags s f b.task (flags &&& vflagsAll))

/-- VWSUM. -/
def execVwsum (f : FacetId) (prio : Bool) (s : State) : Host.Outcome State Fault Refusal :=
  .next (runVec s f.val prio 0x57 (vwsumBody f.val prio))

/-- VTOPK: IMM is 1 to 256 and at most LEN. -/
def execVtopk (f : FacetId) (prio : Bool) (s : State) : Host.Outcome State Fault Refusal :=
  .next (runVec s f.val prio 0x58 fun s v b =>
    if v.imm = 0 ∨ 256 < v.imm ∨ v.len < v.imm then .bad 3
    else (rowsBody f.val prio flagNANIN v.len 0 0 ((v.outSize + 4) * v.imm) (fun v xs _ _ => topkRow v xs) s v b).map fun t =>
      noteSample t b.task 0x58 v.imm (rowIndices s f.val v (topkRow v)))

/-- The value and index pairs of row r (R169). How a pair lies in the store the manual does not say: the value, then its U32 index,
pair behind pair, 8 bytes each, or 6 with BF16 (DESIGN CHOICE, log entry 125). -/
def pairRow (s : State) (f : Nat) (v : VArgs) (r : Nat) : List (Nat × Nat) :=
  let w := v.inSize + 4
  let d := storeBytes s f (v.a + r * rowLines (w * v.len)) (w * v.len)
  (List.range v.len).map fun i =>
    (if v.inSize = 2 then fieldAt d (w * i) 2 * 65536 else fieldAt d (w * i) 4, fieldAt d (w * i + v.inSize) 4)

/-- VSAMPLE: one index a row; a NaN or infinity in a row aborts the task (R175). -/
def vsampleBody (f : Nat) (prio : Bool) (s : State) (v : VArgs) (b : Binding) : Judge :=
  if !inStore v.a v.count ((v.inSize + 4) * v.len) || !inStore v.dst v.count 4 then .bad 3 else
  let rows := (List.range v.count).map (pairRow s f v)
  if rows.any fun ps => ps.any fun p => !isFinite p.1 then .done (nonFinite s f prio b 0x59)
  else
    let outs := rows.map fun ps =>
      let r := sampleIndex v.imm ps
      ({ values := [(r.1, false)], flags := r.2 } : RowOut)
    let (s, flags) := writeRows (popCmd s (32 + f) prio) f v.dst 4 outs
    .done (noteSample (vecFlags s f b.task (flags &&& (flagINV + flagNANIN))) b.task 0x59 v.imm
      (rows.map fun ps => (sampleIndex v.imm ps).1))

/-- VSAMPLE. -/
def execVsample (f : FacetId) (prio : Bool) (s : State) : Host.Outcome State Fault Refusal :=
  .next (runVec s f.val prio 0x59 (vsampleBody f.val prio))

/-! ### Quantisation (5Ah, 5Bh) -/

/-- Elements clamped: counted, SAT set (R171, R180). -/
def noteSat (s : State) (f task n : Nat) : State :=
  let s := s.add (fam 0x3900_03 f) n
  if n = 0 then s else vecFlags s f task flagSAT

/-- A value that quantisation to format c takes: finite, and for BF16 finite as rounded, since a chunk with a non-finite element
is not converted (R93, R108, R175; the consequence is that of R175: DESIGN CHOICE, log entry 103). -/
def quantFinite (c x : Nat) : Bool := isFinite x && (c != 7 || bfElem x % 32768 != 0x7F80)

/-- VQUANT: one aligned activation tile for each 128 elements of the rows, at DST onward (R173). -/
def vquantBody (f : Nat) (prio : Bool) (s : State) (v : VArgs) (b : Binding) : Judge :=
  let c := v.c
  let n := ceilDiv v.len 128
  let z := v.inSize
  if c = 0 ∨ 7 < c ∨ 2048 < v.count then .bad 3
  else if !inStore v.a v.count (z * v.len) || !inStore v.dst n (tileBytes c v.count) then .bad 3
  else
    let rows := (List.range v.count).map (readRow s f v.a z v.len)
    if rows.any fun xs => xs.any fun x => !quantFinite c (fmul x v.imm).1 then .done (nonFinite s f prio b 0x5A)
    else
      let s := popCmd s (32 + f) prio
      let tiles := (List.range n).map fun k => rows.map fun xs => quantChunk c (chunkOf xs v.imm k)
      let s := tiles.zipIdx.foldl (fun s t =>
        putBytes s f (v.dst + t.2 * rowLines (tileBytes c v.count)) (buildTile c (t.1.map Prod.fst))) s
      .done (noteSat s f b.task (tiles.flatten.foldl (fun a x => a + x.2) 0))

/-- VQUANT. -/
def execVquant (f : FacetId) (prio : Bool) (s : State) : Host.Outcome State Fault Refusal :=
  .next (runVec s f.val prio 0x5A (vquantBody f.val prio))

/-- VQUANTW: the stored chunk rows of each row, one after another, each row from a line boundary (R176). -/
def vquantwBody (f : Nat) (prio : Bool) (s : State) (v : VArgs) (b : Binding) : Judge :=
  let c := v.c
  let n := ceilDiv v.len 128
  let z := v.inSize
  if 7 < c then .bad 3
  else if !inStore v.a v.count (z * v.len) || !inStore v.dst v.count (n * fmtRowBytes c) then .bad 3
  else
    let rows := (List.range v.count).map (readRow s f v.a z v.len)
    if rows.any fun xs => xs.any fun x => !isFinite (fmul x v.imm).1 then .done (nonFinite s f prio b 0x5B)
    else
      let s := popCmd s (32 + f) prio
      let outs := rows.map fun xs => (List.range n).map fun k => storeChunk c (chunkOf xs v.imm k)
      let s := outs.zipIdx.foldl (fun s o =>
        putBytes s f (v.dst + o.2 * rowLines (n * fmtRowBytes c)) ((o.1.map Prod.fst).flatten)) s
      .done (noteSat s f b.task (outs.flatten.foldl (fun a x => a + x.2) 0))

/-- VQUANTW. -/
def execVquantw (f : FacetId) (prio : Bool) (s : State) : Host.Outcome State Fault Refusal :=
  .next (runVec s f.val prio 0x5B (vquantwBody f.val prio))

end Sys2Proof.Machine
end

