-- ==== Sys2Proof/Machine/Dispatch.lean ====
section
/-! DEFINITION. Dispatch.lean: one arm for each command, each a call of its meaning. -/

namespace Sys2Proof.Machine

def exec (i : Instr) (s : State) : Host.Outcome State Fault Refusal :=
  match i with
  | .paramWrite x index sub total value => Sys2Proof.Machine.execParamWrite x index sub total value s
  | .rcRead x index sub => Sys2Proof.Machine.execRcRead x index sub s
  | .paramAbort x => Sys2Proof.Machine.execParamAbort x s
  | .paramSeg x offset total payload => Sys2Proof.Machine.execParamSeg x offset total payload s
  | .xferTimeout x => Sys2Proof.Machine.execXferTimeout x s
  | .configure x => Sys2Proof.Machine.execConfigure x s
  | .serve x => Sys2Proof.Machine.execServe x s
  | .quiesce x => Sys2Proof.Machine.execQuiesce x s
  | .quiesceNow x => Sys2Proof.Machine.execQuiesceNow x s
  | .inspect x => Sys2Proof.Machine.execInspect x s
  | .safe x => Sys2Proof.Machine.execSafe x s
  | .restart x => Sys2Proof.Machine.execRestart x s
  | .quiesceComplete => Sys2Proof.Machine.execQuiesceComplete s
  | .quiesceForced => Sys2Proof.Machine.execQuiesceForced s
  | .expertEnable x v => Sys2Proof.Machine.execExpertEnable x v s
  | .factoryDefaults x v => Sys2Proof.Machine.execFactoryDefaults x v s
  | .catSelect x v => Sys2Proof.Machine.execCatSelect x v s
  | .ringFrameReceive port frame => Sys2Proof.Machine.execRingFrameReceive port frame s
  | .ack ackedSeq status => Sys2Proof.Machine.execAck ackedSeq status s
  | .retxTimeout seq => Sys2Proof.Machine.execRetxTimeout seq s
  | .svcReq seq payload => Sys2Proof.Machine.execSvcReq seq payload s
  | .segmentTimeout requestId => Sys2Proof.Machine.execSegmentTimeout requestId s
  | .cyclic map stamp payload => Sys2Proof.Machine.execCyclic map stamp payload s
  | .cyclicFire map => Sys2Proof.Machine.execCyclicFire map s
  | .cyclicApply map => Sys2Proof.Machine.execCyclicApply map s
  | .eventSend => Sys2Proof.Machine.execEventSend s
  | .time dir wrapped payload frac => Sys2Proof.Machine.execTime dir wrapped payload frac s
  | .probe dir payload frac => Sys2Proof.Machine.execProbe dir payload frac s
  | .weightBlock seq model stage copyId block payload => Sys2Proof.Machine.execWeightBlock seq model stage copyId block payload s
  | .rollCall dir => Sys2Proof.Machine.execRollCall dir s
  | .assign seq toOwn serial nodeId ringId => Sys2Proof.Machine.execAssign seq toOwn serial nodeId ringId s
  | .state command broadcast targets => Sys2Proof.Machine.execState command broadcast targets s
  | .reset seq serial kind => Sys2Proof.Machine.execReset seq serial kind s
  | .heartbeat => Sys2Proof.Machine.execHeartbeat s
  | .node0Silent => Sys2Proof.Machine.execNode0Silent s
  | .linkUp port missing => Sys2Proof.Machine.execLinkUp port missing s
  | .laneFail port lane => Sys2Proof.Machine.execLaneFail port lane s
  | .laneRestore x port v => Sys2Proof.Machine.execLaneRestore x port v s
  | .lossOfLight port => Sys2Proof.Machine.execLossOfLight port s
  | .lightReturn port => Sys2Proof.Machine.execLightReturn port s
  | .eyeProbe port => Sys2Proof.Machine.execEyeProbe port s
  | .peerLinkTrained p missing => Sys2Proof.Machine.execPeerLinkTrained p missing s
  | .hello p h ringId ordinal port serial => Sys2Proof.Machine.execHello p h ringId ordinal port serial s
  | .peerLaneFail p lane => Sys2Proof.Machine.execPeerLaneFail p lane s
  | .peerLaneRestore x p v => Sys2Proof.Machine.execPeerLaneRestore x p v s
  | .linkAck p h => Sys2Proof.Machine.execLinkAck p h s
  | .peerResendTimeout p => Sys2Proof.Machine.execPeerResendTimeout p s
  | .credit p h returns => Sys2Proof.Machine.execCredit p h returns s
  | .data p h stream receiver tag block payload => Sys2Proof.Machine.execData p h stream receiver tag block payload s
  | .streamCredit p h stream receiver count => Sys2Proof.Machine.execStreamCredit p h stream receiver count s
  | .read p h payload => Sys2Proof.Machine.execRead p h payload s
  | .batch p h gangTask graph model stage copyId partBound => Sys2Proof.Machine.execBatch p h gangTask graph model stage copyId partBound s
  | .grant p h gangTask level => Sys2Proof.Machine.execGrant p h gangTask level s
  | .peerReduce p h gangTask level mode payload => Sys2Proof.Machine.execPeerReduce p h gangTask level mode payload s
  | .repeatTile p h gangTask scale payload => Sys2Proof.Machine.execRepeatTile p h gangTask scale payload s
  | .abort p h gangTask cause => Sys2Proof.Machine.execAbort p h gangTask cause s
  | .partBoundExpiry gangTask => Sys2Proof.Machine.execPartBoundExpiry gangTask s
  | .journal p h position payload => Sys2Proof.Machine.execJournal p h position payload s
  | .journalAck p h position status => Sys2Proof.Machine.execJournalAck p h position status s
  | .mirrorTimeout => Sys2Proof.Machine.execMirrorTimeout s
  | .peerWeightBlock p h model stage block copyId payload => Sys2Proof.Machine.execPeerWeightBlock p h model stage block copyId payload s
  | .blockReq p h model stage count copyId first => Sys2Proof.Machine.execBlockReq p h model stage count copyId first s
  | .blockStallRequest context slot => Sys2Proof.Machine.execBlockStallRequest context slot s
  | .buddyWrite x v => Sys2Proof.Machine.execBuddyWrite x v s
  | .routeWrite x v => Sys2Proof.Machine.execRouteWrite x v s
  | .standInWrite x v => Sys2Proof.Machine.execStandInWrite x v s
  | .register x a => Sys2Proof.Machine.execRegister x a s
  | .deregister x a => Sys2Proof.Machine.execDeregister x a s
  | .build x a => Sys2Proof.Machine.execBuild x a s
  | .switch x a => Sys2Proof.Machine.execSwitch x a s
  | .discard x a => Sys2Proof.Machine.execDiscard x a s
  | .repair x a => Sys2Proof.Machine.execRepair x a s
  | .abandon x a => Sys2Proof.Machine.execAbandon x a s
  | .store x a => Sys2Proof.Machine.execStore x a s
  | .unstore x a => Sys2Proof.Machine.execUnstore x a s
  | .ctxDesc x v => Sys2Proof.Machine.execCtxDesc x v s
  | .ctxSelect x v => Sys2Proof.Machine.execCtxSelect x v s
  | .placeSelect x v => Sys2Proof.Machine.execPlaceSelect x v s
  | .buildVerifyComplete context slot => Sys2Proof.Machine.execBuildVerifyComplete context slot s
  | .buildStall context slot => Sys2Proof.Machine.execBuildStall context slot s
  | .repairTimeout context slot => Sys2Proof.Machine.execRepairTimeout context slot s
  | .batchIssue context batch tasks => Sys2Proof.Machine.execBatchIssue context batch tasks s
  | .batchEnd batch => Sys2Proof.Machine.execBatchEnd batch s
  | .cancel x => Sys2Proof.Machine.execCancel x s
  | .close x => Sys2Proof.Machine.execClose x s
  | .sessionSelect x tag => Sys2Proof.Machine.execSessionSelect x tag s
  | .tokenRelease jsn token inexact => Sys2Proof.Machine.execTokenRelease jsn token inexact s
  | .taskAdmission graph => Sys2Proof.Machine.execTaskAdmission graph s
  | .taskAbort task cause => Sys2Proof.Machine.execTaskAbort task cause s
  | .frameStart => Sys2Proof.Machine.execFrameStart s
  | .frameInEdge frac valid => Sys2Proof.Machine.execFrameInEdge frac valid s
  | .ppsInEdge frac valid => Sys2Proof.Machine.execPpsInEdge frac valid s
  | .timeHoldover => Sys2Proof.Machine.execTimeHoldover s
  | .timeReset x v => Sys2Proof.Machine.execTimeReset x v s
  | .tableSelect x v => Sys2Proof.Machine.execTableSelect x v s
  | .commandEnqueue e prio w => Sys2Proof.Machine.execCommandEnqueue e prio w s
  | .bind e prio => Sys2Proof.Machine.execBind e prio s
  | .preload f prio => Sys2Proof.Machine.execPreload f prio s
  | .flip f prio => Sys2Proof.Machine.execFlip f prio s
  | .flipZero f prio => Sys2Proof.Machine.execFlipZero f prio s
  | .pass f prio => Sys2Proof.Machine.execPass f prio s
  | .drain f prio => Sys2Proof.Machine.execDrain f prio s
  | .drainMax f prio => Sys2Proof.Machine.execDrainMax f prio s
  | .drainMin f prio => Sys2Proof.Machine.execDrainMin f prio s
  | .merge f prio => Sys2Proof.Machine.execMerge f prio s
  | .reduceSend f prio => Sys2Proof.Machine.execReduceSend f prio s
  | .reduceGather f prio => Sys2Proof.Machine.execReduceGather f prio s
  | .tree f prio => Sys2Proof.Machine.execTree f prio s
  | .fence e prio => Sys2Proof.Machine.execFence e prio s
  | .fenceRelease e prio => Sys2Proof.Machine.execFenceRelease e prio s
  | .timeWait e prio => Sys2Proof.Machine.execTimeWait e prio s
  | .timeWaitRelease e prio => Sys2Proof.Machine.execTimeWaitRelease e prio s
  | .fillPreemption f => Sys2Proof.Machine.execFillPreemption f s
  | .shadowLoadComplete f => Sys2Proof.Machine.execShadowLoadComplete f s
  | .planeFlip f => Sys2Proof.Machine.execPlaneFlip f s
  | .passVerdict f errors => Sys2Proof.Machine.execPassVerdict f errors s
  | .sweepComplete f => Sys2Proof.Machine.execSweepComplete f s
  | .confirmationVerdict f errors => Sys2Proof.Machine.execConfirmationVerdict f errors s
  | .swapReloadComplete f => Sys2Proof.Machine.execSwapReloadComplete f s
  | .codeWritten f => Sys2Proof.Machine.execCodeWritten f s
  | .drainComplete f => Sys2Proof.Machine.execDrainComplete f s
  | .mergeComplete f => Sys2Proof.Machine.execMergeComplete f s
  | .reduceDelivered f => Sys2Proof.Machine.execReduceDelivered f s
  | .peek x v => Sys2Proof.Machine.execPeek x v s
  | .vload f prio => Sys2Proof.Machine.execVload f prio s
  | .vstore f prio => Sys2Proof.Machine.execVstore f prio s
  | .vsumcvt f prio => Sys2Proof.Machine.execVsumcvt f prio s
  | .vadd f prio => Sys2Proof.Machine.execVadd f prio s
  | .vmul f prio => Sys2Proof.Machine.execVmul f prio s
  | .vfma f prio => Sys2Proof.Machine.execVfma f prio s
  | .vmax f prio => Sys2Proof.Machine.execVmax f prio s
  | .vmin f prio => Sys2Proof.Machine.execVmin f prio s
  | .vscale f prio => Sys2Proof.Machine.execVscale f prio s
  | .vexp f prio => Sys2Proof.Machine.execVexp f prio s
  | .vrsqrt f prio => Sys2Proof.Machine.execVrsqrt f prio s
  | .vrecip f prio => Sys2Proof.Machine.execVrecip f prio s
  | .vtanh f prio => Sys2Proof.Machine.execVtanh f prio s
  | .vsigmoid f prio => Sys2Proof.Machine.execVsigmoid f prio s
  | .vgelu f prio => Sys2Proof.Machine.execVgelu f prio s
  | .vsilu f prio => Sys2Proof.Machine.execVsilu f prio s
  | .vsoftmax f prio => Sys2Proof.Machine.execVsoftmax f prio s
  | .vrmsnorm f prio => Sys2Proof.Machine.execVrmsnorm f prio s
  | .vlayernorm f prio => Sys2Proof.Machine.execVlayernorm f prio s
  | .vrotary f prio => Sys2Proof.Machine.execVrotary f prio s
  | .vredsum f prio => Sys2Proof.Machine.execVredsum f prio s
  | .vredmax f prio => Sys2Proof.Machine.execVredmax f prio s
  | .vdot f prio => Sys2Proof.Machine.execVdot f prio s
  | .vwsum f prio => Sys2Proof.Machine.execVwsum f prio s
  | .vtopk f prio => Sys2Proof.Machine.execVtopk f prio s
  | .vsample f prio => Sys2Proof.Machine.execVsample f prio s
  | .vquant f prio => Sys2Proof.Machine.execVquant f prio s
  | .vquantw f prio => Sys2Proof.Machine.execVquantw f prio s
  | .jigStart engine jig eic stream entries what => Sys2Proof.Machine.execJigStart engine jig eic stream entries what s
  | .jigEmission engine jig errors => Sys2Proof.Machine.execJigEmission engine jig errors s
  | .planeConvertComplete n => Sys2Proof.Machine.execPlaneConvertComplete n s
  | .handlePush n stream => Sys2Proof.Machine.execHandlePush n stream s
  | .bufferRelease station queue => Sys2Proof.Machine.execBufferRelease station queue s
  | .escapeGrant n stream => Sys2Proof.Machine.execEscapeGrant n stream s
  | .stallAbort task => Sys2Proof.Machine.execStallAbort task s
  | .streamSelect x v => Sys2Proof.Machine.execStreamSelect x v s
  | .inputEnable x v => Sys2Proof.Machine.execInputEnable x v s
  | .interlockOpen n => Sys2Proof.Machine.execInterlockOpen n s
  | .interlockClosed n => Sys2Proof.Machine.execInterlockClosed n s
  | .returnPowerTrip n feed seen => Sys2Proof.Machine.execReturnPowerTrip n feed seen s
  | .feedOverPower n feed mw => Sys2Proof.Machine.execFeedOverPower n feed mw s
  | .feedValid n mw => Sys2Proof.Machine.execFeedValid n mw s
  | .feedLow n feed mw => Sys2Proof.Machine.execFeedLow n feed mw s
  | .sourceMap x v => Sys2Proof.Machine.execSourceMap x v s
  | .sourceFailover bus headroomDb => Sys2Proof.Machine.execSourceFailover bus headroomDb s
  | .lossOfLock f ring seen => Sys2Proof.Machine.execLossOfLock f ring seen s
  | .identityScan f row lane seen => Sys2Proof.Machine.execIdentityScan f row lane seen s
  | .relockComplete f micros rounds found => Sys2Proof.Machine.execRelockComplete f micros rounds found s
  | .rowCheckComplete f codes => Sys2Proof.Machine.execRowCheckComplete f codes s
  | .thermalStop f region celsius => Sys2Proof.Machine.execThermalStop f region celsius s
  | .regionSaturated f region => Sys2Proof.Machine.execRegionSaturated f region s
  | .startupCalibration f failed found => Sys2Proof.Machine.execStartupCalibration f failed found s
  | .rollingCalStart f => Sys2Proof.Machine.execRollingCalStart f s
  | .standInReload f => Sys2Proof.Machine.execStandInReload f s
  | .calibrationComplete f failedStep spareNonZero codes => Sys2Proof.Machine.execCalibrationComplete f failedStep spareNonZero codes s
  | .calOverdue f => Sys2Proof.Machine.execCalOverdue f s
  | .ringSelect x v => Sys2Proof.Machine.execRingSelect x v s
  | .unitRetireStart n unit => Sys2Proof.Machine.execUnitRetireStart n unit s
  | .unitRetired n => Sys2Proof.Machine.execUnitRetired n s
  | .patrolScrub mem unit address outcome => Sys2Proof.Machine.execPatrolScrub mem unit address outcome s
  | .journalRelocate count => Sys2Proof.Machine.execJournalRelocate count s
  | .powerFail => Sys2Proof.Machine.execPowerFail s
  | .powerReturn => Sys2Proof.Machine.execPowerReturn s
  | .settle x => Sys2Proof.Machine.execSettle x s
  | .adopt x => Sys2Proof.Machine.execAdopt x s
  | .supplyDip supply => Sys2Proof.Machine.execSupplyDip supply s
  | .dipEnd supply micros lost => Sys2Proof.Machine.execDipEnd supply micros lost s
  | .longDip supply => Sys2Proof.Machine.execLongDip supply s
  | .resetLevelCrossing supply => Sys2Proof.Machine.execResetLevelCrossing supply s
  | .supervisorMismatch => Sys2Proof.Machine.execSupervisorMismatch s
  | .railTable x v => Sys2Proof.Machine.execRailTable x v s
  | .railGood rail pmbusFailures => Sys2Proof.Machine.execRailGood rail pmbusFailures s
  | .railFault rail volts => Sys2Proof.Machine.execRailFault rail volts s
  | .overvoltage supply => Sys2Proof.Machine.execOvervoltage supply s
  | .throttleEnforced group unit => Sys2Proof.Machine.execThrottleEnforced group unit s
  | .throttleReleased group unit => Sys2Proof.Machine.execThrottleReleased group unit s
  | .sensorSelect x v => Sys2Proof.Machine.execSensorSelect x v s
  | .conversionComplete c channel code overload => Sys2Proof.Machine.execConversionComplete c channel code overload s
  | .urgent x v => Sys2Proof.Machine.execUrgent x v s
  | .calZero x codes => Sys2Proof.Machine.execCalZero x codes s
  | .calFullScale x codes => Sys2Proof.Machine.execCalFullScale x codes s
  | .calClear x => Sys2Proof.Machine.execCalClear x s
  | .aoutCode x k v => Sys2Proof.Machine.execAoutCode x k v s
  | .deglitchHoldEnd o => Sys2Proof.Machine.execDeglitchHoldEnd o s
  | .span x k v => Sys2Proof.Machine.execSpan x k v s
  | .spanStep k => Sys2Proof.Machine.execSpanStep k s
  | .trigger x v => Sys2Proof.Machine.execTrigger x v s
  | .waveSample o => Sys2Proof.Machine.execWaveSample o s
  | .trimSave => Sys2Proof.Machine.execTrimSave s
  | .lifeDataSave => Sys2Proof.Machine.execLifeDataSave s
  | .boot selfCheckOk testsOk failedShelfLines facetsOk => Sys2Proof.Machine.execBoot selfCheckOk testsOk failedShelfLines facetsOk s
  | .sealWrite => Sys2Proof.Machine.execSealWrite s
  | .bootTimeout => Sys2Proof.Machine.execBootTimeout s
  | .nonce x v => Sys2Proof.Machine.execNonce x v s
  | .reportSigned => Sys2Proof.Machine.execReportSigned s
  | .imageData x v => Sys2Proof.Machine.execImageData x v s
  | .imageStaged flashOk => Sys2Proof.Machine.execImageStaged flashOk s
  | .commit x v => Sys2Proof.Machine.execCommit x v s
  | .resetN => Sys2Proof.Machine.execResetN s
  | .refclkLoss => Sys2Proof.Machine.execRefclkLoss s
  | .refclkReturn => Sys2Proof.Machine.execRefclkReturn s
  | .helloResend p => Sys2Proof.Machine.execHelloResend p s
  | .hbmTrainingDone n trained lanesRepaired => Sys2Proof.Machine.execHbmTrainingDone n trained lanesRepaired s
  | .stackTemperatureRead n celsius => Sys2Proof.Machine.execStackTemperatureRead n celsius s

end Sys2Proof.Machine
end

