-- ==== Sys2Proof/Machine/Tick.lean ====
section
/-! DEFINITION. Tick.lean: one tick of the block's clock (R16-R18, R258, R260). -/

namespace Sys2Proof.Machine

/-- The hours of R39 that one tick adds to. -/
def lifeTick (s : State) : Life :=
  { s.life with
    powered := s.life.powered + 1
    serving := s.life.serving + if s.node = .serving then 1 else 0
    light := s.life.light + if s.light.amps[0] = 0 ∧ s.light.amps[1] = 0 then 0 else 1 }

/-- The clocks one tick on: the model's own, and the frame-time counter while REFCLK runs, modulo its period, with which the
reservations come round (R16, R18). -/
def tickClocks (s : State) : State :=
  let wraps := s.refclk && s.now + 1 == stampPeriod
  { s with
    up := s.up + 1
    now := if s.refclk then (s.now + 1) % stampPeriod else s.now
    tables := if wraps then wrapTables s.tables else s.tables
    life := lifeTick s }

/-- A new interval of 1,024 ticks begins: passes under an enforced cap go on (R525). -/
def capFrame (s : State) : State :=
  if s.now % 1024 = 0 ∧ s.power.throttles.any (fun t => t.enforced) then settleAllFacets s else s

/-- One tick: the clocks advance, a task that waits for nothing that the stall sentinel watches starts its count again (R246), and
a SWITCH whose NOT_BEFORE has come takes effect (R205), a code word may take an error (R364), a send that meets one that cannot be
decoded aborts its task (R365), buffers from other devices take blocks that have become free (R459), passes under a cap have a new interval (R525), and a
critical action turns its next rails off (R516). -/
def tick (s : State) : State :=
  railsOff (capFrame (placeAll (abortBadSends (upset (timedMitres (restSentinel (tickClocks s)))))))

end Sys2Proof.Machine
end

