-- ==== Sys2Proof/Safety.lean ====
section
/-! DEFINITION. Safety.lean: what a safe step is: it neither stops nor leaves the memory's canonical form. -/

namespace Sys2Proof.Machine

/-- The byte memories of a state are in their canonical form. -/
def State.memOk (s : State) : Bool := Memory.wf s.mem

/-- An outcome that goes on. -/
def answersNext (o : Host.Outcome State Fault Refusal) : Prop := ∃ t, o = Host.Outcome.next t

/-- A step is safe when it goes on to a state whose memory is canonical. -/
def safeStep (s : State) : Prop := ∃ t, step s = Host.Outcome.next t ∧ t.memOk = true

end Sys2Proof.Machine
end

