-- ==== Sys2Proof/Certificates/Slice0/Obligations.lean ====
section
/-! DEFINITION. Obligations.lean: the statements about the model, for the provers. Each says what a command does under
hypotheses on the state and the operands alone; the log entries that a statement rests on are named in its docstring. -/

open Sys2Proof Sys2Proof.Machine

/-- The command w, its reserved fields 0, stands at the head of a queue of engine e with a binding (R148); no dip of its own supply
stops a vector unit (R497). -/
def AtHead (s : State) (e : Nat) (prio : Bool) (w : BitVec 128) (b : Binding) : Prop :=
  headOf s e prio = some w ∧ ((engineN s e).queue prio).binding = some b ∧ reservedOk w = true ∧ vectorDips s e = false

/-- A next state, written short. -/
abbrev Next (s : State) : Host.Outcome State Fault Refusal := Host.Outcome.next s

/-! ## The block as a whole -/

/-- A step takes the command at the front of the queue and runs it on the state with the rest of the queue. On an empty queue
one tick of the clock passes (the model's choice, log entry 2): the frame-time counter counts modulo its period while REFCLK
runs, with which the reservations come round, tasks that wait for nothing the stall sentinel watches start its count again, a
switch whose time has come takes effect, a code word may take an error, a send that meets an uncorrectable one aborts its task,
buffers from other devices take blocks that are free, capped passes have a new interval, and a critical action turns its next rails
off. -/
def Obligations.StepRunsFrontCommand : Prop :=
  (∀ (s : State) (c : Instr) (rest : List Instr), s.pending = c :: rest →
    step s = exec c { s with pending := rest }) ∧
  (∀ s : State, s.pending = [] → step s = Next (railsOff (capFrame (placeAll (abortBadSends (upset
    (timedMitres (restSentinel { s with
    up := s.up + 1, now := if s.refclk then (s.now + 1) % stampPeriod else s.now,
    tables := if s.refclk = true ∧ s.now + 1 = stampPeriod then wrapTables s.tables else s.tables, life := lifeTick s }))))))))

/-! ## Facet sequencers: queues, planes and passes -/

/-- COMMAND_ENQUEUE appends to a queue that has room (256 entries, 128 for fill) what the scheduler writes there, and leaves a full
queue as it is: a PRELOAD, FLIP or PASS that names a shelf place as `resolved` for the bound copy, any other command as it stands; a
PRELOAD of a record pinned for the bound copy carries the place that the copy's table gives it, and a FLIP or PASS of an operand with
pinned places that names none of them is not written (R146, R165, R190, R269; log entries 68, 95). A BIND of an admitted task goes to
the queue of its class alone, and not before the batch that it names has been issued (R204, R268). BIND at the head
with its reserved field 0 and A_FORMAT other than 0 replaces the binding and leaves the queue, unless it changes CONTEXT or COPY_ID
within its task (R146, R148).
Rows whose completion it states, under conditions on state and operands alone: COMMAND_ENQUEUE, BIND. -/
def Obligations.EnqueueAndBind : Prop :=
  (∀ (e : EngineId) (prio : Bool) (w : BitVec 128) (s : State),
    let q := (engineN s e.val).own prio
    let put := fun (u : BitVec 128) => Next (modEngine s e.val fun x =>
      x.withOwn prio { q with cmds := q.cmds ++ [u], discard := none })
    ((if prio then 256 else 128) ≤ q.cmds.length ∨ enqueues s e.val prio w = false → exec (.commandEnqueue e prio w) s = Next s) ∧
    (q.cmds.length < (if prio then 256 else 128) → enqueues s e.val prio w = true →
      ((32 ≤ e.val ∨ srcKind w ≠ 0 ∨ cmdOp w ∉ [0x02, 0x03, 0x10]) → exec (.commandEnqueue e prio w) s = put w) ∧
      (∀ b, e.val < 32 → srcKind w = 0 → lastBinding q = some b →
        (∀ p ∈ placesOf s (e.val / 4) b, cmdOp w = 0x02 → preRowTile w = p.rowTile → preChunk w = p.chunk → preTrit w = p.trit →
          (∀ o ∈ placesOf s (e.val / 4) b, (o.rowTile, o.chunk, o.trit) = (p.rowTile, p.chunk, p.trit) → o = p) →
          exec (.commandEnqueue e prio w) s = put (withSrc w p.place)) ∧
        (cmdOp w = 0x10 ∨ cmdOp w = 0x03 ∧ flipZeroBit w = false → placesOf s (e.val / 4) b ≠ [] →
          (∀ p ∈ placesOf s (e.val / 4) b, p.place ≠ srcField w) → exec (.commandEnqueue e prio w) s = Next s) ∧
        (cmdOp w = 0x10 ∨ cmdOp w = 0x03 ∧ flipZeroBit w = false →
          (∃ p ∈ placesOf s (e.val / 4) b, p.place = srcField w ∧ (cmdOp w = 0x10 → p.trit = passTrit w)) →
          exec (.commandEnqueue e prio w) s = put w)))) ∧
  (∀ (e : EngineId) (prio : Bool) (w : BitVec 128) (t : Task) (s : State), cmdOp w = 1 →
    findTask s (bindOf w).task = some t → ((t.cls = .fill ↔ prio = true) ∨ bindIssued s (bindOf w) = false) →
    exec (.commandEnqueue e prio w) s = Next s) ∧
  (∀ (e : EngineId) (prio : Bool) (w : BitVec 128) (s : State),
    headOf s e.val prio = some w → vectorDips s e.val = false → cmdOp w = 0x01 → reservedOk w = true → (bindOf w).aFormat ≠ 0 →
    (∀ o, ((engineN s e.val).queue prio).binding = some o → o.task = (bindOf w).task →
      o.context = (bindOf w).context ∧ o.copy = (bindOf w).copy) →
    exec (.bind e prio) s = Next (settleEngine (popCmd
      (modQueue s e.val prio fun q => { q with binding := some (bindOf w), unbound := false }) e.val prio) e.val))

/-- PRELOAD of a shelf place (R150, R151, R365): a place below 8,738 that is not withdrawn and whose record can be read, its errors
corrected (R364), is loaded into the shadow states with the identity that the binding and the command expect, and the command leaves
the queue; an uncorrectable word aborts its task. It waits while the shadow is taken.
Rows whose completion it states, under conditions on state and operands alone: PRELOAD. -/
def Obligations.PreloadFromShelf : Prop :=
  ∀ (f : FacetId) (prio : Bool) (w : BitVec 128) (b : Binding) (u s : State),
    AtHead s f.val prio w b → cmdOp w = 0x02 → srcKind w = 0 → srcField w < 8738 →
    srcField w ∉ withdrawn s (f.val / 4) →
    let read := checkRead s .shelf (f.val / 4) (srcField w * recordBytes) recordBytes
    (shadowBusy (facetN s f.val) prio = true →
      exec (.preload f prio) s = Next (settleRuns (markWait s f.val prio) f.val)) ∧
    (shadowBusy (facetN s f.val) prio = false → read = (u, none) →
      exec (.preload f prio) s =
        (let t := touchCache (popCmd u f.val prio) (f.val / 4) (srcField w)
         Next (settleRuns (takeShadow t f.val
          { id := { kind := 0, src := srcField w, context := b.context, copy := b.copy, operand := b.operand,
                    format := b.wFormat, rowTile := preRowTile w, chunk := preChunk w, trit := preTrit w, zero := false },
            bytes := memRead u.mem (shelfBase (f.val / 4) + srcField w * recordBytes) recordBytes,
            hold := none, prio := prio, task := b.task }) f.val))) ∧
    (∀ a, shadowBusy (facetN s f.val) prio = false → read = (u, some a) →
      exec (.preload f prio) s =
        (let v := noteShelfBad u (f.val / 4) a 3 b.task
         Next (settleRuns (dropTask (abortTask v b.task (if (pinAt u (f.val / 4) (a / recordBytes)).isSome then .held else .replay)
           256) f.val prio b.task) f.val)))

/-- FLIP that names the plane in the shadow asks for its flip and stays at the head; FLIP with ZERO and a free shadow
takes it for an all-zero plane (R152).
Rows whose completion it states, under conditions on state and operands alone: FLIP, FLIP_ZERO. -/
def Obligations.FlipAsksForShadowPlane : Prop :=
  (∀ (f : FacetId) (prio : Bool) (w : BitVec 128) (b : Binding) (h : Shadow) (s : State),
    AtHead s f.val prio w b → cmdOp w = 0x03 → flipZeroBit w = false → srcBad s f.val w = false →
    (facetN s f.val).shadow = some h → h.plane.named (srcKind w) (srcField w) = true → (facetN s f.val).restoring = false →
    exec (.flip f prio) s =
      Next (settleRuns (wantFlip (if h.loaded then s else markWait s f.val prio) f.val prio h.loaded) f.val)) ∧
  (∀ (f : FacetId) (prio : Bool) (w : BitVec 128) (b : Binding) (s : State),
    AtHead s f.val prio w b → cmdOp w = 0x03 → flipZeroBit w = true → srcKind w = 0 → srcField w = 0 →
    (facetN s f.val).shadow = none → shadowBusy (facetN s f.val) prio = false →
    exec (.flipZero f prio) s =
      Next (settleRuns (wantFlip (takeShadow (markWait s f.val prio) f.val
        { Plane.zeros with prio := prio, task := b.task }) f.val prio false) f.val))

/-- PASS on the active plane (R153, R154, R162, R163): with every field in range, the checks of R154 met, the first tile that no
run has taken at the head of IN_Q under IN_TAG and its words readable, and no ready priority head where the queue is the fill queue,
its run begins with the fields of the command, which stays at the head until the run has issued; its merge, where it has one, takes
its place among the merges (R125, R155).
Rows whose completion it states, under conditions on state and operands alone: PASS. -/
def Obligations.PassStartsItsRun : Prop :=
  ∀ (f : FacetId) (prio : Bool) (w : BitVec 128) (b : Binding) (i : QItem) (l : List QItem) (v s : State),
    AtHead s f.val prio w b → cmdOp w = 0x10 → srcBad s f.val w = false → ((engineN s f.val).queue prio).running = none →
    passLen w ≠ 0 → passLen w ≤ 2048 → passTileVecs w ≠ 0 → passTileVecs w ≤ 2048 → passMode w ≠ 3 →
    (facetN s f.val).active.bound w b = true → (facetN s f.val).restoring = false →
    passTrit w = (facetN s f.val).active.id.trit → passDigit w < fmtDigits b.aFormat →
    ((passMode w == 0) = (!fmtScaled b.wFormat && !fmtScaled b.aFormat)) →
    passFirstVec w + passLen w ≤ passTileVecs w →
    rangeOk (modeSlots (modeOf (passMode w))) (passSlot w) (passLen w) = true →
    (passMerge w = true → passLast w = true ∧
      rangeOk (modeSlots (modeOf (passMode w))) (passMergeDst w) (passLen w) = true) →
    freeItems s f.val (passInQ w) = i :: l → handleTag i.handle = passInTag w →
    tileLenOk b.aFormat (passTileVecs w) i.handle = true →
    (prio = false → (facetN s f.val).flipAsk ≠ some true ∧ prioReady s f.val = false) →
    checkItem s i = (v, none) →
    ∃ r : Run, r.task = b.task ∧ r.prio = prio ∧ r.plane = (facetN s f.val).active.id ∧
      r.next = passFirstVec w ∧ r.stop = passFirstVec w + passLen w ∧ r.digit = passDigit w ∧ r.slotNext = passSlot w ∧
      r.first = passFirst w ∧ r.last = passLast w ∧ r.mode = modeOf (passMode w) ∧ r.budget = passBudget w ∧
      r.tile = (itemData v f.val i).take (tileBytes b.aFormat (passTileVecs w)) ∧
      (r.popQ = if passInPop w then some (passInQ w, i) else none) ∧ r.hold = none ∧
      exec (.pass f prio) s =
        (let m : MergeJob := { prio := prio, task := b.task, operand := b.operand, scale := r.scale, aBase := passMergeDst w,
                               bBase := passSlot w, count := passLen w, run := some r.serial }
         let u := modQueue (touch v b.task) f.val prio fun q => { q with running := some r.serial, waitAt := none }
         let u := modFacet u f.val fun x =>
           { x with runs := x.runs ++ [r], nextRun := x.nextRun + 1, merges := if passMerge w then x.merges ++ [m] else x.merges }
         Next (settleRuns (if prio then preempt u f.val else fillWave u f.val b.task true) f.val))

/-- A command at the head of a queue with no binding is discarded with those up to the next BIND: counted in CMD_ERRORS,
one CMD_MALFORMED of task FFFFh and cause 10; no task ends (R148). -/
def Obligations.UnboundCommandsDiscarded : Prop :=
  ∀ (f : FacetId) (prio : Bool) (w : BitVec 128) (s : State),
    headOf s f.val prio = some w → cmdOp w = 0x24 → ((engineN s f.val).queue prio).binding = none →
    ((engineN s f.val).queue prio).unbound = false →
    let q := (engineN s f.val).queue prio
    let n := (q.cmds.takeWhile fun c => cmdOp c != 1).length
    exec (.tree f prio) s = Next (modQueue (malformedEvent (cmdErrors s f.val n w 10) f.val 0 0 0xFFFF w 10 q.popped) f.val prio
      fun q => { q with cmds := q.cmds.drop n, popped := q.popped + n, unbound := true, waitAt := none, drainWait := none })

/-- TREE whose own position is present, and whose ordinal mask is empty or names the leaf that the task is, replaces the tree of its
task on the facet; MERGE of written elements of one mode and of the task begins; both leave the queue (R156, R157).
Rows whose completion it states, under conditions on state and operands alone: MERGE, TREE. -/
def Obligations.TreeAndMergeBegin : Prop :=
  (∀ (f : FacetId) (prio : Bool) (w : BitVec 128) (b : Binding) (s : State),
    AtHead s f.val prio w b → cmdOp w = 0x24 → (treeOf w b.task).posMask.testBit (treeOf w b.task).pos = true →
    ((treeOf w b.task).ordMask = 0 ∨ (treeOf w b.task).ordMask.testBit (leafOf s b.task) = true) →
    exec (.tree f prio) s = Next (settleRuns (modFacet (popCmd s f.val prio) f.val fun x =>
      { x with trees := (x.trees.filter fun q => q.task != b.task) ++ [treeOf w b.task] }) f.val)) ∧
  (∀ (f : FacetId) (prio : Bool) (w : BitVec 128) (b : Binding) (s : State),
    AtHead s f.val prio w b → cmdOp w = 0x21 → mergeCount w ≠ 0 → mergeCount w ≤ 2048 →
    (let x := facetN s f.val
     let k := ((engineN s f.val).queue prio).scale
     rangeReady x prio b.task k (mergeA w) (mergeCount w) = true ∧ rangeReady x prio b.task k (mergeB w) (mergeCount w) = true ∧
     rangeOk (slotsAt x (mergeA w)) (mergeA w) (mergeCount w) = true ∧
     rangeOk (slotsAt x (mergeA w)) (mergeB w) (mergeCount w) = true ∧
     rangeBad x b.task (mergeA w) (mergeCount w) = none ∧ rangeBad x b.task (mergeB w) (mergeCount w) = none ∧
     modeAt x (mergeA w) = modeAt x (mergeB w)) →
    exec (.merge f prio) s = Next (settleRuns (modFacet (takeCmd s f.val prio) f.val fun x =>
      { x with merges := x.merges ++ [{ prio := prio, task := b.task, operand := b.operand,
                                        scale := ((engineN s f.val).queue prio).scale, aBase := mergeA w, bBase := mergeB w,
                                        count := mergeCount w, run := none }] }) f.val))

/-- REDUCE within the device (levels 1 to 5, R158): where the tree of the task gives the facet the part of a sender or of a
gatherer at the level, its elements are written and its own, and the gatherer's child has delivered the same task, level, count
and mode, the transfer begins, a gather takes its child's elements off the inbound list, its holder is settled by the tree in force
(R156), and the command leaves the queue.
Rows whose completion it states, under conditions on state and operands alone: REDUCE_SEND, REDUCE_GATHER. -/
def Obligations.ReduceBegins : Prop :=
  ∀ (f : FacetId) (prio : Bool) (w : BitVec 128) (b : Binding) (t : TreeDecl) (p : Nat) (s : State),
    AtHead s f.val prio w b → cmdOp w = 0x22 → reduceCount w ≠ 0 → reduceCount w ≤ 2048 →
    reduceLevel w ≠ 0 → reduceLevel w ≤ 5 → treeFor (facetN s f.val) b.task = some t →
    let k := ((engineN s f.val).queue prio).scale
    rangeReady (facetN s f.val) prio b.task k (reduceSlot w) (reduceCount w) = true →
    rangeOk (slotsAt (facetN s f.val) (reduceSlot w)) (reduceSlot w) (reduceCount w) = true →
    rangeBad (facetN s f.val) b.task (reduceSlot w) (reduceCount w) = none →
    let job : Option Inbound → ReduceJob := fun got =>
      { prio := prio, task := b.task, got := got, level := reduceLevel w, slotBase := reduceSlot w, count := reduceCount w,
        scale := k, peer := p, dest := facetAt s b.task p }
    (reduceRole w = 0 → treeRole s t (reduceLevel w) = .send p → exec (.reduceSend f prio) s =
      Next (settleRuns (modFacet (takeCmd s f.val prio) f.val fun x => { x with reduces := x.reduces ++ [job none] }) f.val)) ∧
    (∀ i : Inbound, reduceRole w = 1 → treeRole s t (reduceLevel w) = .gather p →
      inboundFrom (facetN s f.val) (sourceOf s b.task (reduceLevel w) p) prio k = some i → i.task = b.task →
      i.level = reduceLevel w → i.count = reduceCount w → i.mode = modeAt (facetN s f.val) (reduceSlot w) →
      exec (.reduceGather f prio) s = Next (settleRuns (modFacet (takeCmd s f.val prio) f.val fun x =>
        { x with reduces := x.reduces ++ [job (some i)], inbound := x.inbound.erase i }) f.val))

/-- DRAIN, as a sum or as MAX or MIN without DEST and GATHER (R129, R159): with its fields in range, an output buffer that
can exist, and elements that are written, complete and the task's in a mode that allows the form, the drain begins;
DRAIN_WAIT_MAX takes the wait under R138 if it is the longest (R143).
Rows whose completion it states, under conditions on state and operands alone: DRAIN, DRAIN_MAX, DRAIN_MIN. -/
def Obligations.DrainBegins : Prop :=
  ∀ (f : FacetId) (prio : Bool) (w : BitVec 128) (b : Binding) (s : State),
    AtHead s f.val prio w b → cmdOp w = 0x20 → drainOp w ≠ 3 → drainForm w ≠ 3 → drainVecs w ≠ 0 → drainVecs w ≤ 2048 →
    drainRows w ≠ 0 → drainRow w + drainRows w ≤ 512 → drainDest w = false → drainGather w = 0 →
    bufTooBig (streamInto s f.val b.task (drainOutQ w))
      (sumTileBytes (drainForm w) (drainOp w != 0) (if drainOp w = 0 then drainRows w else 1) (drainVecs w)) = false →
    rangeReady (facetN s f.val) prio b.task ((engineN s f.val).queue prio).scale (drainSlot w) (drainVecs w) = true →
    beingRead (facetN s f.val) (drainSlot w) (slotsAt (facetN s f.val) (drainSlot w) * drainVecs w) = false →
    rangeOk (slotsAt (facetN s f.val) (drainSlot w)) (drainSlot w) (drainVecs w) = true →
    rangeBad (facetN s f.val) b.task (drainSlot w) (drainVecs w) = none →
    formAllowed (modeAt (facetN s f.val) (drainSlot w)) (drainForm w) = true →
    let v := modQueue s f.val prio fun q => { q with drainWait := some (q.drainWait.getD (waited s f.val prio)) }
    let u := v.raiseTo (fam 0x3500_08 f.val) (symbolOf ((((engineN v f.val).queue prio).drainWait).getD 0))
    let after := Next (settleRuns (modFacet (takeCmd u f.val prio) f.val fun x =>
      { x with drains := x.drains ++ [drainJob u f.val prio w b [] []] }) f.val)
    (drainOp w = 0 → exec (.drain f prio) s = after) ∧ (drainOp w = 1 → exec (.drainMax f prio) s = after) ∧
    (drainOp w = 2 → exec (.drainMin f prio) s = after)

/-- FENCE ends when every condition that WAIT selects holds, at once or at its release, with its token where SIGNAL is
set and the token's stamp still ahead (R160); TIME_WAIT holds its queue before its stamp or while its facet is held or stopped,
releases at the stamp or when it has waited for it, and a stamp past on arrival, or on the return from a hold or stop, is counted in
LATE_WAITS of a facet and, without STRICT, releases at once (R161, R165, R614).
Rows whose completion it states, under conditions on state and operands alone: FENCE, FENCE_RELEASE, TIME_WAIT,
TIME_WAIT_RELEASE. -/
def Obligations.FenceAndTimeWait : Prop :=
  (∀ (e : EngineId) (prio : Bool) (w : BitVec 128) (b : Binding) (s : State),
    AtHead s e.val prio w b → cmdOp w = 0x30 →
    (∀ t, findTask s b.task = some t → t.cls = .fill ∨ stampBefore (t.tokenDue (fenceToken w)) s.now = false) →
    let after :=
      if fenceHolds s e.val b.task w then
        Next (settleEngine (let t := popCmd s e.val prio
          if fenceSignal w then { t with out := t.out ++ [Out.token e b.task (fenceToken w)] } else t) e.val)
      else Next (settleEngine (markWait s e.val prio) e.val)
    exec (.fence e prio) s = after ∧ exec (.fenceRelease e prio) s = after) ∧
  (∀ (e : EngineId) (prio : Bool) (w : BitVec 128) (b : Binding) (t : Nat) (s : State),
    AtHead s e.val prio w b → cmdOp w = 0x31 → stampTicks (waitStamp w) = some t → waitStrict w = false →
    let fresh := ((engineN s e.val).queue prio).waitAt = none
    let late := fresh ∧ s.isPast t = true
    let after :=
      if heldOrStopped s e.val = true ∧ late then Next (settleEngine s e.val)
      else if stampBefore s.now t = true ∨ heldOrStopped s e.val = true then Next (settleEngine (markWait s e.val prio) e.val)
      else if late ∧ e.val < 32 then Next (settleEngine (popCmd (s.inc (fam 0x3700_05 e.val)) e.val prio) e.val)
      else Next (settleEngine (popCmd s e.val prio) e.val)
    exec (.timeWait e prio) s = after ∧ exec (.timeWaitRelease e prio) s = after)

/-- SHADOW_LOAD_COMPLETE of a record that passes R53 and R102 completes the load and counts it; PLANE_FLIP at a boundary
that R152 allows makes the shadow plane active, and the FLIP that asked for it leaves its queue; FILL_PREEMPTION with a ready priority head preempts the fill run, which is
counted and issues nothing more (R54, R152, R163).
Rows whose completion it states, under conditions on state and operands alone: FILL_PREEMPTION, SHADOW_LOAD_COMPLETE,
PLANE_FLIP. -/
def Obligations.LoadsFlipsPreemption : Prop :=
  (∀ (f : FacetId) (h : Shadow) (s : State), (facetN s f.val).shadow = some h → h.loaded = false →
    (facetN s f.val).swapping = false →
    (h.plane.id.zero = true ∨ recordOk (s.num 0x3000_04) h.plane.id.recId h.plane.bytes = true) →
    exec (.shadowLoadComplete f) s =
      Next (settleRuns (modFacet (s.inc (fam 0x3700_03 f.val)) f.val fun x => { x with shadow := some { h with loaded := true } })
        f.val)) ∧
  (∀ (f : FacetId) (h : Shadow) (s : State),
    let t := finishRuns s f.val
    flipDue t f.val = true → (facetN t f.val).shadow = some h →
    (facetN (flipIn t f.val) f.val).active.id = h.plane.id ∧
    exec (.planeFlip f) s = Next (settleRuns (if (facetN t f.val).restoring then flipIn t f.val
      else popFlip (flipIn t f.val) f.val (facetN t f.val).flipAsk h.plane) f.val)) ∧
  (∀ (f : FacetId) (r : Run) (s : State), prioReady s f.val = true → queueRun (facetN s f.val) false = some r →
    (facetN s f.val).preempted = false →
    exec (.fillPreemption f) s = Next (settleRuns (fillWave ((modFacet s f.val fun x => { x with preempted := true }).inc
      (fam 0x3700_04 f.val)) f.val r.task false) f.val))

/-- PASS_VERDICT (R61, R65, R66, R70): the codes are the sums of R45 plus the deviations of the rows that carry them. An
accepted verdict sends them to the adder tree; a failed first attempt on the active plane spends one of the run's budget
and is issued again. SPARE and range counts are taken first.
Rows whose completion it states, under conditions on state and operands alone: PASS_VERDICT. -/
def Obligations.PassVerdicts : Prop :=
  ∀ (f : FacetId) (errors : List (Nat × Int)) (y : Sym) (rest : List Sym) (s : State),
    (facetN s f.val).inflight = y :: rest →
    let x := facetN s f.val
    let exact := exactCodes (planeOf x y.plane) y.digits
    let codes := attemptCodes x exact errors
    let v := verdictOf codes
    let u := spareCheck ((modFacet s f.val fun x => { x with inflight := rest }).add (fam 0x3100_06 f.val) v.ranges) f.val
      (y.stamp / frameTicks) errors
    (v.accepted = true →
      exec (.passVerdict f errors) s = Next (settleRuns
        (let t := modFacet u f.val fun x => { x with writes := x.writes ++ [codeWriteOf x y codes], afterSwap := false }
         if y.attempt = 2 then t.inc (fam 0x3100_03 f.val) else t) f.val)) ∧
    (v.accepted = false → y.attempt = 1 →
      let t := (u.setNum (fam 0x3100_09 f.val) v.word).faultRetried
      (facetN t f.val).afterSwap = false → y.plane = (facetN t f.val).active.id →
      (∃ r, (facetN t f.val).runs.find? (fun r => r.serial == y.run) = some r ∧ r.budget ≠ 0) →
      exec (.passVerdict f errors) s = Next (settleRuns (chargeFacet
        ((modFacet t f.val fun x => { spendBudget x y.run with
          inflight := x.inflight ++ [{ y with attempt := 2, stamp := t.now }] }).inc (fam 0x3100_01 f.val)) f.val 1 0) f.val))

/-- SWEEP_COMPLETE (R66): the reference codes of the oldest failed symbol are accepted and counted, 716 symbols are charged
and the suspect rows acted on. CONFIRMATION_VERDICT (R67, R74): the suspect rows that repeat the sum are transient, the others
and those due under R68 are swapped; an attempt whose codes a stop has discarded is judged after its new issue alone. SWAP_RELOAD_COMPLETE: the run resumes on the reloaded plane.
Rows whose completion it states, under conditions on state and operands alone: SWEEP_COMPLETE, CONFIRMATION_VERDICT,
SWAP_RELOAD_COMPLETE. -/
def Obligations.SweepsConfirmationsSwaps : Prop :=
  (∀ (f : FacetId) (y : Sym) (rest : List Sym) (s : State), (facetN s f.val).sweeps = y :: rest →
    (facetN s f.val).confirm = none → (facetN s f.val).swapping = false →
    let exact := exactCodes (planeOf (facetN s f.val) y.plane) y.digits
    let t := modFacet s f.val fun x => { x with sweeps := rest, writes := x.writes ++ [codeWriteOf x y exact] }
    exec (.sweepComplete f) s = Next (settleRuns (actOnSuspects (chargeFacet
      ((t.inc (fam 0x3100_04 f.val)).inc (fam 0x3100_05 f.val)).faultRetried f.val 716 0) f.val y) f.val)) ∧
  (∀ (f : FacetId) (errors : List (Nat × Int)) (c : Confirm) (s : State), (facetN s f.val).confirm = some c →
    (c.issued = false → exec (.confirmationVerdict f errors) s = Next s) ∧
    (c.issued = true →
      let exact := exactCodes (planeOf (facetN s f.val) c.sym.plane) c.sym.digits
      let codes := attemptCodes (facetN s f.val) exact errors
      let t := (c.rows.filter fun r => codes.getD r 0 == exact.getD r 0).foldl (fun s r => noteTransient s f.val r c.sym)
        (modFacet s f.val fun x => { x with confirm := none })
      exec (.confirmationVerdict f errors) s = Next (settleRuns (swapRowsOf t f.val
        (((c.rows.filter fun r => codes.getD r 0 != exact.getD r 0).filterMap (carrier (facetN t f.val)))
          ++ (facetN t f.val).dueSwap).dedup c.sym) f.val))) ∧
  (∀ (f : FacetId) (s : State), (facetN s f.val).swapping = true → (facetN s f.val).inflight = [] →
    exec (.swapReloadComplete f) s = Next (settleRuns (lockCheck (reloadShadow ((modFacet s f.val fun x =>
      { calReach x with swapping := false, shadow := none, afterSwap := true }).inc (fam 0x3700_03 f.val)) f.val) f.val) f.val))

/-- CODE_WRITTEN, MERGE_COMPLETE and REDUCE_DELIVERED (R115, R117, R123, R137, R149, R157, R158, R365): a live code reaches its
element in every row bank, its in-tree count falls, and the element is COMPLETE after its last-flag pass; the merge that is due writes
element by element into A and frees B; a gather merges the elements that it took, and a send delivers its own. What each adds to or
sends it reads first: a word that cannot be corrected aborts the task.
Rows whose completion it states, under conditions on state and operands alone: CODE_WRITTEN, MERGE_COMPLETE,
REDUCE_DELIVERED. -/
def Obligations.CodesMergesReducesWritten : Prop :=
  (∀ (f : FacetId) (c : CodeWrite) (s : State),
    let m := slotMeta (facetN s f.val) c.slot
    let t := modFacet s f.val fun x => lowerTree { x with writes := x.writes.erase c } c.slot
    let write := fun (u : State) => clearAcc (modFacet u f.val fun x => closeElem (writeCode x c) c) f.val c.slot (modeSlots c.mode)
    (facetN s f.val).writes.find? (writable (facetN s f.val)) = some c →
    m.owner = c.task → m.mode = c.mode → m.state ≠ .invalid →
    (c.first = true → exec (.codeWritten f) s = Next (settleRuns (write t) f.val)) ∧
    (∀ u, c.first = false → checkRows t f.val 0 512 c.slot (modeSlots c.mode) = (u, none) →
      exec (.codeWritten f) s = Next (settleRuns (write u) f.val)) ∧
    (∀ u a, c.first = false → checkRows t f.val 0 512 c.slot (modeSlots c.mode) = (u, some a) →
      exec (.codeWritten f) s =
        Next (settleRuns (dropBoth (readAbort u .accumulator f.val a f.val true c.task) f.val c.task) f.val))) ∧
  (∀ (f : FacetId) (j : MergeJob) (u v s : State), mergeDue (facetN s f.val) = some j →
    let n := slotsAt (facetN s f.val) j.aBase * j.count
    mergeBad (facetN s f.val) j.task j.aBase j.bBase j.count = none →
    checkRows (modFacet s f.val fun x => { x with merges := x.merges.erase j }) f.val 0 512 j.aBase n = (u, none) →
    checkRows u f.val 0 512 j.bBase n = (v, none) →
    exec (.mergeComplete f) s =
      (let w := modFacet v f.val fun x => mergeRange x j
       Next (settleRuns (clearAcc (if j.run = none then w.inc (fam 0x3700_02 f.val) else w) f.val j.aBase n) f.val))) ∧
  (∀ (f : FacetId) (j : ReduceJob) (rest : List ReduceJob) (u s : State), (facetN s f.val).reduces = j :: rest →
    checkRows s f.val 0 512 j.slotBase (slotsAt (facetN s f.val) j.slotBase * j.count) = (u, none) →
    let done := fun (v : State) => Next (settleRuns ((modFacet v f.val fun x => { x with reduces := x.reduces.drop 1 }).inc
      (fam 0x3700_02 f.val)) f.val)
    (∀ i, j.got = some i → exec (.reduceDelivered f) s =
      done (clearAcc (modFacet u f.val fun x => mergeInbound x j i) f.val j.slotBase (modeSlots i.mode * j.count))) ∧
    (∀ v, j.got = none → deliverSend u f.val j = some v → exec (.reduceDelivered f) s = done v))

/-- DRAIN_COMPLETE (R119, R120, R121, R130, R132, R142, R143, R159, R227, R365): a drain whose elements are written and can be read
fits its form and hands one tile to its output queue, which it counts with its elements; a MAX or MIN without children gives one winner
for each vector; once the buffer has been pushed the tile's slots are freed where FREE is set and the task is inexact with it, and
without credits it waits. A saturated integer tile releases nothing: it is repeated within the limit, and beyond it the task ends. An
uncorrectable element aborts the task.
Rows whose completion it states, under conditions on state and operands alone: DRAIN_COMPLETE. -/
def Obligations.DrainCompletes : Prop :=
  ∀ (f : FacetId) (d : DrainJob) (s : State), (facetN s f.val).drains.find? (drainDue s f.val) = some d →
    comeIns (facetN s f.val) d = [] → d.ins = [] →
    let mode := fun (v : State) => modeAt (facetN v f.val) d.slotBase
    let read := checkRows s f.val d.row d.rows d.slotBase (slotsAt (facetN s f.val) d.slotBase * d.vectors)
    let sum := fun (v : State) => (drainElems (facetN v f.val) d).flatten
    let best := fun (v : State) => (drainElems (facetN v f.val) d).map fun es => vectorWinner (d.op == 1) d es
    let send := fun (u : State) (tile : Bytes) (n : Nat) (inexact : Bool) => match releaseTile u f.val d tile with
      | none => waitTile u f.val d
      | some (t, k) => if pushed t k then tileReleased t f.val d n inexact
          else modFacet t f.val fun x => { x with drains := x.drains.map fun q => if q == d then { d with pushing := some k } else q }
    (∀ u a, d.pushing = none → read = (u, some a) → exec (.drainComplete f) s =
      Next (settleRuns (dropBoth (readAbort u .accumulator f.val a f.val true d.task) f.val d.task) f.val)) ∧
    (d.op = 0 →
      (∀ k, d.pushing = some k → exec (.drainComplete f) s =
        Next (settleRuns (tileReleased s f.val d (d.vectors * d.rows) ((sum s).any fun e => e.inexact)) f.val)) ∧
      (∀ u, d.pushing = none → read = (u, none) →
        let step := if mode u = .integer then satStep ((sum u).map Elem.int) else 0
        exec (.drainComplete f) s = Next (settleRuns (if step ≠ 0 then saturate u f.val d step
          else send u (sumTile (drainHead d false d.scale) ((sum u).map fun e => (e, 0))) (d.vectors * d.rows)
            ((sum u).any fun e => e.inexact)) f.val))) ∧
    (d.op ≠ 0 → d.dest = false →
      (∀ k, d.pushing = some k → exec (.drainComplete f) s =
        Next (settleRuns (tileReleased s f.val d d.vectors ((best s).any fun w => w.value.inexact)) f.val)) ∧
      (∀ u, d.pushing = none → read = (u, none) →
        let step := if mode u = .integer then satStep ((best u).map fun w => w.value.int) else 0
        exec (.drainComplete f) s = Next (settleRuns (if step ≠ 0 then saturate u f.val d step
          else send u (sumTile (drainHead d true d.scale) ((best u).map fun w => (w.value, w.index))) d.vectors
            ((best u).any fun w => w.value.inexact)) f.val)))

/-! ## The check of a pass -/

/-- The check of a pass (R61): the syndromes of the codes p(r) of compute rows and g0 to g3 of girdle rows are
d1 = (sum p(r) - g0 - 3 g1) mod 9 and d2 = (sum c(r) p(r) - g2 - 3 g3) mod 9; the verdict is accepted when both are 0 and no
row has a range fault. An error e in one row of weight c gives the syndromes (e, c e) mod 9, not both 0 unless 9 divides e;
errors in two rows escape only in rows of one weight where they cancel modulo 9, or where both are multiples of 9. The worked
example of the rule has the syndromes (0, 0), and (1, 2) with row 1 at 6. -/
def Obligations.CheckOfAPass : Prop :=
  (∀ codes : List Int, codes.length = 516 →
    let g := fun k => codes.getD (512 + k) 0
    let p := codes.take 512
    let v := verdictOf codes
    (v.d1 : Int) = ((p.foldl (· + ·) 0) - g 0 - 3 * g 1) % 9 ∧
    (v.d2 : Int) = (((p.zipIdx.map fun c => girdleWeight c.2 * c.1).foldl (· + ·) 0) - g 2 - 3 * g 3) % 9 ∧
    (v.accepted = true ↔ v.d1 = 0 ∧ v.d2 = 0 ∧ ∀ c ∈ codes, -384 ≤ c ∧ c ≤ 384)) ∧
  (∀ (codes : List Int) (r : Nat) (e : Int), codes.length = 516 → r < 512 → (verdictOf codes).d1 = 0 → (verdictOf codes).d2 = 0 →
    let v := verdictOf (codes.set r (codes.getD r 0 + e))
    (v.d1 : Int) = e % 9 ∧ (v.d2 : Int) = girdleWeight r * e % 9 ∧ (¬ (9 : Int) ∣ e → v.accepted = false)) ∧
  (∀ (codes : List Int) (r q : Nat) (e d : Int), codes.length = 516 → r < 512 → q < 512 → r ≠ q →
    (verdictOf codes).d1 = 0 → (verdictOf codes).d2 = 0 →
    let v := verdictOf ((codes.set r (codes.getD r 0 + e)).set q (codes.getD q 0 + d))
    v.d1 = 0 → v.d2 = 0 → (girdleWeight r = girdleWeight q ∧ (9 : Int) ∣ e + d) ∨ ((9 : Int) ∣ e ∧ (9 : Int) ∣ d)) ∧
  (verdictOf ([4, 5, 3] ++ List.replicate 509 0 ++ [3, 3, 8, 4])).accepted = true ∧
  (let v := verdictOf ([4, 6, 3] ++ List.replicate 509 0 ++ [3, 3, 8, 4])
   v.accepted = false ∧ v.d1 = 1 ∧ v.d2 = 2)

/-- Girdle trits that satisfy R60 make the syndromes of every exact pass 0, whatever the activation digits: codes that
are the sums of R45 over the lanes of a plane whose girdle rows obey R60 on every lane have both syndromes 0, and the
verdict is accepted when no code lies above 384. -/
def Obligations.ExactPassesAreAccepted : Prop :=
  ∀ (digits : List Nat) (rows : List (List Int)), rows.length = 516 → (∀ w ∈ rows, w.length = digits.length) →
    (∀ j < digits.length,
      let col := rows.map fun w => w.getD j 0
      let sum := (col.take 512).foldl (· + ·) 0
      let wsum := ((col.take 512).zipIdx.map fun c => girdleWeight c.2 * c.1).foldl (· + ·) 0
      (9 : Int) ∣ sum - col.getD 512 0 - 3 * col.getD 513 0 ∧ (9 : Int) ∣ wsum - col.getD 514 0 - 3 * col.getD 515 0) →
    let v := verdictOf (rows.map fun w => dot digits w)
    v.d1 = 0 ∧ v.d2 = 0 ∧ ((∀ w ∈ rows, (dot digits w).natAbs ≤ 384) → v.accepted = true)

/-! ## Accumulation -/

/-- A merge of two elements (R124): with a zero operand the result is the other one; otherwise its exponent is Lm - 62 (wide
mode: Lm - 126), the exact sum is rounded once to that LSB, to nearest even, INEXACT is set exactly where an operand's was or
the rounding discarded something, a result of 0 has SIGN 0, and the order of the operands does not matter. In scaled mode the
magnitude stays below 2^64 and the error is at most 2^-63 of |A| + |B|. Values are compared as integers at an exponent q at or
below every exponent involved. -/
def Obligations.MergeOfTwoElements : Prop :=
  ∀ (m : Mode) (a b : Elem), m ≠ .integer →
    (a.mag = 0 → elemMerge m a b = b) ∧ (b.mag = 0 → a.mag ≠ 0 → elemMerge m a b = a) ∧
    (∀ q : Int, a.mag ≠ 0 → b.mag ≠ 0 →
      let lsb := max a.lead b.lead - (if m = .wide then 126 else 62)
      let r := elemMerge m a b
      let at_ := fun (v : Elem) => v.int * 2 ^ (v.exp - q).toNat
      let off := (at_ r - (at_ a + at_ b)).natAbs
      q ≤ a.exp → q ≤ b.exp → q < lsb →
      r.exp = lsb ∧ 2 * off ≤ 2 ^ (lsb - q).toNat ∧ (2 * off = 2 ^ (lsb - q).toNat → r.mag % 2 = 0) ∧
      (r.inexact = true ↔ a.inexact = true ∨ b.inexact = true ∨ off ≠ 0) ∧ (r.mag = 0 → r.neg = false) ∧
      elemMerge m b a = r ∧
      (m = .scaled → a.mag < 2 ^ 64 → b.mag < 2 ^ 64 →
        r.mag < 2 ^ 64 ∧ 2 ^ 63 * off ≤ (at_ a).natAbs + (at_ b).natAbs))

/-- The better of two winners is a commutative and associative choice (R132). -/
def Obligations.WinnersDoNotDependOnOrder : Prop :=
  ∀ (isMax : Bool) (a b c : Winner), a.index ≠ b.index →
    Winner.best isMax a b = Winner.best isMax b a ∧
    (b.index ≠ c.index → a.index ≠ c.index →
      Winner.best isMax (Winner.best isMax a b) c = Winner.best isMax a (Winner.best isMax b c))

/-! ## Vector units -/

/-- A vector operation w at the head of unit f's queue with its reserved bits 0, a precision that exists and LEN and COUNT
above 0 (R168). -/
def VecHead (s : State) (f : FacetId) (prio : Bool) (w : BitVec 128) (b : Binding) : Prop :=
  AtHead s (32 + f.val) prio w b ∧ cmdBits w 127 126 = 0 ∧ (vargs w).prec ≠ 3 ∧ (vargs w).len ≠ 0 ∧ (vargs w).count ≠ 0

/-- The state after rows of results: the command popped, the rows written from DST in the output precision, the flags
that the operation may raise set in VEC_FLAGS and in the task. -/
def vecDone (s : State) (f : FacetId) (prio : Bool) (w : BitVec 128) (b : Binding) (mask : Nat) (rows : List RowOut) :
    State :=
  let r := writeRows (popCmd s (32 + f.val) prio) f.val (vargs w).dst (vargs w).outSize rows
  vecFlags r.1 f.val b.task (r.2 &&& mask)

/-- The state after the operation w has read its operands (R364): `g` of the state in which their words are read and counted, or, where
one of them cannot be corrected, the one in which its task is aborted (R365). -/
def afterReads (s : State) (f : FacetId) (prio : Bool) (w : BitVec 128) (b : Binding) (g : State → State) : State :=
  match checkRanges .vectorStore f.val (vecReads s f.val (cmdOp w) (vargs w)) s with
  | (u, none) => g u
  | (u, some a) => readAbort u .vectorStore f.val a (32 + f.val) prio b.task

/-- The elementwise operations (R169 to R171): with operands and result inside the store and every word of the operands readable,
element i of row r of the result is the operation's function of element i of row r of its operands, the head leaves the queue, and
only the flags of the operation's row are set; an operand word that cannot be corrected aborts the task instead (R365).
Rows whose completion it states, under conditions on state and operands alone: VADD, VMUL, VFMA, VMAX, VMIN, VSCALE, VEXP,
VRSQRT, VRECIP, VTANH, VSIGMOID, VGELU, VSILU. -/
def Obligations.ElementwiseOperations : Prop :=
  ∀ (f : FacetId) (prio : Bool) (w : BitVec 128) (b : Binding) (s : State), VecHead s f prio w b →
    let v := vargs w
    inStore v.a v.count (v.inSize * v.len) = true → inStore v.dst v.count (v.outSize * v.len) = true →
    let rd := fun (u : State) (line r i : Nat) => (readRow u f.val line v.inSize v.len r).getD i 0
    let done := fun (mask : Nat) (g : State → Nat → Nat → Nat × Nat) => Next (afterReads s f prio w b fun u =>
      vecDone u f prio w b mask ((List.range v.count).map fun r => RowOut.ofFp ((List.range v.len).map fun i => g u r i)))
    let one := fun (mask : Nat) (g : Nat → Nat × Nat) => done mask fun u r i => g (rd u v.a r i)
    let two := fun (mask : Nat) (g : Nat → Nat → Nat × Nat) => done mask fun u r i => g (rd u v.a r i) (rd u v.b r i)
    (cmdOp w = 0x48 → exec (.vscale f prio) s = one 11 fun a => fmul a v.imm) ∧
    (cmdOp w = 0x49 → exec (.vexp f prio) s = one 10 (fexp 0x49)) ∧
    (cmdOp w = 0x4A → exec (.vrsqrt f prio) s = one 13 frsqrt) ∧
    (cmdOp w = 0x4B → exec (.vrecip f prio) s = one 12 frecip) ∧
    (cmdOp w = 0x4C → exec (.vtanh f prio) s = one 8 (ftanh 0x4C)) ∧
    (cmdOp w = 0x4D → exec (.vsigmoid f prio) s = one 8 (fsigmoid 0x4D)) ∧
    (cmdOp w = 0x4E → exec (.vgelu f prio) s = one 8 (fgelu 0x4E)) ∧
    (cmdOp w = 0x4F → exec (.vsilu f prio) s = one 8 (fsilu 0x4F)) ∧
    (inStore v.b v.count (v.inSize * v.len) = true →
      (cmdOp w = 0x43 → exec (.vadd f prio) s = two 11 fadd) ∧
      (cmdOp w = 0x44 → exec (.vmul f prio) s = two 11 fmul) ∧
      (cmdOp w = 0x46 → exec (.vmax f prio) s = two 8 fun x y => (fmax x y, nanIn x ||| nanIn y)) ∧
      (cmdOp w = 0x47 → exec (.vmin f prio) s = two 8 fun x y => (fmin x y, nanIn x ||| nanIn y)) ∧
      (cmdOp w = 0x45 → inStore v.c v.count (v.inSize * v.len) = true →
        exec (.vfma f prio) s = done 11 fun u r i => ffma (rd u v.a r i) (rd u v.b r i) (rd u v.c r i)))

/-- The row operations (R169 to R171): each row of the result is the operation's function of the rows of its operands; an
operand word that cannot be corrected aborts the task instead (R365). VSOFTMAX, VREDMAX and VTOPK leave the task what its sampling is known by (R312).
Rows whose completion it states, under conditions on state and operands alone: VSOFTMAX, VRMSNORM, VLAYERNORM, VROTARY,
VREDSUM, VREDMAX, VTOPK. -/
def Obligations.RowOperations : Prop :=
  ∀ (f : FacetId) (prio : Bool) (w : BitVec 128) (b : Binding) (s : State), VecHead s f prio w b →
    let v := vargs w
    inStore v.a v.count (v.inSize * v.len) = true →
    let rd := fun (u : State) (line r : Nat) => readRow u f.val line v.inSize v.len r
    let out := fun (u : State) (mask : Nat) (g : Nat → RowOut) => vecDone u f prio w b mask ((List.range v.count).map g)
    let done := fun (mask : Nat) (g : State → Nat → RowOut) => Next (afterReads s f prio w b fun u => out u mask (g u))
    (inStore v.dst v.count (v.outSize * v.len) = true →
      (cmdOp w = 0x50 → exec (.vsoftmax f prio) s = Next (afterReads s f prio w b fun u =>
        noteSample (out u 11 fun r => softmaxRow v (rd u v.a r)) b.task 0x50 v.imm [])) ∧
      (inStore v.b v.count (v.inSize * v.len) = true →
        (cmdOp w = 0x51 → exec (.vrmsnorm f prio) s = done 9 fun u r => rmsRow v (rd u v.a r) (rd u v.b r)) ∧
        (cmdOp w = 0x52 → inStore v.c v.count (v.inSize * v.len) = true →
          exec (.vlayernorm f prio) s = done 9 fun u r => layerRow v (rd u v.a r) (rd u v.b r) (rd u v.c r)) ∧
        (cmdOp w = 0x53 → exec (.vrotary f prio) s = done 8 fun u r => rotaryRow v (rd u v.a r) (rd u v.b r)))) ∧
    (cmdOp w = 0x54 → inStore v.dst v.count v.outSize = true → exec (.vredsum f prio) s = done 10 fun u r =>
      { values := [((fsum (rd u v.a r)).1, true)], flags := stepFlags (rd u v.a r) (fsum (rd u v.a r)).2 }) ∧
    (cmdOp w = 0x55 → inStore v.dst v.count (v.outSize + 4) = true → exec (.vredmax f prio) s =
      Next (afterReads s f prio w b fun u => noteSample (out u 8 fun r => redmaxRow (rd u v.a r)) b.task 0x55 v.imm
        ((List.range v.count).map fun r => (redmaxRow (rd u v.a r)).indices).flatten)) ∧
    (cmdOp w = 0x58 → v.imm ≠ 0 → v.imm ≤ 256 → v.imm ≤ v.len → inStore v.dst v.count ((v.outSize + 4) * v.imm) = true →
      exec (.vtopk f prio) s = Next (afterReads s f prio w b fun u =>
        noteSample (out u 8 fun r => topkRow v (rd u v.a r)) b.task 0x58 v.imm
          ((List.range v.count).map fun r => (topkRow v (rd u v.a r)).indices).flatten))

/-- VDOT and VWSUM (R169, R170): dot products of each row with B, and weighted sums over the rows, each product rounded to
FP32 and summed in the balanced tree; an operand word that cannot be corrected aborts the task instead (R365). That out[r] of VDOT is
one row of COUNT values is the model's choice (log entry 126).
Rows whose completion it states, under conditions on state and operands alone: VDOT, VWSUM. -/
def Obligations.DotProductsAndWeightedSums : Prop :=
  ∀ (f : FacetId) (prio : Bool) (w : BitVec 128) (b : Binding) (s : State), VecHead s f prio w b →
    let v := vargs w
    inStore v.a v.count (v.inSize * v.len) = true →
    let row := fun (u : State) (r : Nat) => readRow u f.val v.a v.inSize v.len r
    (cmdOp w = 0x56 → inStore v.b 1 (v.inSize * v.len) = true → inStore v.dst 1 (v.outSize * v.count) = true →
      exec (.vdot f prio) s = Next (afterReads s f prio w b fun u =>
        vecDone u f prio w b 11 [RowOut.ofFp ((List.range v.count).map fun r =>
          dotSum (row u r) (readRow u f.val v.b v.inSize v.len 0))])) ∧
    (cmdOp w = 0x57 → inStore v.b 1 (v.inSize * v.count) = true → inStore v.dst 1 (v.outSize * v.len) = true →
      exec (.vwsum f prio) s = Next (afterReads s f prio w b fun u =>
        vecDone u f prio w b 11 [RowOut.ofFp ((List.range v.len).map fun i =>
          dotSum (readRow u f.val v.b v.inSize v.count 0) ((List.range v.count).map fun r => (row u r).getD i 0))]))

/-- VSAMPLE, VQUANT and VQUANTW (R169, R173 to R176): with finite inputs each row gives the sampled index, the aligned
activation tiles stand at DST one after another, or the stored chunk rows of each row; clamped elements are counted. A
non-finite input ends the task without replay with the numeric-fault result and raises VEC_NONFINITE; for an aligned BF16 tile so
does a product that rounds to a BF16 infinity (R93, R108; log entry 103). An operand word that cannot be corrected aborts the task
instead (R365). How a value and its index lie in the store is the model's choice (log entry 125).
Rows whose completion it states, under conditions on state and operands alone: VSAMPLE, VQUANT, VQUANTW. -/
def Obligations.SamplingAndQuantisation : Prop :=
  ∀ (f : FacetId) (prio : Bool) (w : BitVec 128) (b : Binding) (s : State), VecHead s f prio w b →
    let v := vargs w
    let n := ceilDiv v.len 128
    let rows := fun (u : State) => (List.range v.count).map fun r => readRow u f.val v.a v.inSize v.len r
    let pop := fun (u : State) => popCmd u (32 + f.val) prio
    (cmdOp w = 0x59 → inStore v.a v.count ((v.inSize + 4) * v.len) = true → inStore v.dst v.count 4 = true →
      exec (.vsample f prio) s = Next (afterReads s f prio w b fun u =>
        if ∀ r < v.count, ∀ p ∈ pairRow u f.val v r, isFinite p.1 = true then
          (let q := writeRows (pop u) f.val v.dst 4 ((List.range v.count).map fun r =>
            { values := [((sampleIndex v.imm (pairRow u f.val v r)).1, false)], flags := (sampleIndex v.imm (pairRow u f.val v r)).2 })
           noteSample (vecFlags q.1 f.val b.task (q.2 &&& 9)) b.task 0x59 v.imm
             ((List.range v.count).map fun r => (sampleIndex v.imm (pairRow u f.val v r)).1))
        else nonFinite u f.val prio b 0x59)) ∧
    (cmdOp w = 0x5A → v.c ≠ 0 → v.c ≤ 7 → v.count ≤ 2048 → inStore v.a v.count (v.inSize * v.len) = true →
      inStore v.dst n (tileBytes v.c v.count) = true →
      exec (.vquant f prio) s = Next (afterReads s f prio w b fun u =>
        if ∀ xs ∈ rows u, ∀ x ∈ xs, quantFinite v.c (fmul x v.imm).1 = true then
          (let tiles := (List.range n).map fun k => (rows u).map fun xs => quantChunk v.c (chunkOf xs v.imm k)
           noteSat (tiles.zipIdx.foldl (fun s t => putBytes s f.val
             (v.dst + t.2 * rowLines (tileBytes v.c v.count)) (buildTile v.c (t.1.map Prod.fst))) (pop u)) f.val b.task
             (tiles.flatten.foldl (fun a x => a + x.2) 0))
        else nonFinite u f.val prio b 0x5A)) ∧
    (cmdOp w = 0x5B → v.c ≤ 7 → inStore v.a v.count (v.inSize * v.len) = true →
      inStore v.dst v.count (n * fmtRowBytes v.c) = true →
      exec (.vquantw f prio) s = Next (afterReads s f prio w b fun u =>
        if ∀ xs ∈ rows u, ∀ x ∈ xs, isFinite (fmul x v.imm).1 = true then
          (let outs := (rows u).map fun xs => (List.range n).map fun k => storeChunk v.c (chunkOf xs v.imm k)
           noteSat (outs.zipIdx.foldl (fun s o => putBytes s f.val
             (v.dst + o.2 * rowLines (n * fmtRowBytes v.c)) ((o.1.map Prod.fst).flatten)) (pop u)) f.val b.task
             (outs.flatten.foldl (fun a x => a + x.2) 0))
        else nonFinite u f.val prio b 0x5B))

/-- VLOAD copies the buffer of the head handle that carries the tag into the store, pops it and releases its blocks;
VSTORE copies LEN times COUNT elements to a new buffer of its output stream and pushes it, and leaves the queue once every receiver
has it; VSUMCVT turns the sum tile at SRC_A into FP32 rows and marks the task inexact with the tile (R169, R172, R227). A word that
cannot be corrected aborts the task instead (R365).
Rows whose completion it states, under conditions on state and operands alone: VLOAD, VSTORE, VSUMCVT. -/
def Obligations.VectorLoadsStoresAndSums : Prop :=
  ∀ (f : FacetId) (prio : Bool) (w : BitVec 128) (b : Binding) (s : State), VecHead s f prio w b →
    let v := vargs w
    (∀ i l, cmdOp w = 0x40 → queueAt s f.val (v.a % 32) = i :: l → handleTag i.handle = v.a / 32 % 256 →
      inStore v.dst 1 (itemData s f.val i).length = true →
      exec (.vload f prio) s = Next (match checkItem s i with
        | (u, none) => putBytes (releaseHold (popQueue (popCmd u (32 + f.val) prio) f.val (v.a % 32))
            (holdOf f.val (v.a % 32) i)) f.val v.dst (itemData s f.val i)
        | (u, some a) => readAbort u .staging i.eic a (32 + f.val) prio b.task)) ∧
    (∀ x t serial, cmdOp w = 0x41 → ((engineN s (32 + f.val)).queue prio).pushing = none →
      inStore v.a v.count (v.inSize * v.len) = true → streamInto s (32 + f.val) b.task (v.dst % 32) = some x →
      let data := ((List.range v.count).map fun r =>
        (readRow s f.val v.a v.inSize v.len r).map (copyElem v.inSize v.outSize)).flatten.flatten
      let key := (x.desc.eic, x.desc.stream, serial)
      bufTooBig (some x) data.length = false →
      takeBuf s x.desc.eic x.desc.stream data.length (v.dst / 32 % 256) false = some (t, serial) →
      exec (.vstore f prio) s = Next (match checkRanges .vectorStore f.val (rowRanges v.a v.count (v.inSize * v.len)) t with
        | (u, none) =>
          (let d := finishBuf u x.desc.eic x.desc.stream serial (if v.outSize = 4 then 2 else 3) data
           if pushed d key then popCmd d (32 + f.val) prio
           else modQueue (markWait d (32 + f.val) prio) (32 + f.val) prio fun q => { q with pushing := some key })
        | (u, some a) => readAbort u .vectorStore f.val a (32 + f.val) prio b.task)) ∧
    (∀ key, cmdOp w = 0x41 → ((engineN s (32 + f.val)).queue prio).pushing = some key → pushed s key = true →
      exec (.vstore f prio) s = Next (popCmd s (32 + f.val) prio)) ∧
    (cmdOp w = 0x42 →
      let head := storeBytes s f.val v.a 64
      let form := fieldAt head 0 1
      let rows := fieldAt head 4 2
      let vecs := fieldAt head 6 2
      let tile := storeBytes s f.val v.a (sumTileBytes (form % 3) (decide (3 ≤ form)) rows vecs)
      inStore v.a 1 (sumTileBytes (form % 3) (decide (3 ≤ form)) rows vecs) = true →
      inStore v.dst vecs (if 3 ≤ form then (v.outSize + 4) * rows else v.outSize * rows) = true →
      exec (.vsumcvt f prio) s = Next (afterReads s f prio w b fun u =>
        let out := (List.range vecs).map fun k =>
          let es := (List.range rows).map fun r => sumElem tile (k * rows + r)
          ({ values := (es.map fun e => if 3 ≤ form then [(e.1.1, true), (e.2, false)] else [(e.1.1, true)]).flatten,
             flags := es.foldl (fun a e => a ||| e.1.2) 0 } : RowOut)
        let q := writeRows (popCmd u (32 + f.val) prio) f.val v.dst v.outSize out
        vecFlags (modTask q.1 b.task fun t => { t with inexact := t.inexact || (fieldAt head 2 1).testBit 0 })
          f.val b.task (q.2 &&& 2)))

/-- The frame of the elementwise operations (R169 to R171): when VADD (or another of them) completes on operand words
that hold no error, every byte of memory outside the rows written at DST reads as before, and every object but VEC_OPS and VEC_FLAGS of
the unit holds what it held. -/
def Obligations.ElementwiseFrame : Prop :=
  ∀ (f : FacetId) (prio : Bool) (w : BitVec 128) (b : Binding) (s t : State), VecHead s f prio w b →
    let v := vargs w
    (∀ r ∈ vecReads s f.val (cmdOp w) v, errsAt s (touches (vstoreBase f.val + r.1) r.2) = []) →
    inStore v.a v.count (v.inSize * v.len) = true → inStore v.b v.count (v.inSize * v.len) = true →
    inStore v.c v.count (v.inSize * v.len) = true → inStore v.dst v.count (v.outSize * v.len) = true →
    (exec (.vadd f prio) s = Next t ∧ cmdOp w = 0x43 ∨ exec (.vmul f prio) s = Next t ∧ cmdOp w = 0x44 ∨
     exec (.vfma f prio) s = Next t ∧ cmdOp w = 0x45 ∨ exec (.vmax f prio) s = Next t ∧ cmdOp w = 0x46 ∨
     exec (.vmin f prio) s = Next t ∧ cmdOp w = 0x47 ∨ exec (.vscale f prio) s = Next t ∧ cmdOp w = 0x48 ∨
     exec (.vexp f prio) s = Next t ∧ cmdOp w = 0x49 ∨ exec (.vrsqrt f prio) s = Next t ∧ cmdOp w = 0x4A ∨
     exec (.vrecip f prio) s = Next t ∧ cmdOp w = 0x4B ∨ exec (.vtanh f prio) s = Next t ∧ cmdOp w = 0x4C ∨
     exec (.vsigmoid f prio) s = Next t ∧ cmdOp w = 0x4D ∨ exec (.vgelu f prio) s = Next t ∧ cmdOp w = 0x4E ∨
     exec (.vsilu f prio) s = Next t ∧ cmdOp w = 0x4F) →
    (∀ a, a < vstoreBase f.val + 64 * v.dst ∨
        vstoreBase f.val + 64 * (v.dst + v.count * rowLines (v.outSize * v.len)) ≤ a → memByte t.mem a = memByte s.mem a) ∧
    (∀ oid, oid ≠ fam 0x3900_01 f.val → oid ≠ fam 0x3900_02 f.val → t.val oid = s.val oid) ∧
    t.facets = s.facets ∧ t.stations = s.stations ∧ t.streams = s.streams ∧ t.events = s.events ∧ t.out = s.out

/-- Rounding to nearest (R170): a magnitude num / den * 2^(-k) whose rounding to FP32 stays finite becomes m * 2^q with q at
least -149 and lies within half a unit of the last place, 2^q / 2, of it; both sides are multiplied by 2^149 * den * 2^k. -/
def Obligations.RoundingIsToNearest : Prop :=
  ∀ (num den k : Nat), 0 < den → (roundMag 24 (-149) 0x7F800000 num den (-(k : Int))).2 = false →
    ∃ (m : Nat) (q : Int), fl32 (roundMag 24 (-149) 0x7F800000 num den (-(k : Int))).1 = .fin false m q ∧ -149 ≤ q ∧
      2 * ((num : Int) * 2 ^ 149 - m * 2 ^ (q + 149).toNat * (den * 2 ^ k)).natAbs ≤ 2 ^ (q + 149).toNat * (den * 2 ^ k)

/-! ## The sideband: parameter requests -/

/-- A transfer number that is not in use (R402): no segmented write of it is open, and no segment of a read of it still waits. -/
def Unused (s : State) (x : Xfer) : Prop := s.ring.xfers[x] = none ∧ s.ring.waiting.any (waitingSeg x) = false

/-- A write of an entry under a transfer number that is not in use, which every check of R422 lets through. -/
def Accepted (s : State) (x : Xfer) (index sub : Nat) (b : Bytes) : Prop :=
  Unused s x ∧ judgeWrite (heard s) index sub b = 0

/-- The state t after an accepted write, with its answer: a PARAM_RESP of result 0 (R401, R403). -/
abbrev Answered (t : State) (x : Xfer) (index sub : Nat) : Host.Outcome State Fault Refusal :=
  Next (sendResp t x.val 0 index sub 0 [])

/-- Parameter transfers (R401, R402, R422, R424): a write of up to 4,096 bytes takes effect when it is delivered and is
answered with its result; a refused one is answered with the result of its first failing check and changes nothing but the
companion of a command object and the descriptor that a context command would use; a longer one waits for its PARAM_SEG frames, whose last makes it take effect; a read is
answered with the value taken at its delivery, cut into segments of 4,096 bytes; an abort, and the time limit of 1100h.0A
frames, end the transfer with RESULT 7; an abort of a read of which segments still wait takes them back (log entry 142).
Rows whose completion it states, under conditions on state and operands alone: PARAM_WRITE, RC_READ, PARAM_ABORT, PARAM_SEG,
XFER_TIMEOUT. -/
def Obligations.ParameterTransfers : Prop :=
  (∀ (x : Xfer) (index : BitVec 16) (sub : BitVec 8) (value : Bytes) (d : ObjDef) (s : State),
    Unused s x → value.length ≤ 4096 → findDef index.toNat sub.toNat = some d →
    exec (.paramWrite x index sub value.length value) s =
      (let r := judgeWrite (heard s) index.toNat sub.toNat value
       let a := applyWrite (heard s) index.toNat sub.toNat d (toVal d.ty value) none
       if r = 0 then
         Next (restartAfter (sendResp a.2 x.val a.1 index.toNat sub.toNat 0 []) index.toNat sub.toNat a.1 value)
       else Next (sendResp (refusedWrite (heard s) index.toNat sub.toNat r value) x.val r index.toNat sub.toNat 0 []))) ∧
  (∀ (x : Xfer) (index : BitVec 16) (sub : BitVec 8) (total : Nat) (value : Bytes) (s : State),
    Unused s x → 4096 < total → total ≤ 16777216 → value.length = 4096 →
    exec (.paramWrite x index sub total value) s = Next (modXfer (heard s) x (some
      { index := index.toNat, sub := sub.toNat, total := total, data := value, since := s.up }))) ∧
  (∀ (x : Xfer) (t : XferIn) (payload : Bytes) (s : State),
    s.ring.xfers[x] = some t → s.ring.waiting.any (waitingSeg x) = false → payload.length = min 4096 (t.total - t.data.length) →
    (t.data.length + payload.length < t.total →
      exec (.paramSeg x t.data.length t.total payload) s =
        Next (modXfer (heard s) x (some { t with data := t.data ++ payload }))) ∧
    (t.total ≤ t.data.length + payload.length → ∀ d : ObjDef, findDef t.index t.sub = some d →
      judgeWrite (heard (modXfer s x none)) t.index t.sub (t.data ++ payload) = 0 →
      exec (.paramSeg x t.data.length t.total payload) s =
        (let a := applyWrite (heard (modXfer s x none)) t.index t.sub d (toVal d.ty (t.data ++ payload)) none
         Next (restartAfter (sendResp a.2 x.val a.1 t.index t.sub 0 []) t.index t.sub a.1 (t.data ++ payload))))) ∧
  (∀ (x : Xfer) (index : BitVec 16) (sub : BitVec 8) (s : State),
    Unused s x → judgeRead (heard s) index.toNat sub.toNat = 0 →
    exec (.rcRead x index sub) s =
      (let r := readObject (heard s) index.toNat sub.toNat
       let b := valBytes (256 * index.toNat + sub.toNat) r.1
       let t := sendResp r.2 x.val 0 index.toNat sub.toNat b.length (b.take 4096)
       Next (sendSegs x.val b.length 4096 4096 (b.drop 4096) (if b.length ≤ 4096 then t else { t with ring := { t.ring with
         reads := (x.val, index.toNat, sub.toNat) :: t.ring.reads.filter fun e => e.1 != x.val } })))) ∧
  (∀ (x : Xfer) (t : XferIn) (s : State), s.ring.xfers[x] = some t →
    exec (.paramAbort x) s = Next (sendResp (modXfer (heard s) x none) x.val 7 t.index t.sub 0 []) ∧
    (s.num 0x1100_0A * frameTicks ≤ s.since t.since →
      exec (.xferTimeout x) s = Next (sendResp (modXfer s x none) x.val 7 t.index t.sub 0 []))) ∧
  (∀ (x : Xfer) (n index sub : Nat) (s : State), s.ring.xfers[x] = none → s.ring.waiting.any (waitingSeg x) = true →
    s.ring.reads.find? (fun e => e.1 == x.val) = some (n, index, sub) →
    exec (.paramAbort x) s = Next (sendResp { heard s with ring := { (heard s).ring with
      waiting := s.ring.waiting.filter fun f => !waitingSeg x f
      reads := s.ring.reads.filter fun e => e.1 != x.val } } x.val 7 index sub 0 []))

/-- The node commands (R428 to R433, R445): each that the node state and the conditions of R435 allow leaves 0 in
LAST_RESULT, moves the node as the table of R428 says, and is answered; SERVE lays the
regions of the HBM3E stacks out for the sizes now written (R368). QUIESCE and QUIESCE_NOW taken in Serving leave their
code in PENDING_COMMAND and end with QUIESCE_COMPLETE once no task remains admitted; QUIESCE goes on as QUIESCE_NOW after
QUIESCE_LIMIT frames and raises QUIESCE_FORCED. RESTART follows its answer.
Rows whose completion it states, under conditions on state and operands alone: CONFIGURE, SERVE, QUIESCE, QUIESCE_NOW,
INSPECT, SAFE, RESTART, QUIESCE_COMPLETE, QUIESCE_FORCED. -/
def Obligations.NodeCommands : Prop :=
  (∀ (x : Xfer) (s : State), s.quiesce = 0 →
    let h := (heard s).setNum 0x1000_03 0
    (Accepted s x 0x1001 1 [1] → s.node = .quiesced →
      exec (.configure x) s = Answered (moveNode h .configuring 1) x 0x1001 1) ∧
    (Accepted s x 0x1001 1 [2] → s.node ≠ .serving → s.node ≠ .safe → s.node ≠ .sealed →
      nodeId s ≠ 0 → s.num 0x2000_03 ≠ 0 → s.num 0x0020_01 ≠ 0 →
      exec (.serve x) s = Answered (moveNode (layRegions h) .serving 2) x 0x1001 1) ∧
    (Accepted s x 0x1001 1 [3] → s.node = .configuring ∨ s.node = .inspect →
      exec (.quiesce x) s = Answered (moveNode h .quiesced 3) x 0x1001 1) ∧
    (Accepted s x 0x1001 1 [3] → s.node = .serving →
      exec (.quiesce x) s = Answered (abortTasks (stopBuilds { h.setNum 0x1000_02 3 with quiesce := 1, quiesceAt := s.up })
        fun t => t.cls == .fill).1 x 0x1001 1) ∧
    (Accepted s x 0x1001 1 [4] → s.node = .serving →
      exec (.quiesceNow x) s = Answered (abortTasks (stopBuilds { h.setNum 0x1000_02 4 with quiesce := 2, quiesceAt := s.up })
        fun _ => true).1 x 0x1001 1) ∧
    (Accepted s x 0x1001 1 [5] → s.node = .quiesced → s.num 0xC010_02 ≠ 0 →
      exec (.inspect x) s = Answered (moveNode h .inspect 5) x 0x1001 1) ∧
    (Accepted s x 0x1001 1 [6] → s.node ≠ .safe → exec (.safe x) s = Answered (enterSafe h 2) x 0x1001 1) ∧
    (Accepted s x 0x1001 1 [7] → s.node = .configuring ∨ s.node = .quiesced ∨ s.node = .inspect →
      exec (.restart x) s = Next (restartDevice (sendResp h x.val 0 0x1001 1 0 []) 5))) ∧
  (∀ s : State, s.node = .serving → s.quiesce ≠ 0 →
    (s.tasks = [] → exec .quiesceComplete s =
      Next (moveNode { s.setNum 0x1000_02 0 with quiesce := 0 } .quiesced (s.num 0x1000_02))) ∧
    (s.quiesce = 1 → s.num 0x1000_07 * frameTicks ≤ s.since s.quiesceAt →
      exec .quiesceForced s =
        (let r := abortTasks (stopBuilds { s.setNum 0x1000_02 4 with quiesce := 2 }) fun _ => true
         Next (r.1.raise 0x1001 0xFF (leBytes 4 r.2)))))

/-- The select objects (R216, R218, R256, R289, R321, R360, R427, R536): an accepted write takes the snapshot of what it
selects into the companions of the object, and PEEK reads its place into PEEK_DATA; each is answered. The premise, that the
objects are in canonical form, is the invariant of CanonicalFormsAreKept.
Rows whose completion it states, under conditions on state and operands alone: CAT_SELECT, CTX_SELECT, PLACE_SELECT,
SESSION_SELECT, TABLE_SELECT, PEEK, STREAM_SELECT, RING_SELECT, SENSOR_SELECT. -/
def Obligations.SelectsTakeSnapshots : Prop :=
  ∀ (x : Xfer) (s : State), sparseWf dfltOf s.objs = true → let h := heard s
    (∀ v : BitVec 32, Accepted s x 0x1020 1 (leBytes 4 v.toNat) →
      exec (.catSelect x v) s = Answered (catSelect h v.toNat) x 0x1020 1 ∧
      ∀ d, bitsOf v.toNat 7 0 ≠ 0 → findDef (bitsOf v.toNat 23 8) (bitsOf v.toNat 7 0) = some d →
        bitsOf ((catSelect h v.toNat).num 0x1020_02) 3 0 = tyCode d.ty ∧
        bitsOf ((catSelect h v.toNat).num 0x1020_02) 6 4 = accCode (accOf (bitsOf v.toNat 23 8) (bitsOf v.toNat 7 0) d)) ∧
    (∀ v : BitVec 32, Accepted s x 0x2100 3 (leBytes 4 v.toNat) →
      exec (.tableSelect x v) s = Answered (tableSelect h v.toNat) x 0x2100 3) ∧
    (∀ v : BitVec 64, Accepted s x 0x3600 1 (leBytes 8 v.toNat) →
      exec (.peek x v) s = Answered (takePeek h v.toNat) x 0x3600 1) ∧
    (∀ v : BitVec 16, Accepted s x 0x4300 1 (leBytes 2 v.toNat) →
      exec (.streamSelect x v) s = Answered (streamSelect h v.toNat) x 0x4300 1 ∧
      (findStream s (bitsOf v.toNat 12 10) (bitsOf v.toNat 9 0) = none →
        (streamSelect h v.toNat).blob 0x4300_02 = [])) ∧
    (∀ v : BitVec 16, Accepted s x 0x5020 1 (leBytes 2 v.toNat) →
      exec (.ctxSelect x v) s = Answered (ctxSelect h v.toNat) x 0x5020 1 ∧
      (ctxSelect h v.toNat).num 0x5020_02 = (getCtx s v.toNat).state.code) ∧
    (∀ v : BitVec 32, Accepted s x 0x5030 1 (leBytes 4 v.toNat) →
      exec (.placeSelect x v) s = Answered (placeSelect h v.toNat) x 0x5030 1) ∧
    (∀ v : BitVec 64, Accepted s x 0x6020 1 (leBytes 8 v.toNat) →
      exec (.sessionSelect x v) s = Answered (sessionSelect h v.toNat) x 0x6020 1 ∧
      ((∀ y ∈ s.sessions, y.tag ≠ v.toNat) → (sessionSelect h v.toNat).num 0x6020_02 = 0)) ∧
    (∀ v : BitVec 32, Accepted s x 0x7400 1 (leBytes 4 v.toNat) →
      exec (.ringSelect x v) s = Answered (ringSelect h v.toNat) x 0x7400 1 ∧
      bitsOf ((ringSelect h v.toNat).num 0x7400_02) 9 0 =
        outTarget s (ringKey (bitsOf v.toNat 4 0) (bitsOf v.toNat 14 5) (bitsOf v.toNat 21 15)) % 1024) ∧
    (∀ v : BitVec 16, Accepted s x 0x8500 2 (leBytes 2 v.toNat) →
      exec (.sensorSelect x v) s = Answered (sensorSelect h v.toNat) x 0x8500 2)

/-- Objects whose write does more than hold a value (R185, R215, R263, R288, R336, R339, R388, R436, R443, R449, R452, R454,
R467, R515): expert access, factory defaults, lanes restored, the mirror's buddy, routes and stand-ins of the gang, the time
reset, the context descriptor, light inputs, the source map and the rail table; each takes its effect and is answered.
Rows whose completion it states, under conditions on state and operands alone: EXPERT_ENABLE, FACTORY_DEFAULTS,
LANE_RESTORE, PEER_LANE_RESTORE, BUDDY_WRITE, ROUTE_WRITE, STAND_IN_WRITE, CTX_DESC, TIME_RESET, INPUT_ENABLE, SOURCE_MAP,
RAIL_TABLE. -/
def Obligations.SettingsTakeEffect : Prop :=
  ∀ (x : Xfer) (s : State), let h := heard s
    (∀ v : Byte, Accepted s x 0x1F00 1 [v] → exec (.expertEnable x v) s =
      Answered (if v.toNat = 0 then (if h.flag 0x1F00_02 then (h.setNum 0x1F00_02 0).raise 0x1004 0xFF [0] else h)
        else ((h.setNum 0x1F00_02 1).inc 0x1F00_03).raise 0x1004 0xFF [1]) x 0x1F00 1) ∧
    (∀ v : Byte, Accepted s x 0x1010 5 [v] → exec (.factoryDefaults x v) s =
      Answered (if v.toNat = 1 then factoryDefaults h else h) x 0x1010 5) ∧
    (∀ (p : RingPort) (v : Byte), Accepted s x (0x1110 + p.val) 11 [v] → exec (.laneRestore x p v) s =
      Answered (if v.toNat = 1 ∧ linkState h p = 4 then ringUp h p 15 else h) x (0x1110 + p.val) 11) ∧
    (∀ (p : PeerPort) (v : Byte), Accepted s x (0xA010 + p.val) 12 [v] → exec (.peerLaneRestore x p v) s =
      Answered (if v.toNat = 1 ∧ peerLink h p = 6 then peerLinkUp h p 255 else h) x (0xA010 + p.val) 12) ∧
    (∀ v : Byte, Accepted s x 0xA000 3 [v] → exec (.buddyWrite x v) s =
      Answered (mirrorResync ((h.setNum 0xA000_03 v.toNat).save 0xA000_03)) x 0xA000 3) ∧
    (∀ v : Bytes, Accepted s x 0xA020 1 v → exec (.routeWrite x v) s = Answered ((routeWrite h v).save 0xA020_01) x 0xA020 1) ∧
    (∀ v : BitVec 64, Accepted s x 0xA000 10 (leBytes 8 v.toNat) → exec (.standInWrite x v) s =
      Answered ((standInWrite h v.toNat).save 0xA000_0A) x 0xA000 10) ∧
    (∀ v : Byte, Accepted s x 0x2000 8 [v] → exec (.timeReset x v) s =
      Answered (if v.toNat = 0 then h
        else if h.num 0x2000_03 = 3 then { { h with setArmed := true }.setNum 0x2000_03 0 with outside := none }
        else { h with setArmed := true }) x 0x2000 8) ∧
    (∀ v : Bytes, Accepted s x 0x5010 2 v → exec (.ctxDesc x v) s = Answered { h with ctxDesc := some v } x 0x5010 2) ∧
    (∀ v : Byte, Accepted s x 0x7000 1 [v] → exec (.inputEnable x v) s =
      Answered ((inputEnable h v.toNat).save 0x7000_01) x 0x7000 1) ∧
    (∀ v : BitVec 64, Accepted s x 0x7010 1 (leBytes 8 v.toNat) → exec (.sourceMap x v) s =
      Answered ((writeSourceMap h v.toNat).save 0x7010_01) x 0x7010 1) ∧
    (∀ v : Bytes, Accepted s x 0x8010 1 v → exec (.railTable x v) s = Answered ((railTable h v).save 0x8010_01) x 0x8010 1)

/-- The context commands (R182 to R185, R197, R202 to R206, R210 to R215): each, in a node state that takes it, with its
descriptor where it needs one and with its own conditions met, uses up the descriptor, has its effect, leaves 0 in
LAST_RESULT and is answered.
Rows whose completion it states, under conditions on state and operands alone: REGISTER, DEREGISTER, BUILD, SWITCH, DISCARD,
REPAIR, ABANDON, STORE, UNSTORE. -/
def Obligations.ContextCommands : Prop :=
  ∀ (x : Xfer) (a : CtxArgs) (d : Bytes) (s : State), s.node = .serving ∨ s.node = .configuring →
    s.ctxDesc = some d → descOk d = true → upPortOk 0 d = true →
    let h := heard s
    let u : State := { h with ctxDesc := none }
    let n := a.context.toNat
    let b := a.slot
    let c := getCtx s n
    let copy := a.copyId.toNat
    let model := fieldAt d 0 4
    let stage := fieldAt d 4 1
    let ok := fun (t : State) => Answered (t.setNum 0x5010_03 0) x 0x5010 1
    let takes := fun (op : Nat) => Accepted s x 0x5010 1 (ctxBytes op a)
    (takes 1 → c.state = .unregistered → exec (.register x a) s =
      ok (mapAdopted (saveReg (setCtx u n { noCtx with state := .registered, model := model, stage := stage }) n) n)) ∧
    (takes 2 → c.state ≠ .unregistered → c.state ≠ .closing →
      exec (.deregister x a) s = ok (cmdDeregister h n).2) ∧
    (takes 3 → c.state ≠ .unregistered → c.state ≠ .closing → copy ≠ 0 → copy ≠ (c.slot (!b)).copyId →
      (c.slot b).state = .empty → a.source.toNat = 0 → roomFor215 u d = true →
      let t := setCtx u n { c with pipes := (c.pipes.filter fun p => p.slot != b)
        ++ [{ slot := b, copy := copy, up := none, down := fieldAt d 11 1 % 16 }] }
      exec (.build x a) s = ok (settleBuild (modSlot t n b fun _ =>
        { emptySlot with state := .building, copyId := copy, source := 0, desc := d, gainAt := s.up, askedAt := s.up,
                         extents := (allotExtents t (fieldAt d 16 8)).getD [] }) n b)) ∧
    (takes 4 → c.state ≠ .unregistered → c.state ≠ .closing → (c.slot b).state = .complete ∨ (c.slot b).state = .draining →
      (c.slot b).damaged = [] → switchOk u n b = true →
      let t := setCtx u n { c with pendingTo := some b,
                                   notBefore := if fieldAt d 24 8 = 0 then none else stampTicks (fieldAt d 24 8) }
      exec (.switch x a) s =
        ok (settleCtx (if c.currentCopy = none ∧ mitreDue t (getCtx t n) = true then mitre t n none else t) n)) ∧
    (takes 5 → c.state ≠ .unregistered → c.pendingTo ≠ some b → (c.slot b).state = .complete →
      exec (.discard x a) s = ok (settleCtx (retireSlot h n b) n)) ∧
    (takes 6 → c.state ≠ .unregistered → 4 ≤ (c.slot b).state.code → copy ≠ 0 → copy = (c.slot b).copyId →
      (c.slot b).damaged ≠ [] → a.source.toNat = 0 →
      exec (.repair x a) s = ok (modSlot u n b fun y => { y with
        repairing := (c.slot b).damaged.filter fun k => blockAt (c.slot b).blocks k == [],
        repairPort := none, gainAt := s.up, askedAt := s.up })) ∧
    (takes 7 → copy ≠ 0 → (model, stage, copy) ∈ s.needed → s.requests = [] →
      exec (.abandon x a) s = ok (settleAll (({ u with needed := s.needed.filter fun e => e != (model, stage, copy) }).raise
        0x5019 0xFF (noSlotData (((s.contexts.find? fun (e : Nat × Ctx) => e.2.model == model && e.2.stage == stage).map Prod.fst).getD 0xFFFF) copy
          ++ leBytes 4 0)))) ∧
    (takes 8 → copy ≠ 0 → a.source.toNat = 0 → libraryUsed s < libraryRoom s →
      (∀ e ∈ s.library, (e.model, e.stage, e.copyId) ≠ (model, stage, copy)) →
      exec (.store x a) s = ok { u with library := s.library ++ [
        { model := model, stage := stage, copyId := copy, blocks := [], total := 0, source := 0, desc := d }] }) ∧
    (takes 9 → (∃ e ∈ s.library, (e.model, e.stage, e.copyId) = (model, stage, copy)) → s.contexts = [] →
      exec (.unstore x a) s = ok { u with library := s.library.filter fun e =>
        !(e.model == model && e.stage == stage && e.copyId == copy) })

/-- The commands of the service and of the journal (R318, R322, R495, R501): CANCEL ends a request that has no task and marks
one that runs; CLOSE ends an idle session and closes an active one at the end of its request; SETTLE settles the records of
the last run by its list; ADOPT commits the open records of the mirror partition, empties it and raises JOURNAL_ADOPTED.
Rows whose completion it states, under conditions on state and operands alone: CANCEL, CLOSE, SETTLE, ADOPT. -/
def Obligations.ServiceAndJournalCommands : Prop :=
  ∀ (x : Xfer) (s : State),
    let h := heard s
    (∀ r, Accepted s x 0x6030 2 [1] → s.node = .serving ∨ s.node = .quiesced →
      s.requests.find? (fun q => q.id == s.num 0x6030_01) = some r →
      exec (.cancel x) s = Answered ((if s.tasks.any fun t => t.jsn == r.jsn
        then modRequest h r.jsn fun q => { q with cancel := true }
        else rearmBusy (endRequest h r.jsn 16 0 0 3)).setNum 0x6030_03 0) x 0x6030 2) ∧
    (∀ y, Accepted s x 0x6030 2 [2] → s.node = .serving ∨ s.node = .quiesced → s.num 0x6030_01 ≠ 0 →
      findSession s (s.num 0x6030_01) = some y →
      exec (.close x) s = Answered ((if y.state = .active then modSession h y.num fun q => { q with closing := true }
        else freeSession h y).setNum 0x6030_03 0) x 0x6030 2) ∧
    (Accepted s x 0xB110 2 [1] → s.node = .configuring ∨ s.node = .quiesced → s.journal.settled = false →
      (s.blob 0xB110_01).length % 4 = 0 →
      let js := (pieces 4 ((s.blob 0xB110_01).length / 4) (s.blob 0xB110_01)).map leNat
      strictAscending js = true → exec (.settle x) s = Answered ((settleRecords h js).setNum 0xB110_03 0) x 0xB110 2) ∧
    (Accepted s x 0xB110 2 [2] → s.node = .configuring ∨ s.node = .serving ∨ s.node = .quiesced →
      (s.blob 0xB110_01).length = 1 → fieldAt (s.blob 0xB110_01) 0 1 = mirrorFrom s → mirrorFrom s ≠ 255 →
      let ord := mirrorFrom s
      let opens := openRecords s.journal.mirror
      let list := (opens.map fun o => o.jsn).mergeSort
      let t := opens.foldl (fun t o => adoptRecord t s.journal.mirror o) (modGang h fun g => { g with refuseFrom := some ord })
      let t := ((t.setNum 0xB120_01 ord).setNum 0xB120_02 list.length).setBlob 0xB120_03 ((list.map (leBytes 4)).flatten)
      let t := (modJournal t fun j => { j with mirror := JPart.empty }).setNum 0xA000_06 0xFF
      exec (.adopt x) s = Answered ((settleAll (refreshNeeded (t.raise 0xB040 0xFF
        (leBytes 1 ord ++ leBytes 4 list.length)))).setNum 0xB110_03 0) x 0xB110 2)

/-! ## The Kangeiz ring -/

/-- A frame on a port that is up (R392 to R397): counted in FRAMES_IN; dropped and counted where its code, its length or its
HOPS is bad; removed where the device sent it; forwarded with HOPS less 1 where it is for another node, on the opposite
port, or back with the wrap bit where that port is down; and consumed where it is for the device: a confirmed frame that is
the next of its stream moves the stream on, is delivered, and lets the held frames behind it follow.
Rows whose completion it states, under conditions on state and operands alone: RING_FRAME_RECEIVE. -/
def Obligations.RingFramesReceived : Prop :=
  ∀ (p : RingPort) (f : Frame) (s : State), s.refclk = true → portUp s p = true →
    let c := s.inc (fam 0x1110_07 p.val)
    (badArrival f = true → exec (.ringFrameReceive p f) s = Next (c.inc (fam 0x1110_06 p.val))) ∧
    (badArrival f = false → nodeId s ≠ 0 → f.src.toNat = nodeId s → exec (.ringFrameReceive p f) s = Next c) ∧
    (badArrival f = false → nodeId s = 0 ∨ f.src.toNat ≠ nodeId s → nodeId s = 0 ∨ f.dest.toNat ≠ nodeId s → f.dest.toNat < 126 →
      f.type ≠ 0x50 → f.type ≠ 0x51 →
      exec (.ringFrameReceive p f) s =
        if portUp c (1 - p) then Next (emit c (1 - p) { f with hops := f.hops - 1 })
        else Next (emit c p { f with hops := f.hops - 1, path := f.path ||| 2 })) ∧
    (badArrival f = false → nodeId s ≠ 0 → f.dest.toNat = nodeId s → f.src.toNat ≠ nodeId s → f.dest ≠ 126 →
      foreign c f = false → frameConfirm f = true → f.flags.getLsbD 2 = false → frameBad f = false →
      s.ring.rxNext = some f.seq.toNat →
      exec (.ringFrameReceive p f) s =
        (let t := deliver { heard c with ring := { (heard c).ring with rxNext := some ((f.seq.toNat + 1) % 2 ^ 32) } } f true
         Next (drainHeld false t.ring.rxHeld.length t)))

/-- Frames of node 0 that confirm, number, name and reset the device, and the device's own frames of ring management (R398,
R399, R407, R412, R413): an ACK of a frame sent settles it and lets the next one go, and status 3 sends every unacknowledged
frame again; a frame without its ACK is sent again with RESEND; a ROLL_CALL is answered; an ASSIGN for the device is saved
and acknowledged; STATE runs a node command; RESET restarts the device with its cause; HEARTBEAT and EVENT go out when they
are due, and a queue that has dropped records then tells how many, and the first, with EVENTS_LOST; silence of node 0 raises NODE0_SILENT once.
Rows whose completion it states, under conditions on state and operands alone: ACK, RETX_TIMEOUT, EVENT_SEND, ROLL_CALL,
ASSIGN, STATE, RESET, HEARTBEAT, NODE0_SILENT. -/
def Obligations.RingManagement : Prop :=
  (∀ (seq : BitVec 32) (status : Byte) (t : TxFrame) (s : State),
    s.ring.unacked.find? (fun u => u.frame.seq.toNat == seq.toNat) = some t → status.toNat ≤ 5 →
    exec (.ack seq status) s =
      if status.toNat = 3 then Next (resyncTx (heard s))
      else
        (let u := modUnacked (heard s) fun l => l.filter fun q => q.frame.seq.toNat != seq.toNat
         Next (pumpTx 256 (if t.frame.type = 0x41 then responseAcked u t.frame else u)))) ∧
  (∀ (seq : BitVec 32) (t : TxFrame) (s : State), s.ring.unacked.find? (fun u => u.frame.seq == seq) = some t →
    (if t.resends < s.num 0x1100_05 then s.num 0x1100_04 else s.num 0x1100_07 * frameTicks) ≤ s.since t.sentAt →
    exec (.retxTimeout seq) s =
      (let u := modUnacked s fun l => l.map fun q =>
         if q.frame.seq = seq then { q with sentAt := s.up, resends := q.resends + 1 } else q
       Next ((sendOwn u { t.frame with flags := t.frame.flags ||| 2 }).inc 0x1100_0F))) ∧
  (∀ (dir : Fin 2) (s : State), exec (.rollCall dir) s = Next (sendPlain (heard s) 0x70 [2]
    (leBytes 8 (s.num 0x0000_06) ++ leBytes 1 (nodeId s) ++ leBytes 1 (reportedState s) ++ leBytes 1 (s.num 0x0020_05)
      ++ leBytes 1 dir.val))) ∧
  (∀ (seq : BitVec 32) (own : Bool) (serial : BitVec 64) (id : Byte) (ring : BitVec 32) (s : State),
    id.toNat ≤ 64 → serial.toNat = s.num 0x0000_06 → s.node = .sealed ∨ s.node = .configuring ∨ s.node = .quiesced →
    exec (.assign seq own serial id ring) s =
      Next (sendAck (((heard s).setSaved 0x1100_01 id.toNat).setSaved 0x1100_02 ring.toNat) seq.toNat 0x70 0)) ∧
  (∀ (cmd : Byte) (targets : BitVec 64) (s : State), judgeWrite (heard s) 0x1001 1 [cmd] = 0 → cmd.toNat ≠ 7 →
    judgeCommand (heard s) cmd.toNat = 0 →
    let t := runCommand ((heard s).setNum 0x1000_03 0) cmd.toNat
    exec (.state cmd false targets) s = Next t ∧
    (nodeId s ≠ 0 → targets.toNat.testBit (nodeId s - 1) = true → exec (.state cmd true targets) s = Next t) ∧
    (nodeId s = 0 ∨ targets.toNat.testBit (nodeId s - 1) = false → exec (.state cmd true targets) s = Next (heard s))) ∧
  (∀ (seq : BitVec 32) (serial : BitVec 64) (kind : Byte) (s : State), serial.toNat = s.num 0x0000_06 →
    (kind.toNat = 1 → exec (.reset seq serial kind) s = Next (restartDevice (sendAck (heard s) seq.toNat 0x70 0) 3)) ∧
    (kind.toNat = 2 → exec (.reset seq serial kind) s = Next (restartDevice (sendAck (heard s) seq.toNat 0x70 0) 4))) ∧
  (∀ s : State, s.refclk = true →
    (s.num 0x1100_07 * frameTicks ≤ s.since s.ring.heartbeatAt → exec .heartbeat s =
      Next (sendPlain { s with ring := { s.ring with heartbeatAt := s.up } } 0x70 [6]
        (leBytes 1 (nodeId s) ++ leBytes 1 (reportedState s) ++ leBytes 1 (s.num 0x2000_03) ++ leBytes 1 (s.num 0x0020_05)
          ++ leBytes 4 (s.num 0x0020_01) ++ leBytes 1 (s.num 0x0020_02) ++ leBytes 1 (s.num 0x0020_03)
          ++ leBytes 1 (s.num 0x0020_04) ++ [0] ++ leBytes 4 (lastEvent s) ++ leBytes 8 s.stamp))) ∧
    (s.ring.node0Silent = false → s.num 0x1100_08 * frameTicks ≤ s.since s.ring.node0At → exec .node0Silent s =
      Next ({ s with ring := { s.ring with node0Silent := true } }.raise 0x1016 0xFF [])) ∧
    (s.sysUp = true → s.events.lnk.recs = [] → 64 ≤ s.events.sys.recs.length → exec .eventSend s =
      Next (eventsLost (sendConfirmed
        { s with events := { s.events with sys := { s.events.sys with recs := s.events.sys.recs.drop 64 } } } 0x30 [64]
        ((s.events.sys.recs.take 64).map (eventBytes false)).flatten) false)) ∧
    (s.sysUp = false → 64 ≤ s.events.lnk.recs.length → exec .eventSend s =
      Next (eventsLost (sendConfirmed
        { s with events := { s.events with lnk := { s.events.lnk with recs := s.events.lnk.recs.drop 64 } } } 0x30 [64]
        ((s.events.lnk.recs.take 64).map (eventBytes true)).flatten) true)) ∧
    (∀ lnk : Bool, let q := eventQueue s lnk
      (q.dropped = 0 → eventsLost s lnk = s) ∧
      (q.dropped ≠ 0 → eventsLost s lnk =
        (modEvents s lnk fun q => { q with dropped := 0, firstLost := 0 }).raiseIn lnk 0x1015 0xFF
          (leBytes 4 q.dropped ++ leBytes 4 (q.firstLost % 2 ^ 31 + if lnk then 2 ^ 31 else 0)))))

/-- Cyclic maps (R405, R406): a transmit map sends its values at its firing stamps and counts the frame; a frame for a
receive map waits for its stamp, one whose stamp is past is applied at once and counted late; at its stamp the values are
written in the order of the map's entries.
Rows whose completion it states, under conditions on state and operands alone: CYCLIC, CYCLIC_FIRE, CYCLIC_APPLY. -/
def Obligations.CyclicMaps : Prop :=
  (∀ (m : Fin 16) (s : State), s.refclk = true → s.sysUp = true → s.num (fam 0x1200_01 m.val) = 1 →
    firesAt s m.val s.now = true → (ownPort s).isSome = true →
    exec (.cyclicFire m) s =
      (let r := sampleEntries (cyclicEntries s m.val) s
       Next ((sendPlain r.2 0x20 (leBytes 1 m.val ++ List.replicate 7 0 ++ leBytes 8 r.2.stamp) r.1).inc
         (fam 0x1200_05 m.val)))) ∧
  (∀ (m : Fin 16) (stamp : BitVec 64) (payload : Bytes) (t : Nat) (s : State), s.sysUp = true →
    cyclicOk (heard s) m.val stamp.toNat payload = true → stampTicks stamp.toNat = some t →
    (s.isPast t = true → exec (.cyclic m stamp payload) s =
      Next ((applyMap (heard s) m.val payload).inc (fam 0x1200_06 m.val))) ∧
    (s.isPast t = false → (s.ring.cyclic.filter fun c => c.map == m.val).length < 4 →
      (∀ c ∈ s.ring.cyclic, c.map = m.val → c.stamp ≠ t) →
      exec (.cyclic m stamp payload) s = Next (modCyclic (heard s) fun l => l ++ [
        { map := m.val, stamp := t, payload := payload }]))) ∧
  (∀ (m : Fin 16) (c : CyclicWait) (s : State), s.sysUp = true → cyclicDue s m.val = some c →
    exec (.cyclicApply m) s = Next (applyMap (modCyclic s fun l => l.filter fun d => d != c) c.map c.payload)) ∧
  (∀ (m : Nat) (e : Nat × Nat) (es : List (Nat × Nat)) (b : Bytes) (s : State), judgeWrite s e.1 e.2 (b.take (entryBytesOf e)) = 0 →
    ∀ d, findDef e.1 e.2 = some d → (applyWrite s e.1 e.2 d (toVal d.ty (b.take (entryBytesOf e))) none).1 = 0 →
      applyEntries m (e :: es) b s =
        applyEntries m es (b.drop (entryBytesOf e)) (applyWrite s e.1 e.2 d (toVal d.ty (b.take (entryBytesOf e))) none).2)

/-- Service requests and weight blocks on the ring (R193, R295, R301, R400, R411, R484): a further segment is kept and
acknowledged; the last one of a new request that is well formed commits the request to the journal and acknowledges it; a
repeat of an incomplete request is counted and acknowledged without a second commit; a request that misses a segment for
6000h.06 frames is dropped and counted; a weight block is answered RECEIVED where something takes it and REFUSED else.
Rows whose completion it states, under conditions on state and operands alone: SVC_REQ, SEGMENT_TIMEOUT, WEIGHT_BLOCK. -/
def Obligations.RequestsAndBlocksOnTheRing : Prop :=
  (∀ (seq : BitVec 32) (payload : Bytes) (s : State), s.sysUp = true → 128 ≤ payload.length → refusesNew (heard s) = false →
    let h := payload.take 128
    let id := fieldAt h 0 8
    let q := joinSegment (s.ring.segs.find? fun q => q.requestId == id) h (payload.drop 128) s.up
    let u := dropSegs (heard s) id
    ((fieldAt h 17 1).testBit 1 = true → exec (.svcReq seq payload) s =
      Next (sendAck { u with ring := { u.ring with segs := u.ring.segs ++ [q] } } seq.toNat 0x40 0)) ∧
    ((fieldAt h 17 1).testBit 1 = false → knownId u q.requestId = .fresh → exec (.svcReq seq payload) s =
      Next (commitRequest u q.header q.data (q.bad || !requestOk q.header q.data ||
        (getCtx u (fieldAt q.header 20 2 % 4096)).stage != 0) seq.toNat true)) ∧
    (∀ jsn, (fieldAt h 17 1).testBit 1 = false → knownId u q.requestId = .incomplete jsn false →
      exec (.svcReq seq payload) s =
        Next (sendAck (sendAck (u.inc 0x6010_09) seq.toNat 0x40 0) seq.toNat 0x40 5))) ∧
  (∀ (id : BitVec 64) (q : SegIn) (s : State), s.ring.segs.find? (fun q => q.requestId == id.toNat) = some q →
    s.num 0x6000_06 * frameTicks ≤ s.since q.since →
    exec (.segmentTimeout id) s = Next ((dropSegs s q.requestId).inc 0x6010_0A)) ∧
  (∀ (seq model : BitVec 32) (stage : Byte) (copy block : BitVec 32) (payload : Bytes) (s : State),
    payload.length = 4096 → s.sysUp = true →
    exec (.weightBlock seq model stage copy block payload) s =
      (let r := weightBlockIn (heard s) model.toNat stage.toNat copy.toNat block.toNat none payload
       Next (sendAck r.2 seq.toNat 0x60 (if r.1 then 0 else 4))))

/-! ## Ports -/

/-- Kangeiz and peer ports (R387 to R389, R393, R448 to R450, R453): training ends UP4 or UP3, CHECKING for a peer port,
which sends HELLO; a port that was up has lost its alignment before it trains again (log entry 136); a failed lane is signalled to the
far end and leaves one lane fewer, raised and counted, or takes the port down; loss of light shuts the
transmitter and the port, raised and counted; returning light lets a port train; a shut port emits a probe pulse each
second; HELLO is repeated once per second while ISOLATED.
Rows whose completion it states, under conditions on state and operands alone: LINK_UP, LANE_FAIL, LOSS_OF_LIGHT,
LIGHT_RETURN, EYE_PROBE, PEER_LINK_TRAINED, PEER_LANE_FAIL, HELLO_RESEND. -/
def Obligations.PortsAndLight : Prop :=
  (∀ (p : RingPort) (m : Option (Fin 4)) (s : State), s.refclk = true → s.eyes[ringEye p].txOn = true →
    s.eyes[ringEye p].lit = true → linkState s p = 0 ∨ linkState s p = 2 →
    exec (.linkUp p m) s = Next (ringUp s p (match m with
      | some l => 15 - 2 ^ l.val
      | none => 15))) ∧
  (∀ (p : RingPort) (m : Option (Fin 4)) (s : State), s.refclk = true → s.eyes[ringEye p].txOn = true →
    s.eyes[ringEye p].lit = true → linkState s p = 3 ∨ linkState s p = 4 →
    exec (.linkUp p m) s = Next (ringUp (ringDown s p 2 2) p (match m with
      | some l => 15 - 2 ^ l.val
      | none => 15))) ∧
  (∀ (p : RingPort) (l : Fin 4) (s : State), (s.num (fam 0x1110_02 p.val)).testBit l.val = true →
    (linkState s p = 3 → exec (.laneFail p l) s =
      Next (ringUp (((signalLane s (ringEye p) l.val).inc (fam 0x1110_0A p.val)).raise 0x1012 p.val (leBytes 1 l.val)) p
        (15 - 2 ^ l.val))) ∧
    (linkState s p = 4 → exec (.laneFail p l) s = Next (ringDown s p 0 3))) ∧
  (∀ (p : RingPort) (s : State), let dark := modEye s (ringEye p) fun e =>
      { e with lit := false, txOn := false, shutAt := s.up, lastPulse := s.up }
    (linkState s p ≠ 1 → exec (.lossOfLight (ringEye p)) s =
      Next (ringDown ((dark.inc (fam 0x1110_09 p.val)).raise 0x1013 p.val []) p 1 1)) ∧
    (linkState s p < 2 → exec (.lightReturn (ringEye p)) s =
      Next (dropPair ((modEye s (ringEye p) fun e => { e with lit := true, txOn := true }).setNum (fam 0x1110_01 p.val) 2)))) ∧
  (∀ (p : PeerPort) (s : State), let dark := modEye s (peerEye p) fun e =>
      { e with lit := false, txOn := false, shutAt := s.up, lastPulse := s.up }
    (peerLink s p ≠ 0 → peerLink s p ≠ 2 → exec (.lossOfLight (peerEye p)) s =
      Next (peerDown ((dark.inc (fam 0xA010_0A p.val)).raise 0xA013 p.val []) p 2)) ∧
    (peerLink s p = 1 ∨ peerLink s p = 2 → exec (.lightReturn (peerEye p)) s =
      Next ((modEye s (peerEye p) fun e => { e with lit := true, txOn := true }).setNum (fam 0xA010_01 p.val) 3)) ∧
    (peerLink s p = 7 → 30720000 ≤ s.since s.peers[p].helloAt → exec (.helloResend p) s = Next (sendHello s p))) ∧
  (∀ (e : EyePort) (s : State), (∃ p, ringOf e = some p ∧ linkState s p = 1) ∨ (∃ p, peerOf e = some p ∧ peerLink s p = 2) →
    30720000 ≤ s.since s.eyes[e].shutAt → 30720000 ≤ s.since s.eyes[e].lastPulse →
    exec (.eyeProbe e) s = Next { modEye s e fun q => { q with lastPulse := s.up } with out := s.out ++ [Out.pulse e] }) ∧
  (∀ (p : PeerPort) (m : Option (Fin 8)) (s : State), s.refclk = true → s.eyes[peerEye p].txOn = true →
    s.eyes[peerEye p].lit = true → peerLink s p = 1 ∨ peerLink s p = 3 →
    exec (.peerLinkTrained p m) s = Next (sendHello ((s.setNum (fam 0xA010_01 p.val) 4).setNum (fam 0xA010_02 p.val) (match m with
      | some l => 255 - 2 ^ l.val
      | none => 255)) p)) ∧
  (∀ (p : PeerPort) (l : Fin 8) (s : State), (s.num (fam 0xA010_02 p.val)).testBit l.val = true →
    (peerLink s p = 5 → exec (.peerLaneFail p l) s =
      Next (peerLinkUp (((signalLane s (peerEye p) l.val).inc (fam 0xA010_0B p.val)).raise 0xA012 p.val (leBytes 1 l.val)) p
        (255 - 2 ^ l.val))) ∧
    (peerLink s p = 6 → exec (.peerLaneFail p l) s = Next (peerDown s p 1)))

/-! ## The gang -/

/-- A frame of a type with its ten ARG bytes on a peer port that is up, taken in order by the link layer, with a well-formed header of
its channel, and for this device; `u` is the state behind the link layer, its credit given back (R455 to R458). -/
def PeerFrameIn (s : State) (p : PeerPort) (h : PeerHdr) (type channel : Nat) (record payload : Bytes) (u : State) : Prop :=
  peerUp s p = true ∧ h.hops.toNat ≤ 8 ∧ headerOk h channel = true ∧
  ∃ t, linkAccept s p h (frameOf h type record payload) true = (t, true) ∧ ownOrdinal t h.destOrd.toNat = true ∧
    u = creditBack t p channel h.hops.toNat

/-- The same of a frame whose reserved ARG bytes follow its arguments. -/
def PeerIn (s : State) (p : PeerPort) (h : PeerHdr) (type channel : Nat) (arg payload : Bytes) (u : State) : Prop :=
  PeerFrameIn s p h type channel (recordOf h arg) payload u

/-- The peer link layer (R452, R453, R456 to R458): the next frame of a link uses its acknowledgement and its credit field,
moves the link on and is answered; a frame with a bad code is counted and answered with NAK, and one with a bad CRC answered with NAK; a frame for another ordinal is
forwarded along the route with one hop more; LINK_ACK with NAK, and 20 µs without progress, send every unacknowledged frame
again; CREDIT returns every credit it lists; a HELLO that names the ring and the neighbour expected brings the port up, any
other isolates it and raises PEER_ISOLATED.
Rows whose completion it states, under conditions on state and operands alone: HELLO, LINK_ACK, PEER_RESEND_TIMEOUT, CREDIT,
DATA. -/
def Obligations.PeerLinkLayer : Prop :=
  (∀ (p : PeerPort) (h : PeerHdr) (f : PeerFrame) (answer : Bool) (s : State),
    let u := peerCredited (peerAcked s p h.ackSeq.toNat) p h.creditField.toNat
    (h.fecOk = true → f.crcOk = true → h.seq.toNat = u.peers[p].rxNext → linkAccept s p h f answer =
      (let v := modPeer u p fun q => { q with rxNext := (q.rxNext + 1) % 2 ^ 32 }
       (if answer then sendLink v p 0x01 0 [] else v, true))) ∧
    (h.fecOk = true → f.crcOk = false → linkAccept s p h f answer = (sendLink s p 0x01 1 [], false)) ∧
    (h.fecOk = false → linkAccept s p h f answer = (sendLink (s.inc (fam 0xA010_08 p.val)) p 0x01 1 [], false))) ∧
  (∀ (p : PeerPort) (h : PeerHdr) (st : BitVec 13) (r tag : Byte) (blk : BitVec 16) (payload : Bytes) (t : State)
      (out : PeerPort) (hops : Nat) (s : State),
    let f := frameOf h 0x10 (recordOf h (streamArg h st r ++ leBytes 1 tag.toNat ++ leBytes 2 blk.toNat)) payload
    peerUp s p = true → linkAccept s p h f true = (t, true) → h.hops.toNat < 8 → headerOk h 2 = true →
    ownOrdinal t h.destOrd.toNat = false → routeTo t h.destOrd.toNat = some (out, hops) →
    exec (.data p h st r tag blk payload) s = Next (peerSend (t.inc (fam 0xA010_0E out.val)) out
      { type := 0x10, flags := h.flags, srcOrd := h.srcOrd.toNat, destOrd := h.destOrd.toNat, hops := h.hops.toNat + 1,
        channel := 2, seq := h.seq.toNat, ackSeq := h.ackSeq.toNat, ringId := h.ringId.toNat, creditField := 0,
        record := (streamArg h st r ++ leBytes 1 tag.toNat ++ leBytes 2 blk.toNat ++ h.rest ++ List.replicate 10 0#8).take 10,
        payload := payload, crc := h.crc, via := some p })) ∧
  (∀ (p : PeerPort) (h : PeerHdr) (t : State) (s : State), 4 ≤ peerLink s p →
    linkAccept s p h (frameOf h 0x01 (recordOf h []) []) false = (t, true) →
    reservedOk455 h = true →
    exec (.linkAck p h) s = if h.flags.toNat.testBit 0 then Next (peerResend t p) else Next t) ∧
  (∀ (p : PeerPort) (s : State), 4 ≤ peerLink s p → s.peers[p].unacked ≠ [] → 615 ≤ s.since s.peers[p].progressAt →
    exec (.peerResendTimeout p) s = Next (peerResend s p)) ∧
  (∀ (p : PeerPort) (h : PeerHdr) (returns : List (BitVec 16)) (t : State) (s : State), peerUp s p = true →
    linkAccept s p h (frameOf h 0x02 (recordOf h []) ((returns.map fun v => leBytes 2 v.toNat).flatten)) true = (t, true) →
    reservedOk455 h = true → returns.length ≤ 32 →
    exec (.credit p h returns) s = Next (returns.foldl (fun t v => peerCredited t p v.toNat) t)) ∧
  (∀ (p : PeerPort) (h : PeerHdr) (ring : BitVec 32) (o port : Byte) (serial : BitVec 64) (s : State),
    peerLink s p = 4 ∨ peerLink s p = 7 → h.fecOk = true →
    (frameOf h 0x03 (recordOf h []) (leBytes 4 ring.toNat ++ [o, port] ++ leBytes 8 serial.toNat)).crcOk = true →
    reservedOk455 h = true → h.seq.toNat = 0 →
    let u := (sendLink (modPeer s p fun q => { q with rxNext := 1, unacked := [], credits := [] }) p 0x01 0 []).setNum
      (fam 0xA010_10 p.val) serial.toNat
    exec (.hello p h ring o port serial) s =
      if ring.toNat = ringId u ∧ o.toNat + 256 * port.toNat = u.num (fam 0xA010_05 p.val) then
        Next (peerLinkUp u p (u.num (fam 0xA010_02 p.val)))
      else Next ((u.setNum (fam 0xA010_01 p.val) 7).raise 0xA014 p.val
        (leBytes 4 ring.toNat ++ leBytes 1 o.toNat ++ leBytes 1 port.toNat ++ leBytes 8 serial.toNat)))

/-- Frames of a gang task (R458, R459, R461 to R465): DATA fills the stream it names, whose buffer is complete with LAST;
STREAM_CREDIT opens the receiver's window; READ is answered from the library; a GRANT for a level between devices lets the
part's waiting send go; REDUCE brings elements; REPEAT runs the commands of the tile again at the scale step; ABORT aborts the part and
replays it; BATCH admits on the engines in service the part that the admission test passes and whose blocks are sound, and answers
with its cause otherwise; a part whose bound has passed is aborted.
Rows whose completion it states, under conditions on state and operands alone: DATA, STREAM_CREDIT, READ, BATCH, GRANT,
PEER_REDUCE, ABORT, PART_BOUND_EXPIRY, REPEAT. -/
def Obligations.GangTasks : Prop :=
  (∀ (p : PeerPort) (h : PeerHdr) (st : BitVec 13) (r tag : Byte) (blk : BitVec 16) (payload : Bytes) (u s : State),
    PeerIn s p h 0x10 2 (streamArg h st r ++ leBytes 1 tag.toNat ++ leBytes 2 blk.toNat) payload u →
    exec (.data p h st r tag blk payload) s =
      Next (takeData u h.srcOrd.toNat (st.toNat / 1024) (st.toNat % 1024) r.toNat tag.toNat (h.flags.toNat.testBit 2) payload)) ∧
  (∀ (p : PeerPort) (h : PeerHdr) (st : BitVec 13) (r : Byte) (n : BitVec 16) (u s : State),
    PeerIn s p h 0x11 2 (streamArg h st r ++ leBytes 2 n.toNat) [] u → exec (.streamCredit p h st r n) s =
      Next (takeCredits u h.srcOrd.toNat (st.toNat / 1024) (st.toNat % 1024) r.toNat n.toNat)) ∧
  (∀ (p : PeerPort) (h : PeerHdr) (payload : Bytes) (e : LibEntry) (o : OpEntry) (u s : State), PeerIn s p h 0x12 2 [] payload u →
    payload.length = 32 → fieldAt payload 5 3 = 0 → fieldAt payload 31 1 = 0 → fieldAt payload 28 2 < 8192 →
    libOperand u (fieldAt payload 0 4) (fieldAt payload 4 1) (fieldAt payload 8 4) (fieldAt payload 12 4) = some (e, o) →
    fieldAt payload 16 8 + fieldAt payload 24 4 ≤ o.length →
    let data := imageRead e.blocks (o.offset + fieldAt payload 16 8) (fieldAt payload 24 4)
    exec (.read p h payload) s = Next (answerRead (countImage u (fieldAt payload 0 4) (fieldAt payload 4 1) (fieldAt payload 8 4)
        (o.offset + fieldAt payload 16 8) (fieldAt payload 24 4))
      h.srcOrd.toNat (fieldAt payload 28 2) (fieldAt payload 30 1) (data.length + 1) 0 data)) ∧
  (∀ (p : PeerPort) (h : PeerHdr) (gt : BitVec 32) (level : Byte) (t : Task) (u s : State),
    PeerIn s p h 0x21 1 (leBytes 4 gt.toNat ++ leBytes 1 level.toNat) [] u →
    6 ≤ level.toNat → level.toNat ≤ 11 → partAt u gt.toNat h.destOrd.toNat = some t →
    exec (.grant p h gt level) s = Next (takeGrant u t.num level.toNat)) ∧
  (∀ (p : PeerPort) (h : PeerHdr) (gt : BitVec 32) (level mode : Byte) (m : Mode) (payload : Bytes) (t : Task) (u s : State),
    PeerIn s p h 0x22 1 (leBytes 4 gt.toNat ++ leBytes 1 level.toNat ++ leBytes 1 mode.toNat) payload u →
    partAt u gt.toNat h.destOrd.toNat = some t → modeByte mode.toNat = some m → elemsOk mode.toNat m payload = true →
    exec (.peerReduce p h gt level mode payload) s = Next (touch (takeElems u
      (inboundFrame t h.srcOrd.toNat level.toNat mode.toNat (grantedScale u t.num level.toNat) m payload)) t.num)) ∧
  (∀ (p : PeerPort) (h : PeerHdr) (gt : BitVec 32) (b : Byte) (payload : Bytes) (t : Task) (r : TileRepeat) (u s : State),
    PeerIn s p h 0x23 1 (leBytes 4 gt.toNat ++ leBytes 1 b.toNat) payload u →
    partAt u gt.toNat h.destOrd.toNat = some t → payload.length = 8 →
    t.graph.tiles.find? (fun r => r.rowTile == fieldAt payload 0 4 && r.slot == fieldAt payload 4 2
      && r.vectors == fieldAt payload 6 2) = some r →
    exec (.repeatTile p h gt b payload) s = Next (settleAllFacets (writeRepeat u t r b.toNat))) ∧
  (∀ (p : PeerPort) (h : PeerHdr) (gt : BitVec 32) (b : Byte) (t : Task) (u s : State),
    PeerIn s p h 0x24 1 (leBytes 4 gt.toNat ++ leBytes 1 b.toNat) [] u → partAt u gt.toNat h.destOrd.toNat = some t →
    exec (.abort p h gt b) s = Next (settleAllFacets (abortTask u t.num .replay b.toNat))) ∧
  (∀ (p : PeerPort) (h : PeerHdr) (gt model : BitVec 32) (g : TaskGraph) (stage : Byte) (copy : BitVec 32)
      (bound : BitVec 64) (t n : Nat) (c : Ctx) (u s : State),
    PeerIn s p h 0x20 1 (leBytes 4 gt.toNat) (leBytes 4 model.toNat ++ leBytes 1 stage.toNat ++ leBytes 4 copy.toNat
      ++ leBytes 1 (clsCode g.cls) ++ leBytes 8 bound.toNat ++ leBytes 4 g.task) u →
    stampTicks bound.toNat = some t → u.node = .serving → u.quiesce = 0 → findTask u g.task = none →
    (u.contexts.find? fun c => c.2.model == model.toNat && c.2.stage == stage.toNat && (c.2.holding copy.toNat).isSome) =
      some (n, c) →
    let ord := h.destOrd.toNat
    let part := graphOn u { g with jsn := noRequest, copy := copy.toNat, context := n, parts := [] }
    (needsDamaged u part copy.toNat = true → exec (.batch p h gt g model stage copy bound) s =
      Next (refusePart (u.faultAborted true) gt.toNat ord 256)) ∧
    (needsDamaged u part copy.toNat = false →
      (∀ plan, judgeTask u part part.cls t = .plan plan → exec (.batch p h gt g model stage copy bound) s =
        Next ((part.streams.filter fun d => d.producer == 0x48).foldl (fun s d =>
            (sendFreeing s none ord (gt.toNat % 256) 0x11 0 2
              (leBytes 2 (d.stream + d.eic * 1024) ++ leBytes 1 0 ++ leBytes 2 d.poolBlocks) []).getD s)
          (admitTask u part part.cls t plan (some (gt.toNat, [gt.toNat % 256])) ord))) ∧
      (∀ cause retry, judgeTask u part part.cls t = .refused cause retry → exec (.batch p h gt g model stage copy bound) s =
        Next (refusePart (countRefusal u cause) gt.toNat ord cause)))) ∧
  (∀ (gt : BitVec 32) (t : Task) (s : State),
    s.tasks.find? (fun t => (t.gang.any fun g => g.1 == gt.toNat) && gt.toNat % 256 != t.ordinal && s.isPast t.bound) = some t →
    exec (.partBoundExpiry gt) s = Next (settleAllFacets (abortTask s t.num .replay 0)))

/-- The mirror and weight blocks between devices (R193, R201, R466 to R469): a JOURNAL entry of the device whose part is held is
kept at its position and acknowledged, and one with RESYNC begins a new part; a RECLAIM entry frees the positions it names; a
JOURNAL_ACK of status 0 marks the position held and of status 1 loses the mirror, as does one that is overdue; a WEIGHT_BLOCK is
forwarded and taken; BLOCK_REQ is answered with the blocks that are written, and the rest is owed and asked for upstream; a build or
a repair from a peer that has gained no block for one frame asks for its missing blocks.
Rows whose completion it states, under conditions on state and operands alone: JOURNAL, JOURNAL_ACK, MIRROR_TIMEOUT,
PEER_WEIGHT_BLOCK, BLOCK_REQ, BLOCK_STALL_REQUEST. -/
def Obligations.MirrorAndPeerBlocks : Prop :=
  (∀ (p : PeerPort) (h : PeerHdr) (pos : BitVec 32) (payload : Bytes) (u s : State),
    PeerIn s p h 0x30 0 (leBytes 4 pos.toNat) payload u →
    let src := h.srcOrd.toNat
    let resync := h.flags.toNat.testBit 1
    let e := entryOf payload
    (if resync = true then mirrorFrom u = src ∨ mirrorFrom u = 255 else mirrorFrom u = src ∧ u.gang.refuseFrom ≠ some src) →
    payload.length = 64 → pos.toNat < jPositions → e.reservedOk = true →
    let v := if resync then modGang (modJournal (u.setNum 0xA000_06 src) fun j => { j with mirror := JPart.empty }) fun q =>
      { q with refuseFrom := none } else u
    exec (.journal p h pos payload) s = Next (sendToOr (modJournal v fun j =>
        let m := jPut j.mirror pos.toNat e
        let m := if e.kind = 10 then jDrop m ((List.range e.count).map fun i => (fieldAt e.payload 0 4 + i) % jPositions) else m
        { j with mirror := { m with head := (pos.toNat + 1) % jPositions } })
      src 0x31 0 0 (leBytes 4 pos.toNat ++ leBytes 1 0) [])) ∧
  (∀ (p : PeerPort) (h : PeerHdr) (pos : BitVec 32) (status : Byte) (u s : State),
    PeerIn s p h 0x31 0 (leBytes 4 pos.toNat ++ leBytes 1 status.toNat) [] u →
    h.srcOrd.toNat = buddy u → (u.gang.mirrorSent.any fun e => e.1 == pos.toNat) = true →
    (status.toNat = 0 → exec (.journalAck p h pos status) s = Next (mirrorHeld u pos.toNat)) ∧
    (status.toNat = 1 → exec (.journalAck p h pos status) s = Next (mirrorLost u 2))) ∧
  (∀ s : State, (∃ e ∈ s.gang.mirrorSent, s.num 0xA000_07 ≤ s.since e.2) → exec .mirrorTimeout s = Next (mirrorLost s 1)) ∧
  (∀ (p : PeerPort) (h : PeerHdr) (model : BitVec 32) (stage : Byte) (block copy : BitVec 32) (payload : Bytes) (u s : State),
    PeerFrameIn s p h 0x40 3 (leBytes 4 model.toNat ++ leBytes 1 stage.toNat ++ (h.rest ++ [0]).take 1 ++ leBytes 4 block.toNat)
      (leBytes 4 copy.toNat ++ payload) u → payload.length = 4096 → exec (.peerWeightBlock p h model stage block copy payload) s =
      Next (weightBlockIn u model.toNat stage.toNat copy.toNat block.toNat (some p.val) payload).2) ∧
  (∀ (p : PeerPort) (h : PeerHdr) (model : BitVec 32) (stage : Byte) (count : BitVec 16) (copy first : BitVec 32) (u s : State),
    PeerIn s p h 0x41 3 (leBytes 4 model.toNat ++ leBytes 1 stage.toNat ++ leBytes 2 count.toNat)
      (leBytes 4 copy.toNat ++ leBytes 4 first.toNat) u →
    let blks := (List.range count.toNat).map (first.toNat + ·)
    let data := writtenBlock u model.toNat stage.toNat copy.toNat
    let sent := (blks.filter fun k => data k != []).foldl (fun t k =>
      sendBlock (countBlock t model.toNat stage.toNat copy.toNat k) h.srcOrd.toNat model.toNat stage.toNat copy.toNat k
        (writtenBlock t model.toNat stage.toNat copy.toNat k)) u
    let rest := blks.filter fun k => data k == []
    let v := modGang sent fun q =>
      { q with owed := (q.owed ++ rest.map fun k => (h.srcOrd.toNat, model.toNat, stage.toNat, copy.toNat, k)).dedup }
    (upstreamOf v model.toNat stage.toNat copy.toNat = none → exec (.blockReq p h model stage count copy first) s = Next v) ∧
    (∀ up, upstreamOf v model.toNat stage.toNat copy.toNat = some up → exec (.blockReq p h model stage count copy first) s =
      Next ((runsOf rest).foldl (fun t r =>
        sendBlockReq t (neighbourOf v up) model.toNat stage.toNat copy.toNat r.1 r.2) v))) ∧
  (∀ (c : BitVec 12) (slot : Bool) (missing : List Nat) (up : Nat) (s : State),
    let x := (getCtx s c.toNat).slot slot
    (x.state = .building ∧ portOf x.source x.desc = some up ∧
        missing = (if x.total = 0 then (if blockAt x.blocks 0 = [] then [0] else [])
          else (List.range x.total).filter fun k => blockAt x.blocks k == []) ∨
      x.state ≠ .building ∧ x.repairPort = some up ∧ missing = x.repairing) →
    missing ≠ [] → frameTicks ≤ s.since x.gainAt → frameTicks ≤ s.since x.askedAt →
    exec (.blockStallRequest c slot) s =
      (let t := modSlot s c.toNat slot fun y => { y with askedAt := s.up }
       Next ((runsOf missing).foldl (fun u r => sendBlockReq u (neighbourOf t up) (getCtx s c.toNat).model (getCtx s c.toNat).stage
         x.copyId r.1 (min r.2 65535)) t)))

/-! ## Time -/

/-- References of the frame-time counter (R261 to R264, R409, R598): an edge within its limits gives an offset check against
the nearest frame start where its source is enabled, an edge outside them is counted as a glitch; two probes of one number
within 1 ms make a pair with the difference of their arrivals, each less its correction; a time frame of a valid pair on the port
in use gives a check and, where a set is armed in Configuring or Quiesced and the time state is not FAULT, sets the counter; without a check for 2000h.06 frames the time state
goes to HOLDOVER; a check outside the tolerance while SET is kept, and a second in succession loses the time.
Rows whose completion it states, under conditions on state and operands alone: TIME, PROBE, FRAME_IN_EDGE, PPS_IN_EDGE,
TIME_HOLDOVER. -/
def Obligations.TimeReferences : Prop :=
  (∀ (frac : BitVec 16) (s : State), (∀ t, s.frameInAt = some t → 307200 ≤ s.up - t) →
    let u : State := { s with frameInAt := some s.up }
    exec (.frameInEdge frac true) s = (if (s.num 0x2000_01).testBit 0 then Next (edgeCheck u frac.toNat) else Next u) ∧
    exec (.frameInEdge frac false) s = Next (u.inc 0x8600_05)) ∧
  (∀ (frac : BitVec 16) (s : State),
    exec (.ppsInEdge frac true) s = (if (s.num 0x2000_01).testBit 1 then Next (edgeCheck s frac.toNat) else Next s) ∧
    exec (.ppsInEdge frac false) s = Next (s.inc 0x8600_06)) ∧
  (∀ (s : State) (offset : Int), s.num 0x2000_03 = 1 →
    let u : State := { (s.setNum 0x2000_04 (fineNs offset)).inc 0x2000_09 with checkAt := s.up }
    (offset.natAbs ≤ s.num 0x2000_05 * 51200000000 → timeCheck s offset = { u with outside := none }) ∧
    (s.num 0x2000_05 * 51200000000 < offset.natAbs →
      (s.outside = none → timeCheck s offset = { u with outside := some (fineNs offset) }) ∧
      (∀ b, s.outside = some b → timeCheck s offset =
        ({ u with outside := none }.setNum 0x2000_03 3).raise 0x2013 0xFF (leBytes 4 b ++ leBytes 4 (fineNs offset))))) ∧
  (∀ (payload : Bytes) (frac : BitVec 16) (t1 : ProbeSeen) (s : State), timePayloadOk true payload = true →
    s.ring.probes[1] = some t1 → t1.id = fieldAt payload 16 2 →
    let came : Int := s.up * finePerTick + frac.toNat * fineFrac
    let t0 : Int := came - fieldAt payload 20 4 * finePs
    (t1.came - came).natAbs ≤ 1000000000 * 1572864 →
    exec (.probe 0 payload frac) s = Next ({ heard s with ring := { (heard s).ring with
        probes := s.ring.probes.set 0 (some { id := fieldAt payload 16 2, came := came, at_ := t0 }),
        pairs := (s.ring.pairs.filter fun (p : Nat × Int) => p.1 != fieldAt payload 16 2)
          ++ [(fieldAt payload 16 2, t1.at_ - t0)] } }.inc 0x1120_06)) ∧
  (∀ (dir : Fin 2) (wrapped : Bool) (payload : Bytes) (frac : BitVec 16) (s : State),
    (timePayloadOk false payload = false ∨ stampTicks (fieldAt payload 0 8) = none →
      exec (.time dir wrapped payload frac) s = Next ((heard s).inc 0x1100_0E)) ∧
    (timePayloadOk true payload = false → exec (.probe dir payload frac) s = Next ((heard s).inc 0x1100_0E)) ∧
    (timePayloadOk false payload = true → (wrapped = true ∨ ∀ q ∈ s.ring.pairs, q.1 ≠ fieldAt payload 16 2) → stampTicks (fieldAt payload 0 8) ≠ none →
      exec (.time dir wrapped payload frac) s = Next (heard s))) ∧
  (∀ (dir : Fin 2) (payload : Bytes) (frac : BitVec 16) (d : Int) (t : Nat) (s : State), timePayloadOk false payload = true →
    s.ring.pairs.find? (fun p => p.1 == fieldAt payload 16 2) = some (fieldAt payload 16 2, d) → stampTicks (fieldAt payload 0 8) = some t → fieldAt payload 12 4 ≠ 0 →
    arrivalPort dir = timePort s →
    let l : Int := fieldAt payload 12 4
    let a0 := (l * finePs - d) / 2
    let a1 := l * finePs - a0
    let u := (((((heard s).setNum 0x1120_01 (fineNs a0)).setNum 0x1120_02 (fineNs a1)).setNum 0x1120_03
      (fineNs (l * finePs))).setNum 0x1120_04 (fieldAt payload 16 2)).setNum 0x1120_05 1
    let ref : Int := t * finePerTick + fieldAt payload 8 2 * fineFrac + (if dir = 0 then a0 else a1)
      + fieldAt payload 20 4 * finePs
    let v := timeCheck u (offsetOf u ref (frac.toNat * fineFrac))
    exec (.time dir false payload frac) s =
      if v.setArmed ∧ v.num 0x2000_03 ≠ 3 ∧ (v.node = .configuring ∨ v.node = .quiesced) then
        Next (setCounter v (fineTicks (ref - frac.toNat * fineFrac) % stampPeriod).toNat)
      else Next v) ∧
  (∀ s : State, s.num 0x2000_03 = 1 → s.num 0x2000_06 * 307200 ≤ s.since s.checkAt →
    exec .timeHoldover s = Next ((s.setNum 0x2000_03 2).raise 0x2011 0xFF []))

/-- A frame start (R258, R305, R485): with REFCLK, at tick 0 of a frame, the held channels, the supervision of power, temperature
and light, the reclaiming of idle sessions and the SENT entries, each in place of the one before it, take their turn, in this order.
Rows whose completion it states, under conditions on state and operands alone: FRAME_START. -/
def Obligations.FrameStartWork : Prop :=
  ∀ s : State, s.refclk = true → s.now % 307200 = 0 → s.sysUp = true →
    exec .frameStart s = Next (writeSent (reclaimSessions (headroomFrame (sourceFrame (heldFrame
      (throttleFrame (slotCapFrame (notePower (crossCheck (heldRoles s)))))))))) ∧
    (∀ t : State, t.requests = [] → writeSent t = settleAll t) ∧
    (∀ (t : State) (r : Request), t.requests = [r] → r.acked.isSome = true → r.sentAcked = false →
      let e := mkEntry 6 0 0 r.jsn (leBytes 4 (r.acked.getD 0))
      writeSent t = settleAll (modRequest (jFree (jNote t [e]) fun q => q.kind == 6 && ofRecord r.jsn q && q != e) r.jsn fun q =>
        { q with sentAcked := true })) ∧
    (∀ (t : State) (x : Session), t.sessions = [x] → x.state ≠ .active → t.num 0x6000_02 * 307200 ≤ t.since x.lastAt →
      reclaimSessions t = (freeSession t x).inc 0x6010_06)

/-! ## Tasks, batches and builds -/

/-- Tasks (R243, R277, R278, R478): in Serving the control cores admit fill work that R278 passes on the engines in service and that
reads no damaged block of its copy, and the task of the next request in order; a refused fill task is counted under its cause; TASK_ABORT aborts a task and deals with its request as the
cause's rule says.
Rows whose completion it states, under conditions on state and operands alone: TASK_ADMISSION, TASK_ABORT. -/
def Obligations.TasksAdmittedAndAborted : Prop :=
  (∀ (g : TaskGraph) (s : State), s.node = .serving → s.quiesce = 0 → findTask s g.task = none →
    findRequest s g.jsn = none → g.cls = .fill →
    let bad := needsDamaged s g (((getCtx s g.context).currentCopy).getD 0)
    (bad = true → exec (.taskAdmission g) s = Next s) ∧
    (∀ p, bad = false → judgeTask s (graphOn s g) .fill 0 = .plan p →
      exec (.taskAdmission g) s = Next (admitTask s (graphOn s g) .fill 0 p none (myOrdinal s))) ∧
    (∀ cause retry, bad = false → judgeTask s (graphOn s g) .fill 0 = .refused cause retry →
      exec (.taskAdmission g) s = Next (countRefusal s cause))) ∧
  (∀ (g : TaskGraph) (r : Request) (s : State), s.node = .serving → s.quiesce = 0 → findTask s g.task = none →
    findRequest s g.jsn = some r → nextRequest s = some r →
    exec (.taskAdmission g) s = Next (rearmBusy (admitRequest s r g))) ∧
  (∀ (g : TaskGraph) (cls : Cls) (bound : Nat) (s : State),
    (cls = .slot → s.num 0x2000_03 = 3 → judgeTask s g cls bound = .refused 7 0) ∧
    (s.num 0x2000_03 ≠ 3 → 2 ^ 24 < g.kLanes → judgeTask s g cls bound = .refused 2 0) ∧
    (s.num 0x2000_03 ≠ 3 → g.bothI8 = true → 2 ^ 23 < g.kLanes → judgeTask s g cls bound = .refused 2 0)) ∧
  (∀ (task : BitVec 16) (c : AbortCause) (s : State), c ≠ .gang →
    exec (.taskAbort task c) s = Next (settleAllFacets (abortTask s task.toNat (abortAfter c) 256)))

/-- Batches, tokens, repairs and builds (R199, R200, R204 to R213, R298, R302): the first batch of a context after its switch
is due reaches the mitre point and is bound to the CURRENT copy, whose batch count rises and falls with BATCH_END; a token
that the operations of its step have sampled is recorded before its frame is sent, and the last one completes the request; requests that have waited
for a damaged block too long end with COPY_DAMAGED; a verified build is COMPLETE, a stalled one STOPPED.
Rows whose completion it states, under conditions on state and operands alone: BUILD_VERIFY_COMPLETE, BUILD_STALL,
REPAIR_TIMEOUT, BATCH_ISSUE, BATCH_END, TOKEN_RELEASE. -/
def Obligations.BatchesTokensAndBuilds : Prop :=
  (∀ (c : BitVec 12) (batch : Nat) (t : Task) (b : Bool) (s : State), (getCtx s c.toNat).state ≠ .unregistered →
    s.batches = [] → findTask s t.num = some t → t.context = c.toNat → t.gang = none → findRequest s t.jsn = none →
    (getCtx s c.toNat).pendingTo = none →
    let copy := ((getCtx s c.toNat).currentCopy).getD 0
    (getCtx s c.toNat).holding copy = some b →
    exec (.batchIssue c batch [t.num]) s =
      (let u := modSlot s c.toNat b fun x => { x with batches := x.batches + 1 }
       Next (settleAll (sendBatches (modTask { u with
         batches := [{ num := batch, context := c.toNat, copy := copy, tasks := [t.num] }] }
         t.num fun q => { q with copy := copy }) t copy)))) ∧
  (∀ (batch : Nat) (x : Batch) (k : Bool) (s : State), s.batches = [x] → x.num = batch → x.tasks = [] →
    (getCtx s x.context).holding x.copy = some k →
    exec (.batchEnd batch) s = Next (settleCtx (modSlot { s with batches := [] } x.context k fun y =>
      { y with batches := y.batches - 1 }) x.context)) ∧
  (∀ (jsn : Nat) (token : BitVec 32) (inexact : Bool) (r : Request) (b : Batch) (t : Task) (s : State),
    findRequest s jsn = some r → r.jsn = jsn → r.service = 1 → r.phase = .running → s.batches = [b] → b.tasks = [t.num] →
    s.tasks = [t] → t.jsn = jsn → r.replayed = none → mramHeld s = false →
    (∀ x ∈ s.facets.toList, ∀ d ∈ x.drains, d.task ≠ t.num) →
    sampledAs r (seedFor s r) r.tokens.length token.toNat 0 1 true t.sampled = true →
    let k := r.tokens.length
    let i := inexact || t.inexact
    let u := modRequest ((jNote s [mkEntry 3 0 1 jsn (leBytes 4 k ++ leBytes 4 token.toNat)]).inc 0x6010_05) jsn fun q =>
      { q with tokens := q.tokens ++ [token.toNat], replayed := none }
    let stop := stopReason r token.toNat (k + 1)
    let sent := tokenFrame u r k token.toNat stop i
    exec (.tokenRelease jsn token inexact) s =
      if stop = 0 then Next (settleAll (modRequest (awaitAdmission sent jsn fun q => { q with targetBase := sent.now }) jsn fun q =>
          { q with wasReplayed := false, rebased := false }))
      else Next (complete u { r with tokens := r.tokens ++ [token.toNat] } 1 fun v => tokenFrame v r k token.toNat stop i)) ∧
  (∀ (jsn : Nat) (token : BitVec 32) (inexact : Bool) (s : State), stepOf s jsn = none →
    exec (.tokenRelease jsn token inexact) s = Next s) ∧
  (∀ (c : BitVec 12) (slot : Bool) (r : Request) (a : Nat) (s : State), ((getCtx s c.toNat).slot slot).damaged ≠ [] →
    s.requests = [r] → r.context = c.toNat → r.damagedAt = some a → s.num 0x5000_05 * 307200 ≤ s.since a →
    exec (.repairTimeout c slot) s = Next (endRequest s r.jsn 13 0 0 0)) ∧
  (∀ (c : BitVec 12) (slot : Bool) (s : State),
    let x := (getCtx s c.toNat).slot slot
    (x.state = .verifying → verifyCopy s c.toNat x (fun _ _ => true) = 0 →
      ((getCtx s c.toNat).model, (getCtx s c.toNat).stage, x.copyId) ∉ s.needed →
      exec (.buildVerifyComplete c slot) s = Next (settleCtx (pruneNeeded ((modSlot s c.toNat slot fun y =>
        { y with state := .complete }).raise 0x5011 0xFF (ctxData c.toNat slot x.copyId))) c.toNat)) ∧
    (∀ cause, x.state = .verifying → verifyCopy s c.toNat x (fun _ _ => true) = cause + 1 →
      exec (.buildVerifyComplete c slot) s = Next (clearSlot (buildFailed s c.toNat slot (cause + 1)) c.toNat slot)) ∧
    (x.state = .building → s.num 0x5000_06 * 307200 ≤ s.since x.gainAt →
      exec (.buildStall c slot) s = Next (modSlot (buildFailed s c.toNat slot 4) c.toNat slot fun y =>
        { y with state := .stopped })))

/-! ## Streams -/

/-- Jigs and streams (R226 to R235, R245, R246): JIG_START of a well-formed jig writes its entries and starts it, of one that
is not raises its fault; an emission past the end ends the jig, one outside its memory, or of the remote fetch engine outside the windows granted (R577; log
entry 145), faults, any other loads or stores at its address, and an index of its gather list that cannot be corrected aborts its
task (R365); ready buffers are pushed in order; the head that the control cores consume is released; a producer that has
starved may use its escape reserve; a watched task without progress has a due grant made first (R247), else the youngest of its
set aborted for replay.
Rows whose completion it states, under conditions on state and operands alone: JIG_START, JIG_EMISSION,
PLANE_CONVERT_COMPLETE, HANDLE_PUSH, BUFFER_RELEASE, ESCAPE_GRANT, STALL_ABORT. -/
def Obligations.JigsPushesAndStalls : Prop :=
  (∀ (e : Fin 9) (jig : BitVec 8) (eic : PairId) (st : BitVec 10) (entries : List (BitVec 64)) (what : JigData) (x : Stream)
      (s : State), findStream s eic.val st.toNat = some x → s.jigs = [] →
    let es := entries.map fun i => i.toNat
    let u : State := { s with jigTable := sparsePut (fun _ => []) s.jigTable (e.val * 256 + jig.toNat) (es.take 16) }
    (jigBad e.val es = none → exec (.jigStart e jig eic st entries what) s = Next (touch { modStream u eic.val st.toNat (bindReceiver (jigShape es)) with jigs := [
      { engine := e.val, jig := jig.toNat, eic := eic.val, stream := st.toNat, entries := es, next := 0,
        tag := bitsOf (jigShape es).ender 53 46, emitted := 0, openBuf := none, data := [], converting := false, what := what,
        reading := 0, got := [], hold := none, skip := 0, ended := false, catchup := false,
        firstSerial := x.nextSerial }] } x.desc.task)) ∧
    (∀ i, jigBad e.val es = some i → exec (.jigStart e jig eic st entries what) s =
      Next (jigFault u eic.val e.val jig.toNat st.toNat x.desc.task i 0))) ∧
  (∀ (e : Fin 9) (jig : BitVec 8) (errs : List (Nat × ReadOutcome)) (j : JigRun) (s : State), s.jigs = [j] → j.engine = e.val →
    j.jig = jig.toNat → j.ended = false → j.catchup = false → j.converting = false → j.reading = 0 →
    jigBad j.engine j.entries = none → s.power.dips = [] →
    let sh := jigShape j.entries
    let fault := fun (i a : Nat) => jigFault s j.eic j.engine j.jig j.stream (jigTask s j) i a
    (sh.total ≤ j.next → exec (.jigEmission e jig errs) s = Next (endJig s j.eic j.stream sh.total)) ∧
    (∀ i a, j.next < sh.total → jigAddr s sh (jigLimit s j sh) j.next = .error (i, a) →
      exec (.jigEmission e jig errs) s = Next (fault i a)) ∧
    (∀ a, j.next < sh.total → jigAddr s sh (jigLimit s j sh) j.next = .ok a →
      (∀ i b, windowFault s j sh a = some (i, b) → exec (.jigEmission e jig errs) s = Next (fault i b)) ∧
      (windowFault s j sh a = none → jigReady s j = false →
        exec (.jigEmission e jig errs) s = Next (if sh.store then s else loadEmission s j sh a errs)) ∧
      (windowFault s j sh a = none → jigReady s j = true →
        exec (.jigEmission e jig errs) s = Next (match checkRanges .hbm sh.stack (gatherWord sh j.next) (countGather s j.engine sh) with
          | (u, none) => if sh.store then storeEmission u j sh a else loadEmission u j sh a errs
          | (u, some b) => abortTask (noteHbmBad u sh.stack b 3 (jigTask u j) 1 (contextOf u (jigTask u j))) (jigTask u j) .replay 256)))) ∧
  (∀ (n : PairId) (c : ConvertJob) (rest : List ConvertJob) (j : JigRun) (s : State), s.converts[n.val] = c :: rest →
    c.made = true → (s.jigs.find? fun j => j.eic == c.eic && j.stream == c.stream && !j.ended) = some j →
    exec (.planeConvertComplete n) s =
      (let r := pushRecords s c.eic c.stream (jigShape j.entries) c.records
       Next (endJig (endConvert r.1 c r.2) c.eic c.stream (jigShape j.entries).total))) ∧
  (∀ (n : PairId) (st : BitVec 10) (s : State), (findStream s n.val st.toNat = none → exec (.handlePush n st) s = Next s) ∧
    (∀ x, findStream s n.val st.toNat = some x → exec (.handlePush n st) s =
      Next (if x.desc.producer = 0x49 ∧ x.ready.isEmpty = true then coreBiscuit s n.val st.toNat
        else pushAll s n.val st.toNat 64))) ∧
  (∀ (f : FacetId) (q : Fin 32) (x : Stream) (i : QItem) (s : State), coreStream (finishRuns s f.val) f.val q.val = some (x, i) →
    exec (.bufferRelease f q) s = Next (releaseBuf (popQueue (finishRuns s f.val) f.val q.val) x.desc.eic x.desc.stream i.buf
      (receiverAt x f.val q.val))) ∧
  (∀ (n : PairId) (st : BitVec 10) (x : Stream) (t : Nat) (s : State), findStream s n.val st.toNat = some x →
    x.desc.eic = n.val → x.desc.stream = st.toNat → x.starvedAt = some t → s.num 0x4100_05 ≤ s.since t → x.desc.escape = true → x.granted = false → x.desc.poolBlocks ≤ x.held →
    exec (.escapeGrant n st) s = Next (touch ((modStream s n.val st.toNat fun x => { x with granted := true }).inc
      (fam 0x4200_07 n.val)) x.desc.task)) ∧
  (∀ (task : BitVec 16) (t v : Task) (x : Stream) (s : State), findTask s task.toNat = some t → s.streams = [x] →
    x.desc.task = task.toNat → watched s task.toNat = true → s.num 0x4100_04 ≤ s.since t.progressAt →
    (grantDue s x = true → exec (.stallAbort task) s = Next (grantEscape s x)) ∧
    (grantDue s x = false →
    youngest s (task.toNat :: blockers s x) = some v →
    exec (.stallAbort task) s = Next (touch (abortTask ((s.inc (fam 0x4200_06 x.desc.eic)).raise 0x4040 x.desc.eic
      (leBytes 1 x.desc.producer ++ leBytes 2 task.toNat ++ leBytes 2 x.desc.stream ++ leBytes 2 v.num)) v.num .replay 256)
      task.toNat)))

/-- The memory and the objects of a state are in their canonical form. -/
def Canonical (s : State) : Prop := Memory.wf s.mem = true ∧ sparseWf dfltOf s.objs = true

/-! ## Light, locking and calibration -/

/-- The input after a trip: counted, told with its feed and cause, TRIPPED, its amplifiers follow (R333). -/
abbrev Tripped (s : State) (i : Fin 2) (feed cause : Nat) : State :=
  settleLight (setInput ((s.inc 0x7000_0A).raise 0x7011 0xFF (leBytes 1 i.val ++ leBytes 1 feed ++ leBytes 1 cause)) i .tripped)

/-- Light inputs (R326 to R334): an open interlock, returned power and a feed above 85 mW trip an input whose light-enable line
is asserted, with causes 1, 2 and 3, the returned power where it rises by more than RETURN_JUMP or exceeds -14 dB of the feed; a
loop closed for 1 s takes an OPEN input to WAITING, but not in Safe; eight valid feeds make it READY, a weak one LOW; a path that
cannot reach its set point gives its bus up and the headroom is noted for a path on, which one is free (log entry 4).
Rows whose completion it states, under conditions on state and operands alone: INTERLOCK_OPEN, INTERLOCK_CLOSED,
RETURN_POWER_TRIP, FEED_OVER_POWER, FEED_VALID, FEED_LOW, SOURCE_FAILOVER. -/
def Obligations.LightInputs : Prop :=
  (∀ (i : Fin 2) (s : State),
    let u := modInput s i fun x => { x with closed := false }
    let v := modInput s i fun x => { x with closed := true }
    (lightEnable s i = true → exec (.interlockOpen i) s = Next (Tripped u i 0xFF 1)) ∧
    (lightEnable s i = false → exec (.interlockOpen i) s = Next u) ∧
    ((inputOf s i).state = .opened → s.node ≠ .safe → exec (.interlockClosed i) s = Next (setInput v i .waiting)) ∧
    ((inputOf s i).state ≠ .opened ∨ s.node = .safe → exec (.interlockClosed i) s = Next v)) ∧
  (∀ (i : Fin 2) (feed : Fin 8) (x rise : BitVec 32) (s : State),
    let u := noteMax s 0x7000_05 x.toNat
    let above := flt (s.num 0x7000_07) rise.toNat = true ∨ flt 0xC1600000 x.toNat = true
    (above → lightEnable s i = true → exec (.returnPowerTrip i feed ⟨x, rise⟩) s = Next (Tripped u i feed.val 2)) ∧
    (¬above ∨ lightEnable s i = false → exec (.returnPowerTrip i feed ⟨x, rise⟩) s = Next u)) ∧
  (∀ (i : Fin 2) (feed : Fin 8) (x : BitVec 32) (s : State),
    (lightEnable s i = true → isNan x.toNat = false → fle x.toNat 0x42AA0000 = false →
      exec (.feedOverPower i feed x) s = Next (Tripped (setFeed s i feed x.toNat) i feed.val 3)) ∧
    (fle x.toNat 0x42AA0000 = true → exec (.feedOverPower i feed x) s = Next (setFeed s i feed x.toNat)) ∧
    ((inputOf s i).state = .ready ∨ (inputOf s i).state = .low → fle (s.num 0x7000_06) x.toNat = false →
      exec (.feedLow i feed x) s = Next (settleLight (setInput (modInput (setFeed s i feed x.toNat) i fun y =>
        { y with weak := withBit y.weak feed.val true }) i .low))) ∧
    ((inputOf s i).state ≠ .ready → (inputOf s i).state ≠ .low → exec (.feedLow i feed x) s = Next (setFeed s i feed x.toNat))) ∧
  (∀ (i : Fin 2) (mw : Vector (BitVec 32) 8) (s : State),
    let u := setFeeds s i ((List.finRange 8).map fun n => (n.val, mw[n].toNat))
    (inputOf u i).state = .waiting ∨ (inputOf u i).state = .low →
    (∀ p ∈ mw.toList, isNan p.toNat = false ∧ fle (u.num 0x7000_06) p.toNat = true ∧ fle p.toNat 0x42A00000 = true) →
    exec (.feedValid i mw) s = Next (settleLight (setInput (modInput u i fun x => { x with weak := 0 }) i .ready))) ∧
  (∀ (bus : Fin 64) (db : BitVec 32) (s : State),
    let a := sourceIn (s.num 0x7010_02) bus.val
    (s.light.amps[a].testBit bus.val = true →
      let u := settleLight (modLight s fun l => { l with dead := withBit l.dead (64 * a.val + bus.val) true })
      let d := u.drawNat (pathsOn u).length
      (pathsOn u = [] → exec (.sourceFailover bus db) s = Next u) ∧
      (pathsOn u ≠ [] → exec (.sourceFailover bus db) s = Next (noteHeadroom d.2 ((pathsOn u).getD d.1 0) db.toNat))) ∧
    (s.light.amps[a].testBit bus.val = false → exec (.sourceFailover bus db) s = Next s))

/-- Loss of lock, identity and relocks (R336, R340 to R346): a closed loop with two successive errors beyond LOCK_LIMIT, or with a
heater code at an end of its range, loses its lock and holds its code, and the facet relocks where its row carries a logical
row; a ring whose own tone is the only one near it is confirmed with the code at which it captured, one without its own tone
is unidentified and goes to recovery at mid-scale; a relock ends well only within its time, at most two recovery rounds and a
clean row check, and tells the rings that it recovered; one with one or two mismatching rows is repeated, else it fails at the
step named; the check after a calibration in place has its own end (R354). A check's codes that are not listed are the
reference's (log entry 137); which step a late relock was in is free.
Rows whose completion it states, under conditions on state and operands alone: LOSS_OF_LOCK, IDENTITY_SCAN, RELOCK_COMPLETE,
ROW_CHECK_COMPLETE. -/
def Obligations.LocksAndRelocks : Prop :=
  (∀ (f : FacetId) (row : Fin 520) (lane : Fin 128) (e0 e1 code : BitVec 10) (s : State),
    let x := facetN s f.val
    let l := ringLoop x row.val lane.val
    let lost := s.num 0x7020_03 < e0.toNat ∧ s.num 0x7020_03 < e1.toNat ∨ code.toNat = 0 ∨ code.toNat = 1023
    (x.degraded = false → l.loop = 2 ∨ l.loop = 4 → lost →
      let t := modFacet (setOut s (ringKey f.val row.val lane.val) code.toNat) f.val fun x =>
        setRing x row.val lane.val { l with loop := 3, ident := 0, line := 0, rounds := 0 }
      exec (.lossOfLock f (row, lane) ⟨e0, e1, code⟩) s = Next (if carries x row.val then startRelock t f.val 1 true else t)) ∧
    (¬lost → exec (.lossOfLock f (row, lane) ⟨e0, e1, code⟩) s = Next s)) ∧
  (∀ (f : FacetId) (row : Fin 520) (lane : Fin 128) (levels : List (Fin 64 × Int)) (code : BitVec 10) (s : State),
    let x := facetN s f.val
    let l := ringLoop x row.val lane.val
    let own := lane.val % 64
    x.degraded = false → x.lock = .locked → x.dipping = false →
    (l.loop = 2 → code.toNat ≠ 0 → code.toNat ≠ 1023 → identify own levels = .confirmed →
      exec (.identityScan f row lane ⟨levels, code⟩) s =
        Next (modFacet (setOut s (ringKey f.val row.val lane.val) code.toNat) f.val fun x =>
          setRing x row.val lane.val { l with loop := 2, ident := 1, rounds := 0 })) ∧
    (l.loop = 2 → l.rounds = 0 → (∀ e ∈ levels, e.1.val ≠ own) →
      let t := modFacet (setOut (((s.inc (fam 0x7100_07 f.val)).raise 0x7014 f.val
          (leBytes 2 row.val ++ leBytes 1 lane.val ++ leBytes 1 0xFF))) (ringKey f.val row.val lane.val) 512) f.val fun x =>
        setRing x row.val lane.val { l with loop := 4, ident := 3, line := 63, rounds := 1 }
      exec (.identityScan f row lane ⟨levels, code⟩) s = Next (if carries x row.val then stopFacet t f.val else t)) ∧
    (∀ (k : Fin 64) (v : Int), k.val = own → identify own [(k, v)] = .confirmed)) ∧
  (∀ (f : FacetId) (micros rounds : Nat) (acquired : List (Fin 520 × Fin 128 × BitVec 10))
      (recovered : List (Fin 520 × Fin 128 × Option (Fin 64))) (k : Relock) (s : State),
    let x := facetN s f.val
    let u := recovered.foldl (fun s r => (s.inc (fam 0x7100_07 f.val)).raise 0x7014 f.val
      (leBytes 2 r.1.val ++ leBytes 1 r.2.1.val ++ leBytes 1 ((r.2.2.map Fin.val).getD 0xFF))) s
    x.optic.relock = some k → x.degraded = false → x.lock ≠ .dark → x.lock ≠ .starting → x.dipping = false →
    (2 < rounds → exec (.relockComplete f micros rounds ⟨acquired, recovered⟩) s = Next (relockFailed u f.val 5)) ∧
    (rounds ≤ 2 → s.num 0x7020_05 + 92 * rounds < micros → exec (.relockComplete f micros rounds ⟨acquired, recovered⟩) s =
      Next (relockFailed (u.drawNat 6).2 f.val ((u.drawNat 6).1 + 2))) ∧
    (rounds ≤ 2 → micros ≤ s.num 0x7020_05 + 92 * rounds → k.checked = true →
      (∀ a ∈ acquired, a.2.2.toNat ≠ 0 ∧ a.2.2.toNat ≠ 1023) →
      exec (.relockComplete f micros rounds ⟨acquired, recovered⟩) s =
        (let t := acquired.foldl (fun s a => setOut s (ringKey f.val a.1.val a.2.1.val) a.2.2.toNat) u
         let t := ((t.inc (fam 0x7100_03 f.val)).setNum (fam 0x7100_04 f.val) micros).raise 0x7015 f.val
          (leBytes 1 k.triggers ++ leBytes 4 micros)
         Next (settleAllFacets (chargeFacet (lockFacet t f.val) f.val 0 (ceilDiv (micros * 3072) 100))))) ∧
    (rounds ≤ 2 → micros ≤ s.num 0x7020_05 + 92 * rounds → k.checked = true →
      (∃ a ∈ acquired, a.2.2.toNat = 0 ∨ a.2.2.toNat = 1023) →
      exec (.relockComplete f micros rounds ⟨acquired, recovered⟩) s = Next (loseEnds (takeCodes u f.val acquired) f.val acquired)) ∧
    (rounds ≤ 2 → micros ≤ s.num 0x7020_05 + 92 * rounds → k.checked = false →
      exec (.relockComplete f micros rounds ⟨acquired, recovered⟩) s = Next s)) ∧
  (∀ (f : FacetId) (codes : List (Fin 12 × Fin 516 × Int)) (k : Relock) (s : State),
    let x := facetN s f.val
    let rows := checkFails x codes
    x.optic.relock = some k → x.degraded = false → x.lock ≠ .dark → x.lock ≠ .starting → x.dipping = false →
    (rows = [] → exec (.rowCheckComplete f codes) s = Next (modFacet s f.val fun x =>
      { x with lock := if x.lock = .held then x.lock else .checking,
               optic := { x.optic with relock := some { k with checked := true } } })) ∧
    (rows ≠ [] → rows.length ≤ 2 → rows.length ≤ freeSpares x → k.checkRepeated = false →
      exec (.rowCheckComplete f codes) s = Next (modFacet (retireRows s f.val rows) f.val fun y =>
        { y with lock := if y.lock = .held then y.lock else .checking,
                 optic := { y.optic with relock := some { k with checkRepeated := true, checked := false } } })) ∧
    (2 < rows.length ∨ (rows ≠ [] ∧ (freeSpares x < rows.length ∨ k.checkRepeated = true)) →
      exec (.rowCheckComplete f codes) s = Next (relockFailed s f.val 7))) ∧
  (∀ (x : Facet) (codes : List (Fin 12 × Fin 516 × Int)) (p : Nat), p ∈ checkFails x codes ↔
    ∃ c ∈ codes, c.2.2 ≠ checkCode c.1.val c.2.1.val ∧ carrier x c.2.1.val = some p) ∧
  (∀ (f : FacetId) (codes : List (Fin 12 × Fin 516 × Int)) (s : State),
    let x := facetN s f.val
    x.optic.relock = none → x.optic.inPlace = true → x.optic.cal = none → x.lock = .locked → x.degraded = false →
    x.dipping = false → exec (.rowCheckComplete f codes) s = Next (settleAllFacets (inPlaceCheck s f.val codes)))

/-- Calibration and the region heaters (R338, R348 to R354): a region that departs beyond THERMAL_TOL with its heater inside its
range stops the facet's passes and starts a relock with trigger 2; a saturated heater is told at code 0; a facet that starts up
locks after calibration and check, and a step that fails is told with its number; rolling calibration takes
the next row under the lowest idle spare, pauses without one, passes or fails as the completion says, and is overdue at one and
a half times where it is paused, in place at twice CAL_INTERVAL (R75).
Rows whose completion it states, under conditions on state and operands alone: THERMAL_STOP, REGION_SATURATED,
STARTUP_CALIBRATION, ROLLING_CAL_START, STAND_IN_RELOAD, CALIBRATION_COMPLETE, CAL_OVERDUE. -/
def Obligations.CalibrationAndHeaters : Prop :=
  (∀ (f : FacetId) (r : Fin 16) (c : BitVec 32) (s : State),
    let u := setRegion s f.val r.val c.toNat
    let x := facetN u f.val
    let dep := sub32 c.toNat (u.num 0x7020_02)
    let code := outTarget u (heaterKey f.val r.val)
    (x.degraded = false → x.lock ≠ .dark → x.lock ≠ .starting → u.node ≠ .safe → isNan c.toNat = false →
      fle (abs32 dep) (u.num 0x7020_04) = false → code ≠ 0 → code ≠ 16383 →
      exec (.thermalStop f r c) s = Next (startRelock ((List.range 16).foldl (fun s k => freeHeater s (heaterKey f.val k))
        ((u.inc (fam 0x7100_06 f.val)).raise 0x7017 f.val (leBytes 1 r.val ++ leBytes 4 dep))) f.val 2 false)) ∧
    (fle (abs32 dep) (u.num 0x7020_04) = true → exec (.thermalStop f r c) s = Next u) ∧
    exec (.regionSaturated f r) s = Next ((connectOut s (heaterKey f.val r.val) 0).raise 0x7018 f.val (leBytes 1 r.val))) ∧
  (∀ (f : FacetId) (failed : Option (Fin 2)) (rows : List (Fin 520)) (heaters : List (Fin 520 × Fin 128 × BitVec 10))
      (codes : List (Fin 12 × Fin 516 × Int)) (k : Relock) (s : State),
    let x := facetN s f.val
    x.optic.relock = some k → x.degraded = false → x.lock = .starting → x.dipping = false → k.checkRepeated = false →
    s.node = .configuring → facetLit s f.val = true → facetPowered s f.val = true → s.power.lost.testBit f.val = false →
    let v := takeCodes s f.val heaters
    let ended := fun (s : State) (step : Nat) =>
      modFacet ((s.inc (fam 0x7100_0A f.val)).raise 0x7019 f.val (leBytes 2 0x3FF ++ leBytes 1 step)) f.val fun x =>
        { x with optic := { x.optic with relock := none } }
    (∀ n, failed = some n → exec (.startupCalibration f failed ⟨rows, heaters, codes⟩) s = Next (ended v (n.val + 1))) ∧
    (failed = none → (∀ a ∈ heaters, a.2.2.toNat ≠ 0 ∧ a.2.2.toNat ≠ 1023) →
      let u := calibrated (retireRows (modFacet v f.val fun x => allLoops x 2 1) f.val (rows.map Fin.val)) f.val
      ((facetN u f.val).degraded = true → exec (.startupCalibration f failed ⟨rows, heaters, codes⟩) s = Next (ended u 3)) ∧
      ((facetN u f.val).degraded = false → checkFails (facetN u f.val) codes = [] →
        exec (.startupCalibration f failed ⟨rows, heaters, codes⟩) s =
          (let d := (u.setFacets (withBit (u.num 0x0020_01) f.val true)).drawNat 50001
           Next (relockDone d.2 f.val d.1 k.triggers))) ∧
      ((facetN u f.val).degraded = false → 2 < (checkFails (facetN u f.val) codes).length →
        exec (.startupCalibration f failed ⟨rows, heaters, codes⟩) s = Next (ended u 4)))) ∧
  (∀ (f : FacetId) (p : Nat) (s : State),
    let x := facetN s f.val
    x.degraded = false → x.lock = .locked → x.dipping = false → x.swapping = false → x.optic.cal = none →
    s.num 0x7020_01 * 30720000 / max (calRows x).length 1 ≤ s.since x.optic.calStart →
    nextInCycle (calRows x) x.optic.calLast = some p →
    (516 ≤ (rowAt x p).logical → exec (.rollingCalStart f) s = Next (calStart s f.val p none)) ∧
    (∀ q, (rowAt x p).logical < 516 → lowestIdle x = some q → exec (.rollingCalStart f) s =
      Next (calStart (modFacet s f.val fun y => { y with optic := { y.optic with calPaused := false } }) f.val p (some q))) ∧
    ((rowAt x p).logical < 516 → lowestIdle x = none → x.optic.calPaused = false →
      (∀ q ∈ calRows x, (rowAt x q).role ≠ .unfit) → exec (.rollingCalStart f) s =
      Next ((modFacet s f.val fun y => { y with optic := { y.optic with calPaused := true } }).raise 0x701A f.val []))) ∧
  (∀ (f : FacetId) (c : CalRun) (s : State),
    let x := facetN s f.val
    x.optic.cal = some c → c.pending = true → 307200 ≤ s.since c.since → seqIdle s f.val = true → x.shadow = none →
    passesRun x = true → x.swapping = false →
    exec (.standInReload f) s =
      Next (settleRuns ((modFacet s f.val fun x => calReach (calArm x)).inc (fam 0x3700_03 f.val)) f.val)) ∧
  (∀ (f : FacetId) (step : Option (Fin 6)) (nonZero : Bool) (codes : Vector (BitVec 10) 128) (c : CalRun) (s : State),
    let x := facetN s f.val
    x.optic.cal = some c → x.degraded = false → c.inEffect = true → c.returning = false → x.lock = .locked → x.dipping = false →
    x.optic.inPlace = false →
    (step = none → nonZero = false ∨ (rowAt x c.row).logical < 516 → (facetN (calPass s f.val c codes) f.val).optic.inPlace = false →
      exec (.calibrationComplete f step nonZero codes) s = Next (calPass s f.val c codes)) ∧
    (∀ k, step = some k ∨ (step = none ∧ nonZero = true ∧ 516 ≤ (rowAt x c.row).logical ∧ k = 5) →
      let u := (s.inc (fam 0x7100_0A f.val)).raise 0x7019 f.val (leBytes 2 c.row ++ leBytes 1 (k.val + 1))
      (c.failedOnce = false → exec (.calibrationComplete f step nonZero codes) s = Next (modFacet u f.val fun x =>
        { x with optic := { x.optic with cal := some { c with failedOnce := true, since := s.up } } })) ∧
      (c.failedOnce = true → (facetN (calFail u f.val c) f.val).optic.inPlace = false →
        exec (.calibrationComplete f step nonZero codes) s = Next (calFail u f.val c)))) ∧
  (∀ (f : FacetId) (s : State),
    let x := facetN s f.val
    let age := oldestCal s f.val
    x.degraded = false → x.lock = .locked →
    (x.optic.calPaused = true → x.optic.overdueRaised = false → 3 * s.num 0x7020_01 ≤ 2 * age → age < 2 * s.num 0x7020_01 →
      exec (.calOverdue f) s = Next ((modFacet s f.val fun y =>
        { y with optic := { y.optic with overdueRaised := true } }).raise 0x701B f.val (leBytes 4 age))) ∧
    (x.optic.calPaused = false ∨ x.optic.overdueRaised = true → 2 * s.num 0x7020_01 ≤ age → x.optic.inPlace = false →
      exec (.calOverdue f) s = Next (inPlaceDone (saveRowMap (modFacet (stopFacet s f.val) f.val fun y =>
        let y := abandonCal y
        { y with optic := { y.optic with inPlace := true } }) f.val) f.val)))

/-! ## Memory -/

/-- Memory units and the patrol scrub (R364 to R371, R377, R378, R504): a unit that waits takes the lowest free spare; the end
of its copy enters it in the remap table, saved, and the 65th retirement within the window fails the stack; the scrub reads a
memory's words in ascending order and wraps with the pass count; a word that held an error shows it; a clean word changes
nothing else, a corrected one is written back, a reread and an uncorrectable one are noted as such; training brings a stack into service, or it has failed with its facets. Words and units that do not exist are ill formed.
Rows whose completion it states, under conditions on state and operands alone: UNIT_RETIRE_START, UNIT_RETIRED,
PATROL_SCRUB, HBM_TRAINING_DONE. -/
def Obligations.MemoryUnitsAndScrub : Prop :=
  (∀ (n : PairId) (unit : Nat) (s : State),
    (549317 ≤ unit → exec (.unitRetireStart n unit) s = .fault .illFormed) ∧
    (unit < 549317 → s.maint.retiring[n] = none → unit ∈ s.maint.waiting[n] → s.num (fam 0x4500_05 n.val) ≠ 0 →
      let left := s.num (fam 0x4500_05 n.val)
      let u := (modMaint s fun m => { m with retiring := m.retiring.set n (some (unit, 16384 - left)),
                                             waiting := m.waiting.set n ((m.waiting[n]).erase unit) }).setSaved
        (fam 0x4500_05 n.val) (left - 1)
      exec (.unitRetireStart n unit) s =
        Next (if left = 1025 then u.raise 0x4052 n.val (leBytes 1 0 ++ leBytes 1 n.val ++ leBytes 2 1024) else u)) ∧
    (unit < 549317 → s.maint.retiring[n] = none → unit ∈ s.maint.waiting[n] → s.num (fam 0x4500_05 n.val) = 0 →
      exec (.unitRetireStart n unit) s = Next (qualifyUnit (modMaint s fun m =>
        { m with waiting := m.waiting.set n ((m.waiting[n]).erase unit) }) n.val unit))) ∧
  (∀ (n : PairId) (unit spare : Nat) (r : State), r.maint.retiring[n] = some (unit, spare) →
    let s := copyWords n.val (errsAt r (touches (hbmBase n.val + 65536 * unit) 65536)) r
    let oid := fam 0x4500_08 n.val
    let times := ((s.maint.retiredAt[n]).filter fun t => s.seconds < t + s.num 0x4400_04) ++ [s.seconds]
    let u := modMaint s fun m => { m with retiring := m.retiring.set n none, retiredAt := m.retiredAt.set n times,
                                          hbmHits := m.hbmHits.filter fun h => h.1 != n.val * 2 ^ 20 + unit }
    let u := ((((u.setBlob oid (((remapPut (remapOf s n.val) unit spare).map remapEntry).flatten)).save oid).addSaved
      (fam 0x4500_04 n.val) 1).faultDegraded).raise 0x4051 n.val (leBytes 1 0 ++ leBytes 1 n.val ++ leBytes 4 unit ++ leBytes 2 spare)
    exec (.unitRetired n) r = Next (if 64 < times.length then stackFailed u n.val else u)) ∧
  (∀ (n : Nat) (s : State), copyWords n [] s = s) ∧
  (∀ (m : MemKind) (unit : Fin 32) (address : Nat) (o : ReadOutcome) (s : State),
    let run := exec (.patrolScrub m unit address o) s
    let w := memBase m unit.val + address
    let old := sparseGet (fun _ => ReadOutcome.clean) s.maint.errs w
    let seen := if old = .uncorrectable ∨ o = .clean then old else o
    let u := scrubNext s m unit.val
    let fixed := dropErr u w
    let bad := addErr fixed w .uncorrectable
    (scrubOk m unit.val address o = false → run = .fault .illFormed) ∧
    (scrubOk m unit.val address o = true → m = .staging ∨ m = .vectorStore ∨ address ≠ scrubAt s m unit.val → run = Next s) ∧
    (scrubOk m unit.val address o = true → m ≠ .staging → m ≠ .vectorStore → address = scrubAt s m unit.val →
      (seen = .clean → run = Next u) ∧
      (∀ k, seen = .corrected k →
        let v := logError ((fixed.inc (correctedOid m unit.val)).faultCorrected 1) m unit.val 4 k.val address 0 0xFFFF 0xFFFF
        (m = .hbm → run = Next (hbmHit v unit.val address)) ∧ (m = .shelf → run = Next (shelfHit v unit.val address)) ∧
        (m = .accumulator → run = Next v)) ∧
      (seen = .reread → run = Next (logError (if m = .hbm then fixed.inc (fam 0x4500_03 unit.val) else fixed) m unit.val 2 0xFF
        address 0 0xFFFF 0xFFFF)) ∧
      (seen = .uncorrectable →
        (m = .hbm → run = Next (scrubHbm bad unit.val address)) ∧
        (m = .shelf → run = Next (noteShelfBad bad unit.val address 5 0xFFFF)) ∧
        (m = .accumulator → run = Next (scrubAcc bad unit.val address))))) ∧
  (∀ (unit : Nat) (s : State), unit < 8 →
    (s.num (fam 0x4500_07 unit) + 32 < 36000000000 →
      scrubNext s .hbm unit = s.setNum (fam 0x4500_07 unit) (s.num (fam 0x4500_07 unit) + 32)) ∧
    (s.num (fam 0x4500_07 unit) + 32 = 36000000000 →
      scrubNext s .hbm unit = (s.setNum (fam 0x4500_07 unit) 0).inc (fam 0x4500_06 unit))) ∧
  (∀ (n : PairId) (lanes : Nat) (s : State), (∀ r ∈ stackRails n.val, railGood s r = true) → s.unitUp 3 n.val = false →
    s.node ≠ .sealed →
    let u := if lanes = 0 then s else s.addSaved (fam 0x4500_09 n.val) lanes
    exec (.hbmTrainingDone n true lanes) s = Next (u.setUnits 3 (withBit (u.num 0x0020_03) n.val true)) ∧
    exec (.hbmTrainingDone n false lanes) s =
      (let v := u.faultDegraded.raise 0xB011 n.val []
       Next ((pairFacets n.val).foldl (fun s f => modFacet s f fun (x : Facet) => { x with degraded := true })
        (loseFacets v ((pairFacets n.val).filter fun f => v.facetUp f)))))

/-! ## Power, temperature and recovery -/

/-- Rails, temperature and throttling (R511 to R528): a rail that rises becomes GOOD and the sequence goes on, or FAILED and
told; a request is enforced at its stamp while the unit is still hot and released after GRACE cool frames; a stack's report is a
reading of its sensor.
Rows whose completion it states, under conditions on state and operands alone: RAIL_GOOD, RAIL_FAULT, THROTTLE_ENFORCED,
THROTTLE_RELEASED, STACK_TEMPERATURE_READ. -/
def Obligations.RailsAndThrottling : Prop :=
  (∀ (r : Fin 41) (fails : Nat) (volts : BitVec 32) (s : State), railState s r.val = 1 →
    exec (.railGood r fails) s = Next (settleLight (unitsFromRails (advanceSeq (pmbusFault (setRail s r.val 2) r.val fails 1)))) ∧
    exec (.railFault r volts) s = Next (advanceSeq (((setRail s r.val 4).setNum (fam 0x8100_02 r.val) volts.toNat).raise
      0x8010 0xFF (leBytes 1 r.val ++ leBytes 4 volts.toNat)))) ∧
  (∀ (g : Fin 6) (unit : Fin 8) (t : Throttle) (s : State), s.power.throttles = [t] → t.group = g.val → t.unit = unit.val →
    let u := modPower s fun p => { p with throttles := [] }
    (t.enforced = false → stampBefore s.now t.enforceAt = false → stillHot u g.val unit.val = false →
      exec (.throttleEnforced g unit) s = Next u) ∧
    (t.enforced = false → stampBefore s.now t.enforceAt = false → stillHot u g.val unit.val = true →
      exec (.throttleEnforced g unit) s =
        (let v := setCaps (modPower u fun p => { p with throttles := [{ t with enforced := true }] })
         let v := recertify v ((facetsIn (governs g.val unit.val)).map (tasksOn v)).flatten.dedup 4 false true
         Next (settleAllFacets (v.raise 0x8022 0xFF (leBytes 4 (governs g.val unit.val) ++ leBytes 1 (v.num 0x8400_04)))))) ∧
    (t.enforced = true → s.num 0x8400_01 ≤ t.cool → exec (.throttleReleased g unit) s =
      Next ((setCaps u).raise 0x8023 0xFF (leBytes 4 (governs g.val unit.val))))) ∧
  (∀ (n : PairId) (c : BitVec 32) (s : State), s.node ≠ .safe → s.sysHeld = false →
    exec (.stackTemperatureRead n c) s = Next (noteTemp s (600 + n.val) c.toNat))

/-- The outcomes of an over-voltage outside the power-fail sequence (R519): a rail 4 to 40 that is good is commanded off and its
units leave as for a reset crossing, with OVERVOLTAGE; rails 0 to 3 take the device to Safe with cause 5; the domain of a facet
is switched off and the facet degrades.
Rows whose completion it states, under conditions on state and operands alone: RESET_LEVEL_CROSSING, OVERVOLTAGE. -/
def Obligations.OvervoltageOutcomes : Prop :=
  ∀ s : State, s.power.failing = false →
    (∀ r : Fin 41, 4 ≤ r.val → railGood s r.val = true →
      exec (.overvoltage (.rail r)) s = Next (loseRail ((setRail s r.val 5).raise 0x8011 0xFF (leBytes 1 r.val)) r.val) ∧
      exec (.resetLevelCrossing (.rail r)) s =
        Next (loseRail (setRail (dipOver (s.inc 0xB200_07) r.val 0 []) r.val 4) r.val)) ∧
    (∀ r : Fin 41, r.val < 4 → exec (.overvoltage (.rail r)) s = Next (enterSafe s 5)) ∧
    (s.node ≠ .safe → (enterSafe s 5).node = .safe) ∧
    (∀ f : FacetId, s.power.digOff.testBit f.val = false → exec (.overvoltage (.digital f)) s =
      Next (settleAllFacets (degradeFacet (s.raise 0x8011 0xFF (leBytes 1 (64 + f.val))) f.val 0x3FF 0x3FF 0 s.now true))) ∧
    (∀ f : FacetId, s.power.anaOff.testBit f.val = false → exec (.overvoltage (.analogue f)) s =
      Next (settleAllFacets (degradeFacet (s.raise 0x8011 0xFF (leBytes 1 (96 + f.val))) f.val 0x3FF 0x3FF 0 s.now false)))

/-- Loss of power and dips (R493, R497, R498, R516, R518, R601): PWRFAIL_N in Sealed halts the boot and writes nothing; else
every task is held, passes stop, record 11 is appended and the count, stamp and life data are saved; its return ends a
sequence in a restart with cause 2. A dip stops the passes of the facets it reaches until its end, which counts it with its
length, each loop that no other dip holds back in its state; at DIP_FILL_LIMIT fill tasks are aborted; below the reset level the dies of the supply are lost.
Rows whose completion it states, under conditions on state and operands alone: POWER_FAIL, POWER_RETURN, SUPPLY_DIP,
DIP_END, LONG_DIP, RESET_LEVEL_CROSSING. -/
def Obligations.PowerLossAndDips : Prop :=
  (∀ s : State, s.power.failLow = false → s.sysHeld = true →
    exec .powerFail s = Next (modPower s fun p => { p with failLow := true })) ∧
  (∀ s : State, s.power.failLow = false → s.sysHeld = false →
    (s.node = .sealed → exec .powerFail s =
      Next { modPower s (fun p => { p with failLow := true, failing := true }) with sysHeld := true }) ∧
    (s.node ≠ .sealed → exec .powerFail s =
      (let u := modPower { s with quiesce := 0 } fun p => { p with failLow := true, failing := true, failOwed := true }
       let u := settleLight ((List.range 32).foldl stopFacet (u.tasks.foldl (fun s t => abortTask s t.num .held 256) u))
       let u := ((jAppend u (mkEntry 11 0 1 0 (leBytes 8 s.stamp))).getD u).drawNat 1001
       Next { saveLife (((u.2.addSaved 0xB200_01 1).setSaved 0xB200_02 s.stamp).setSaved 0xB200_03 u.1) with sysHeld := true }))) ∧
  (∀ s : State, s.power.failLow = true →
    let u := modPower s fun p => { p with failLow := false }
    exec .powerReturn s = Next (if s.power.failing then restartDevice u 2 else u)) ∧
  (∀ (v : Supply) (s : State), s.power.failing = false → s.node ≠ .safe → railWatched s v = true → s.dipping (supplyNum v) = false →
    let u := match v with
      | .rail r => (setRail s r.val 3).inc (fam 0x8100_04 r.val)
      | _ => s
    exec (.supplyDip v) s = Next ((dipPasses u (supplyNum v)).foldl (fun s f =>
      let t := modFacet (stopFacet s f) f fun (x : Facet) => { x with dipping := true }
      if supplyNum v = 39 ∨ supplyNum v = 40 ∨ loopsHeld u f = true then t else modFacet t f holdLoops)
      (modPower u fun p => { p with dips := p.dips ++ [(supplyNum v, u.up)] }))) ∧
  (∀ (v : Supply) (micros : Nat) (lost : List (FacetId × Fin 520 × Fin 128)) (s : State),
    s.power.failing = false → s.dipping (supplyNum v) = true →
    let u := match v with
      | .rail r => setRail s r.val 2
      | _ => s
    exec (.dipEnd v micros lost) s = Next (modPower (releaseAcks (dipOver
      ((u.inc 0xB200_04).raiseTo 0xB200_05 (micros % 2 ^ 32)).faultRetried
      (supplyNum v) (ceilDiv (micros * 768) 25) lost)) fun p => { p with long := p.long.filter fun k => k != supplyNum v })) ∧
  (∀ (v : Supply) (d : Nat × Nat) (s : State), s.power.failing = false →
    (s.power.dips.find? fun d => d.1 == supplyNum v) = some d → supplyNum v ∉ s.power.long →
    s.num 0xB200_08 ≤ s.since d.2 * 25 / 768 →
    exec (.longDip v) s =
      (let u := ((modPower s fun p => { p with long := p.long ++ [supplyNum v] }).inc 0xB200_06).raise 0xB031 0xFF
        (leBytes 1 (supplyNum v) ++ leBytes 4 (s.since d.2 * 25 / 768))
       let on := ((dipPasses u (supplyNum v)).map (tasksOn u)).flatten.dedup
       let w := ((on.filterMap (findTask u)).filter fun t => t.cls == .fill).foldl (fun s t => abortTask s t.num .replay 256) u
       Next (settleAllFacets (recertify w on 2 false false)))) ∧
  (∀ (v : Supply) (s : State), railWatched s v = true →
    let u := s.inc 0xB200_07
    (s.power.failing = true → exec (.resetLevelCrossing v) s = Next u) ∧
    (s.power.failing = false →
      let w := dipOver u (supplyNum v) 0 []
      (∀ r, v = .rail r → r.val < 2 → exec (.resetLevelCrossing v) s = Next (restartDevice w 2)) ∧
      (∀ r, v = .rail r → 2 ≤ r.val → r.val < 4 → exec (.resetLevelCrossing v) s =
        Next { restartDevice w 4 with ring := { (restartDevice w 4).ring with remoteReset := 0 } }) ∧
      (∀ r, v = .rail r → 4 ≤ r.val → exec (.resetLevelCrossing v) s = Next (loseRail (setRail w r.val 4) r.val)) ∧
      (∀ f, v = .digital f → exec (.resetLevelCrossing v) s = Next (loseDomain w f.val true)) ∧
      (∀ f, v = .analogue f → exec (.resetLevelCrossing v) s = Next (loseDomain w f.val false))))

/-- Resets, the reference clock and what is saved (R39, R413, R429, R434, R486, R499, R553, R597, R600): RESET_N with REFCLK
stable starts the device anew in Sealed with cause 2, with what lies in MRAM, flash and the rails as it was; the loss of REFCLK
and a supervisor mismatch end in Safe with causes 4 and 1, without light and with every output at mid-scale, and the first then
takes the ports down (`portsDown`); the return of REFCLK changes nothing else; life data takes the whole hours every 60 minutes, and no tick is
lost; after 3,600 s of Serving each pair keeps at most two trim images, the new one last; a relocation keeps every live entry of
the journal.
Rows whose completion it states, under conditions on state and operands alone: JOURNAL_RELOCATE, SUPERVISOR_MISMATCH,
TRIM_SAVE, LIFE_DATA_SAVE, RESET_N, REFCLK_LOSS, REFCLK_RETURN. -/
def Obligations.ResetsAndSaves : Prop :=
  (∀ s : State, Canonical s → s.refclk = true → ∃ t, exec .resetN s = Next t ∧ t.node = .sealed ∧ t.num 0x1000_05 = 2 ∧
    t.tasks = [] ∧ t.sessions = [] ∧ t.requests = [] ∧ t.contexts = [] ∧ t.mem = [] ∧ t.store = s.store ∧
    t.journal.own = s.journal.own ∧ t.life = s.life ∧ t.pending = s.pending ∧
    ∀ r : Fin 41, railState t r.val = railState s r.val) ∧
  (∀ s : State, s.refclk = false → exec .resetN s = Next s ∧ exec .refclkLoss s = Next s) ∧
  (∀ s : State, Canonical s → s.refclk = true → s.node ≠ .safe → let u := enterSafe { s with refclk := false } 4
    exec .refclkLoss s = Next (portsDown u) ∧ u.refclk = false ∧ u.node = .safe ∧ u.num 0x1000_04 = 4 ∧
      u.light.amps = Vector.replicate 2 0 ∧ u.analog.outs = [] ∧ u.tasks = s.tasks ∧ (∀ i, lightEnable u i = false) ∧
      ∀ p : RingPort, portUp u p = portUp s p) ∧
  (∀ s : State, exec .refclkReturn s = Next { s with refclk := true }) ∧
  (∀ s : State, Canonical s → s.sysHeld = false → s.node ≠ .safe → ∃ t, exec .supervisorMismatch s = Next t ∧
    t.node = .safe ∧ t.num 0x1000_04 = 1 ∧ t.light.amps = Vector.replicate 2 0 ∧ t.analog.outs = [] ∧
    (∀ i, lightEnable t i = false) ∧ ∀ c : Fin 4, t.analog.convs[c].stopped = true ∧ t.analog.convs[c].urgent = []) ∧
  (∀ s : State, Canonical s → sysRuns s = true → 110592000000 ≤ s.since s.life.savedAt → ∃ t, exec .lifeDataSave s = Next t ∧
    t.num 0x0030_01 = (s.num 0x0030_01 + s.life.powered / 110592000000) % 2 ^ 32 ∧
    t.num 0x0030_02 = (s.num 0x0030_02 + s.life.serving / 110592000000) % 2 ^ 32 ∧
    t.num 0x0030_05 = (s.num 0x0030_05 + s.life.light / 110592000000) % 2 ^ 32 ∧
    t.life.powered = s.life.powered % 110592000000 ∧ t.life.serving = s.life.serving % 110592000000 ∧
    t.life.light = s.life.light % 110592000000 ∧ t.life.savedAt = s.up) ∧
  (∀ s : State, s.node = .serving → sysRuns s = true → s.analog.trimAt + 110592000000 ≤ servingTicks s →
    ∃ t, exec .trimSave s = Next t ∧ t.analog.trimAt = servingTicks s ∧ ∀ n : Fin 8,
      let old := s.analog.trims.filter fun x => x.pair == n.val
      let new : TrimImage :=
        { pair := n.val, setpoint := s.num 0x7020_02, codes := trimCodes s n.val, stamp := s.stamp, whole := true }
      (t.analog.trims.filter fun x => x.pair == n.val) = (old.getLast?.toList) ++ [new]) ∧
  (∀ (n : Nat) (s : State), sysRuns s = true → sparseWf (fun _ => mkEntry 0 0 0 0 []) s.journal.own.entries = true →
    ∃ t, exec (.journalRelocate n) s = Next t ∧ ∀ e ∈ s.journal.own.entries, e.2.live = true →
      ∃ p, (p, e.2) ∈ t.journal.own.entries)

/-! ## Converters and outputs -/

/-- Conversions and the calibration commands (R542 to R549): the channel that a converter converts takes the result with its
flags, a code beyond full scale is ±8,388,607 and flagged, and the sequence goes on; an urgent request is queued and shown
pending, a fifth is refused with URGENT_RESULT 3; CAL_ZERO keeps the sum of its sixteen conversions, CAL_FULL_SCALE without one
at the same channel leaves 6, CAL_CLEAR clears the channel's coefficients; each leaves CAL_RESULT.
Rows whose completion it states, under conditions on state and operands alone: CONVERSION_COMPLETE, URGENT, CAL_ZERO,
CAL_FULL_SCALE, CAL_CLEAR. -/
def Obligations.ConversionsAndCalibration : Prop :=
  (∀ (c : Fin 4) (channel : Byte) (code : Int) (ov : Bool) (k : Conversion) (s : State),
    let u := passSkipped c 130 s
    converting u c = some k → convRuns s c = true → k.channel = channel.toNat → (∀ d ∈ s.power.dips, d.1 ≠ 1) →
    -8388608 ≤ code → code ≤ 8388607 →
    let t := storeResult u c k code ov
    (k.test = true → exec (.conversionComplete c channel code ov) s = Next (newLoop t c)) ∧
    (k.test = false → k.entry = none → exec (.conversionComplete c channel code ov) s = Next t) ∧
    (∀ i e, k.test = false → k.entry = some i → (tableOf u c)[i]? = some e → exec (.conversionComplete c channel code ov) s =
      Next (if u.analog.convs[c].step + 1 < e.count then modConv t c fun (v : Conv) => { v with step := v.step + 1 }
        else endEntry t c))) ∧
  (∀ (x : Xfer) (v : BitVec 16) (r : UrgentReq) (s : State), Accepted s x 0x9030 1 (leBytes 2 v.toNat) →
    urgentOf v.toNat = some r →
    let h := heard s
    let c : Fin 4 := ⟨v.toNat % 4, Nat.mod_lt _ (by decide)⟩
    (s.analog.convs[c].urgent = [] → s.analog.convs[c].stopped = false → s.analog.convs[c].urgentRunning = false →
      exec (.urgent x v) s = Answered ((modConv (h.inc (fam 0x9000_08 c.val)) c fun y =>
        { y with urgent := [r], urgentRunning := true }).setNum 0x9030_02 (2 ^ 40)) x 0x9030 1) ∧
    (s.analog.convs[c].stopped = true ∨ 4 ≤ s.analog.convs[c].urgent.length →
      exec (.urgent x v) s = Next (sendResp (h.setNum 0x9030_02 (3 * 2 ^ 40)) x.val 5 0x9030 1 0 []))) ∧
  (∀ (x : Xfer) (codes : Vector Int 16) (s : State), s.node = .configuring ∨ s.node = .quiesced →
    let h := heard s
    let ch := s.num 0x9040_01 % 256
    ch < 24 ∨ (170 ≤ ch ∧ ch < 202) → s.num 0x9040_01 / 1024 % 8 ≤ 5 →
    (Accepted s x 0x9040 3 [1] → exec (.calZero x codes) s = Answered ((modAnalog h fun a =>
      { a with zeroed := some (s.num 0x9040_01, codes.toList.foldl (· + ·) 0) }).setNum 0x9040_04 0) x 0x9040 3) ∧
    (Accepted s x 0x9040 3 [2] → s.analog.zeroed = none →
      exec (.calFullScale x codes) s = Next (sendResp (h.setNum 0x9040_04 6) x.val 5 0x9040 3 0 [])) ∧
    (Accepted s x 0x9040 3 [2] → ∀ t, calFullScale h codes = (0, t) →
      exec (.calFullScale x codes) s = Answered (t.setNum 0x9040_04 0) x 0x9040 3) ∧
    (Accepted s x 0x9040 3 [3] →
      exec (.calClear x) s = Answered ((putCal h ch 0 0).setNum 0x9040_04 0) x 0x9040 3))

/-- The window comparator of an entry with WINDOW (R545): LOW and HIGH are inside; WINDOW_EXIT is raised only by a result outside
after one inside; the first result after a table takes effect counts as following an inside one; a result inside re-arms it;
nothing is raised for a result that stays outside or comes back. A result of a conversion that no reading and no output uses goes
through the comparator exactly where its entry has WINDOW. -/
def Obligations.WindowComparator : Prop :=
  (∀ (c : Fin 4) (i ch : Nat) (e : SeqEntry) (code : Int) (s : State),
    let out := code < e.low ∨ e.high < code
    let t := judgeWindow s c i ch e code
    (out → i ∉ s.analog.convs[c].outside →
      t = (modConv s c fun (v : Conv) => { v with outside := v.outside ++ [i] }).raise 0x9010 0xFF
        (leBytes 1 c.val ++ leBytes 1 i ++ leBytes 1 ch ++ leBytes 4 (unsignedOf 32 code))) ∧
    (out → i ∈ s.analog.convs[c].outside → t.events = s.events ∧ t.analog.convs[c].outside = s.analog.convs[c].outside) ∧
    (e.low ≤ code → code ≤ e.high → t.events = s.events ∧ i ∉ t.analog.convs[c].outside ∧
      ∀ k, k ≠ i → (k ∈ t.analog.convs[c].outside ↔ k ∈ s.analog.convs[c].outside))) ∧
  (∀ (c : Fin 4) (i ch gain : Nat) (raw : Int) (e : SeqEntry) (s : State), (tableOf s c)[i]? = some e → 170 ≤ ch → ch < 202 →
    s.analog.convs[c].urgent = [] →
    let code := (calCode s ch gain raw).1
    let t := if e.window then judgeWindow s c i ch e code else s
    ∃ flags, storeResult s c { channel := ch, gain := gain, short := false, entry := some i, test := false } raw false =
      putResult t ch { code := code, flags := flags, conv := c.val, age := 0 }) ∧
  (∀ (c : Fin 4) (s : State), s.analog.convs[c].table ≠ loopTable s c → (newLoop s c).analog.convs[c].outside = [])

/-- Outputs (R550, R551, R554 to R556): a code written to an output that no span change and no playback holds goes through the
deglitcher, where a major transition holds the old value until its hold ends; a span write goes to 0 V, switches, and comes back
to CODE with a read-back asked for; a trigger in the future waits for its stamp; a playback whose last sample's time has passed
returns the output to CODE; a freeze stops all of it.
Rows whose completion it states, under conditions on state and operands alone: AOUT_CODE, DEGLITCH_HOLD_END, SPAN,
SPAN_STEP, TRIGGER, WAVE_SAMPLE. -/
def Obligations.OutputsFollowTheirCodes : Prop :=
  (∀ (x : Xfer) (k : Fin 16) (v : BitVec 16) (s : State), Accepted s x (0x9100 + k.val) 1 (leBytes 2 v.toNat) →
    s.analog.exts[k].step = 0 → playingOn s k.val = none →
    exec (.aoutCode x k v) s = Answered ((setOut (modExt ((heard s).setNum (fam 0x9100_01 k.val) v.toNat) k fun e =>
      { e with service := true }) k.val v.toNat).save (fam 0x9100_01 k.val)) x (0x9100 + k.val) 1) ∧
  (∀ (x : Xfer) (k : Fin 16) (v : Byte) (s : State), Accepted s x (0x9100 + k.val) 2 [v] →
    exec (.span x k v) s = Answered ((spanWrite (heard s) k v.toNat).save (fam 0x9100_02 k.val)) x (0x9100 + k.val) 2) ∧
  (∀ (x : Xfer) (v : Bytes) (r : Nat) (t : State) (s : State), Accepted s x 0x9120 3 v → v.length = 16 →
    triggerOut (heard s) v = (r, t) →
    exec (.trigger x v) s = Next (sendResp (t.setNum 0x9120_04 r) x.val (if r = 0 then 0 else 5) 0x9120 3 0 [])) ∧
  (∀ (o : Output) (c : Nat) (s : State), (outOf s (outKey o)).hold = some c →
    exec (.deglitchHoldEnd o) s = Next (if frozen s then s else
      putOut s (outKey o) { code := c, hold := none, kept := none, changedAt := s.up })) ∧
  (∀ (o : OutState) (key code up : Nat), o.hold = none →
    (o.code / majorStep key ≠ code / majorStep key → (o.change key code up).code = o.code ∧
      (o.change key code up).hold = some code) ∧
    (o.code / majorStep key = code / majorStep key → (o.change key code up).code = code ∧ (o.change key code up).hold = none)) ∧
  (∀ (k : Fin 16) (s : State), let e := s.analog.exts[k]
    (frozen s = true ∨ e.step = 0 → exec (.spanStep k) s = Next s) ∧
    (frozen s = false → e.step = 1 →
      exec (.spanStep k) s = Next (modExt s k fun e => { e with step := 2, span := e.toSpan })) ∧
    (frozen s = false → 2 ≤ e.step → exec (.spanStep k) s =
      (let u := setOut (connectOut (modExt s k fun e => { e with step := 0 }) k.val (zeroCode e.toSpan)) k.val
        (s.num (fam 0x9100_01 k.val))
       Next ((pushUrgent u 3 { channel := 202 + k.val, gain := 0, short := false, own := true }).getD u)))) ∧
  (∀ (o : Output) (s : State), s.analog.plays = [] → exec (.waveSample o) s = Next s) ∧
  (∀ (k : Fin 16) (p : Playback) (s : State), s.analog.plays = [p] → p.out = k.val → p.running = true →
    reached s (p.due (waveOf s p.wave)) = true →
    ((waveOf s p.wave).loops ≤ p.loop → s.analog.exts[k].step = 0 → exec (.waveSample (.external k)) s =
      Next (setOut (modAnalog s fun a => { a with plays := [] }) k.val (s.num (fam 0x9100_01 k.val)))) ∧
    (p.loop < (waveOf s p.wave).loops → exec (.waveSample (.external k)) s =
      (let u := modExt (modAnalog s fun a => { a with plays := [p.advance (waveOf s p.wave)] }) k fun e => { e with service := true }
       Next (playCode u k (sampleCode u k.val (waveOf s p.wave) p.scale (waveSample u (waveOf s p.wave) p.next))))))

/-! ## Boot and firmware -/

/-- Boot, seal, attestation and images (R429, R570 to R588): a boot whose self-check fails, or that no image is accepted for,
ends in Safe with cause 3; the first accepted candidate runs (which images are accepted depends on the root key's hash, a
constant of the device); without a seal in 1,500 ms its boot has failed; the seal fills the
protection objects and the measurements and enters Configuring; a nonce starts a report, whose signing fills it; a staged image
is programmed into its slot and judged; COMMIT makes the running slot PREFERRED and raises the SVN floor.
Rows whose completion it states, under conditions on state and operands alone: BOOT, BOOT_TIMEOUT, NONCE, REPORT_SIGNED,
IMAGE_DATA, IMAGE_STAGED, COMMIT, SEAL. -/
def Obligations.BootAndImages : Prop :=
  (∀ (b : Bool) (lines : List (PairId × Nat)) (facets : BitVec 32) (s : State), s.node = .sealed → s.sysHeld = false →
    s.refclk = true → s.boot.candidate = none → s.ring.remoteReset = 0 →
    let u := modBoot (countPowerUp s) fun x => { x with startedAt := (countPowerUp s).up }
    let r := chooseImage (u.setNum 0xC000_03 255) (candidates u) 0
    let named := u.num 0xC000_03 != 255
    exec (.boot false b lines facets) s = Next (enterSafe u 3) ∧
    exec (.boot true b lines facets) s = Next (match r.2 with
      | none => enterSafe r.1 3
      | some (src, k) =>
        runImage r.1 src (if k ≠ 0 then 2 else if named then 1 else 0) (named && k == 0) b lines facets.toNat)) ∧
  (∀ (src : Nat) (fromNext slow : Bool) (s : State), s.boot.candidate = some (src, fromNext, slow) → s.node = .sealed →
    src ≠ 3 → s.power.failLow = false → s.sysHeld = false →
    (46080000 ≤ s.since s.boot.startedAt → exec .bootTimeout s = Next (bootFailed s fromNext)) ∧
    exec .sealWrite s =
      (let img := s.boot.running
       let debug := (fieldAt img 13 1).testBit 0 && s.num 0xC000_0B == 1
       let m := measurements s debug
       let u := ((((((s.setNum 0xC010_01 1).setNum 0xC010_02 (if debug then 1 else 0)).setBlob 0xC010_03
        (sealWindows (fwSeal img))).setBlob 0xC010_04 (sealMap (fwSeal img))).setBlob 0xC010_05 ((m.drop 128).take 64)).setBlob
        0xC030_06 m)
       let u := if debug then u.raise 0xC014 0xFF [] else u
       Next (enterConfiguring (modBoot (u.setNum 0xC000_09 (s.since s.boot.startedAt / 30720)) fun b =>
        { b with candidate := none })))) ∧
  (∀ (x : Xfer) (v : Bytes) (s : State), let h := heard s
    (Accepted s x 0xC030 1 v → exec (.nonce x v) s =
      Answered ((modBoot h fun b => { b with signing := some v }).setNum 0xC030_03 1) x 0xC030 1) ∧
    (Accepted s x 0xC020 2 v → exec (.imageData x v) s =
      Answered (((modBoot h fun b => { b with
        staging := some (s.num 0xC020_01, v), images := b.images.setIfInBounds (s.num 0xC020_01) none }).setNum
          0xC020_03 1).setNum 0xC020_04 0) x 0xC020 2)) ∧
  (∀ (nonce : Bytes) (s : State), s.boot.signing = some nonce → inService s = true → exec .reportSigned s =
    Next (((modBoot s fun b => { b with signing := none }).setBlob 0xC030_02 (reportBody s nonce ++
      (Config.identitySign (reportBody s nonce) ++ List.replicate 512 0#8).take 512)).setNum 0xC030_03 2)) ∧
  (∀ (ok : Bool) (t : Nat) (b : Bytes) (s : State), s.boot.staging = some (t, b) → s.sysHeld = false → s.node ≠ .safe →
    let u := modBoot s fun x => { x with staging := none }
    let w := (modBoot u fun x => { x with images := x.images.setIfInBounds t (some b) }).setNum 0xC020_04 b.length
    (t ≠ 2 → exec (.imageStaged false) s = Next (u.setNum 0xC020_03 3)) ∧
    (t = 2 ∨ ok = true → exec (.imageStaged ok) s = Next (match fwCause w (some b) with
      | some c => w.setNum 0xC020_03 (16 + c)
      | none => (w.setNum 0xC020_03 2).raise 0xC012 0xFF (leBytes 1 t ++ leBytes 4 (fwVersion b))))) ∧
  (∀ (x : Xfer) (v : Byte) (s : State), Accepted s x 0xC000 10 [v] → let h := heard s
    (v.toNat = 0 → exec (.commit x v) s = Answered h x 0xC000 10) ∧
    (v.toNat ≠ 0 → s.num 0xC000_01 ≠ 2 → s.num 0xC000_07 < fwSvn s.boot.running → exec (.commit x v) s =
      Answered (((h.setNum 0xC000_02 (s.num 0xC000_01)).setNum 0xC000_07 (fwSvn s.boot.running)).raise 0xC013 0xFF
        (leBytes 1 (s.num 0xC000_07) ++ leBytes 1 (fwSvn s.boot.running))) x 0xC000 10) ∧
    (v.toNat ≠ 0 → s.num 0xC000_01 ≠ 2 → fwSvn s.boot.running ≤ s.num 0xC000_07 → exec (.commit x v) s =
      Answered (h.setNum 0xC000_02 (s.num 0xC000_01)) x 0xC000 10))

/-- A boot code failure (R574), a start-up test that ends the boot or a seal not written within 1,500 ms: where the image came
from BOOT_NEXT the ROM restarts the boot, once, on the PREFERRED slot, and raises BOOT_FALLBACK; any other image takes the
device to Safe with cause 3.
Rows whose completion it states, under conditions on state and operands alone: BOOT, BOOT_TIMEOUT. -/
def Obligations.BootCodeFailures : Prop :=
  (∀ (src : Nat) (slow : Bool) (s : State), s.node = .sealed → src ≠ 3 → s.power.failLow = false → s.sysHeld = false →
    46080000 ≤ s.since s.boot.startedAt →
    (s.boot.candidate = some (src, true, slow) →
      exec .bootTimeout s = Next (modBoot s fun b => { b with candidate := some fallbackBoot, running := [] })) ∧
    (s.boot.candidate = some (src, false, slow) → exec .bootTimeout s = Next (enterSafe s 3))) ∧
  (∀ (lines : List (PairId × Nat)) (facets : BitVec 32) (s : State), s.node = .sealed → s.sysHeld = false →
    s.refclk = true → s.boot.candidate = none → s.ring.remoteReset = 0 →
    let u := modBoot (countPowerUp s) fun x => { x with startedAt := (countPowerUp s).up }
    let r := chooseImage (u.setNum 0xC000_03 255) (candidates u) 0
    let named := u.num 0xC000_03 != 255
    exec (.boot true false lines facets) s = Next (match r.2 with
      | none => enterSafe r.1 3
      | some (src, k) =>
        let cause := if k ≠ 0 then 2 else if named then 1 else 0
        let img := (imageIn r.1 src).getD []
        let w := (((modBoot r.1 fun b =>
          { b with candidate := some (src, named && k == 0, cause == 2), running := img }).setNum 0xC000_01 src).setNum
          0xC000_08 cause).setNum 0x0000_08 (fwVersion img)
        let w := if k ≠ 0 then w.raise 0xC011 0xFF (leBytes 1 src) else w
        if named && k == 0 then modBoot w fun b => { b with candidate := some fallbackBoot, running := [] } else enterSafe w 3)) ∧
  (∀ (ok : Bool) (lines : List (PairId × Nat)) (facets : BitVec 32) (s : State), s.node = .sealed →
    s.sysHeld = false → s.refclk = true → s.boot.candidate = some fallbackBoot → s.ring.remoteReset = 0 →
    s.num 0xC000_03 = 255 →
    let u := modBoot s fun x => { x with startedAt := s.up }
    let r := chooseImage (u.setNum 0xC000_03 255) (candidates u) 0
    candidates u = [s.num 0xC000_02, 1 - s.num 0xC000_02] ∧
    exec (.boot true ok lines facets) s = Next (match r.2 with
      | none => enterSafe r.1 3
      | some (src, _) => runImage r.1 src 2 false ok lines facets.toNat)) ∧
  (∀ (v : State) (src : Nat) (lines : List (PairId × Nat)) (facets : Nat),
    let img := (imageIn v src).getD []
    let w := modBoot v fun b => { b with candidate := some (src, false, true), running := img }
    runImage v src 2 false false lines facets = enterSafe ((((w.setNum 0xC000_01 src).setNum 0xC000_08 2).setNum
      0x0000_08 (fwVersion img)).raise 0xC011 0xFF (leBytes 1 src)) 3) ∧
  (∀ s : State, s.node ≠ .safe → (enterSafe s 3).node = .safe)

/-! ## The canonical forms, whatever runs -/

/-- Every step keeps the memory and the objects in their canonical form, whatever command is at the front of the queue, or
none: equal memories and equal objects stay equal data. -/
def Obligations.CanonicalFormsAreKept : Prop := ∀ s t : State, Canonical s → step s = Next t → Canonical t

/-- The state after reset is canonical, and its queue of commands is empty. -/
def Obligations.ResetIsCanonical : Prop := Canonical State.reset ∧ State.reset.pending = []
end

