-- ==== Sys2Proof/Laws/Facets.lean ====
section
/-! SUPPORT. Facets.lean: what an optical attempt returns over the factory row map (R45, R51). -/

namespace Sys2Proof.Machine

/-- The factory map gives each logical row below 516 the physical row of its number (R51). -/
theorem carrier_factory (x : Facet) (h : x.ringMap = []) (r : Nat) (hr : r < 516) : carrier x r = some r := by
  have e : ∀ p, ringRow x p = factoryRow p := fun p => by simp [ringRow, h, sparseGet]
  have none_ : (List.range 520).find? (fun p => (ringRow x p).logical == r && (ringRow x p).role == .standingIn) = none := by
    rw [List.find?_eq_none]
    intro p _
    by_cases hp : p < 516 <;> simp [e, factoryRow, hp]
  have some_ : (List.range 520).find? (fun p => (ringRow x p).logical == r && (ringRow x p).role == .inUse) = some r := by
    rw [List.find?_range_eq_some]
    refine ⟨by simp [e, factoryRow, hr], by simp; omega, fun j hj => ?_⟩
    have : j < 516 := by omega
    simp [e, factoryRow, this]
    omega
  simp [carrier, none_, some_]

/-- The codes of the all-zero plane over the factory map: each logical row's is the sum of its own row's deviations (R45, R52). -/
theorem attemptCodes_zeros (x : Facet) (h : x.ringMap = []) (n : Nat) (hn : n ≤ 516) (errors : List (Nat × Int)) :
    attemptCodes x (List.replicate n 0) errors = (List.range n).map fun r =>
      clampCode (((errors.filter fun e => e.1 == r).map fun e => e.2).foldl (· + ·) 0) := by
  apply List.ext_getElem
  · simp [attemptCodes]
  · intro r h1 h2
    have hr : r < n := by simpa using h2
    simp [attemptCodes, carrier_factory x h r (by omega)]

end Sys2Proof.Machine
end

