-- ==== Sys2Proof/Laws/Sparse.lean ====
section
/-! SUPPORT. Sparse.lean: the sparse lists in canonical form and the byte memory over them. -/

namespace Sys2Proof.Machine

theorem ascending_weaken {α : Type} (l : List (Nat × α)) (m n : Nat) (h : m ≤ n) (ha : ascending (some n) l = true) :
    ascending (some m) l = true := by
  cases l with
  | nil => rfl
  | cons e l =>
    simp only [ascending, Bool.and_eq_true, decide_eq_true_eq] at ha ⊢
    exact ⟨by omega, ha.2⟩

theorem ascending_none {α : Type} (l : List (Nat × α)) (m : Nat) (ha : ascending (some m) l = true) : ascending none l = true := by
  cases l with
  | nil => rfl
  | cons e l => simp only [ascending, Bool.and_eq_true] at ha ⊢; exact ⟨trivial, ha.2⟩

/-- A key at or below the bound of an ascending list is not listed. -/
theorem sparseGet_below {α : Type} (d : Nat → α) (l : List (Nat × α)) (m k : Nat) (h : k ≤ m) (ha : ascending (some m) l = true) :
    sparseGet d l k = d k := by
  induction l generalizing m with
  | nil => rfl
  | cons e l ih =>
    simp only [ascending, Bool.and_eq_true, decide_eq_true_eq] at ha
    have hne : e.1 ≠ k := by omega
    simp only [sparseGet, hne, if_false]
    exact ih e.1 (by omega) ha.2

variable {α : Type} [DecidableEq α] (d : Nat → α)

/-- Reading the key just written. -/
theorem sparseGet_put_self (l : List (Nat × α)) (b : Option Nat) (k : Nat) (v : α) (ha : ascending b l = true) :
    sparseGet d (sparsePut d l k v) k = v := by
  induction l generalizing b with
  | nil => by_cases h : v = d k <;> simp [sparsePut, sparseGet, h]
  | cons e l ih =>
    have hl : ascending (some e.1) l = true := by
      simp only [ascending, Bool.and_eq_true] at ha; exact ha.2
    simp only [sparsePut]
    split
    · rename_i hk
      by_cases h : v = d k
      · have hne : e.1 ≠ k := by omega
        simp only [h, if_true, sparseGet, hne, if_false]
        exact sparseGet_below d l e.1 k (by omega) hl
      · simp [h, sparseGet]
    · split
      · rename_i _ hk
        by_cases h : v = d k
        · simp only [h, if_true]; exact sparseGet_below d l e.1 k (by omega) hl
        · simp [h, sparseGet]
      · rename_i _ hk
        simp only [sparseGet, hk, if_false]
        exact ih (some e.1) hl

/-- Every other key reads as before. -/
theorem sparseGet_put_other (l : List (Nat × α)) (k k' : Nat) (v : α) (h : k' ≠ k) :
    sparseGet d (sparsePut d l k v) k' = sparseGet d l k' := by
  induction l with
  | nil => by_cases hv : v = d k <;> simp [sparsePut, sparseGet, hv, Ne.symm h]
  | cons e l ih =>
    simp only [sparsePut]
    split
    · by_cases hv : v = d k <;> simp [sparseGet, hv, Ne.symm h]
    · split
      · rename_i _ hk
        have hne : e.1 ≠ k' := by omega
        by_cases hv : v = d k <;> simp [sparseGet, hv, Ne.symm h, hne]
      · simp only [sparseGet]; rw [ih]

theorem ascending_put (l : List (Nat × α)) (b : Option Nat) (k : Nat) (v : α) (hb : ∀ m, b = some m → m < k)
    (ha : ascending b l = true) : ascending b (sparsePut d l k v) = true := by
  induction l generalizing b with
  | nil =>
    by_cases hv : v = d k
    · simp [sparsePut, hv, ascending]
    · cases b with
      | none => simp [sparsePut, hv, ascending]
      | some m => simp [sparsePut, hv, ascending, hb m rfl]
  | cons e l ih =>
    have hl : ascending (some e.1) l = true := by
      simp only [ascending, Bool.and_eq_true] at ha; exact ha.2
    simp only [sparsePut]
    split
    · rename_i hk
      by_cases hv : v = d k
      · simp only [hv, if_true]; exact ha
      · simp only [hv, if_false, ascending, Bool.and_eq_true, decide_eq_true_eq]
        refine ⟨?_, hk, hl⟩
        cases b with
        | none => rfl
        | some m => simp [hb m rfl]
    · split
      · rename_i _ hk
        by_cases hv : v = d k
        · simp only [hv, if_true]
          cases b with
          | none => exact ascending_none l e.1 hl
          | some m =>
            simp only [ascending, Bool.and_eq_true, decide_eq_true_eq] at ha
            exact ascending_weaken l m e.1 (by omega) hl
        · simp only [hv, if_false, ascending, Bool.and_eq_true]
          refine ⟨?_, hk ▸ hl⟩
          cases b with
          | none => rfl
          | some m => simp [hb m rfl]
      · rename_i hlt hne
        simp only [ascending, Bool.and_eq_true] at ha ⊢
        exact ⟨ha.1, ih (some e.1) (by intro m hm; cases hm; omega) hl⟩

theorem all_put (l : List (Nat × α)) (k : Nat) (v : α) (h : l.all (fun e => decide (e.2 ≠ d e.1)) = true) :
    (sparsePut d l k v).all (fun e => decide (e.2 ≠ d e.1)) = true := by
  induction l with
  | nil => by_cases hv : v = d k <;> simp [sparsePut, hv]
  | cons e l ih =>
    simp only [List.all_cons, Bool.and_eq_true] at h
    simp only [sparsePut]
    split
    · by_cases hv : v = d k <;> simp_all
    · split
      · by_cases hv : v = d k <;> simp_all
      · simp only [List.all_cons, Bool.and_eq_true]; exact ⟨h.1, ih h.2⟩

/-- A write keeps the canonical form. -/
theorem sparsePut_wf (l : List (Nat × α)) (k : Nat) (v : α) (h : sparseWf d l = true) :
    sparseWf d (sparsePut d l k v) = true := by
  simp only [sparseWf, Bool.and_eq_true] at h ⊢
  exact ⟨ascending_put d l none k v (by intro m hm; cases hm) h.1, all_put d l k v h.2⟩

/-! ### The byte memory -/

omit [DecidableEq α] in
theorem ascending_filter (l : List (Nat × α)) (b : Option Nat) (f : Nat × α → Bool) (h : ascending b l = true) :
    ascending b (l.filter f) = true := by
  induction l generalizing b with
  | nil => rfl
  | cons e l ih =>
    have hl : ascending (some e.1) l = true := by simp only [ascending, Bool.and_eq_true] at h; exact h.2
    cases hf : f e
    · rw [List.filter_cons_of_neg (by simp [hf])]
      refine ih b ?_
      cases b with
      | none => exact ascending_none l e.1 hl
      | some m =>
        simp only [ascending, Bool.and_eq_true, decide_eq_true_eq] at h
        exact ascending_weaken l m e.1 (Nat.le_of_lt h.1) hl
    · rw [List.filter_cons_of_pos hf]
      simp only [ascending, Bool.and_eq_true] at h ⊢
      exact ⟨h.1, ih _ hl⟩

/-- Entries left out of a canonical list leave a canonical list. -/
theorem sparseWf_filter (l : List (Nat × α)) (f : Nat × α → Bool) (h : sparseWf d l = true) :
    sparseWf d (l.filter f) = true := by
  simp only [sparseWf, Bool.and_eq_true, List.all_eq_true] at h ⊢
  exact ⟨ascending_filter l none f h.1, fun e he => h.2 e (List.mem_of_mem_filter he)⟩

omit [DecidableEq α] in
/-- Entries of other keys left out, a key reads as before. -/
theorem sparseGet_filter (l : List (Nat × α)) (f : Nat → Bool) (k : Nat) (h : f k = true) :
    sparseGet d (l.filter fun e => f e.1) k = sparseGet d l k := by
  induction l with
  | nil => rfl
  | cons e l ih =>
    cases hf : f e.1
    · have hk : e.1 ≠ k := by rintro rfl; rw [h] at hf; cases hf
      simp only [List.filter_cons, hf, Bool.false_eq_true, if_false, sparseGet, hk, ih]
    · simp only [List.filter_cons, hf, if_true, sparseGet, ih]

theorem memWrite_wf (m : List Host.Cell) (a : Nat) (b : Bytes) (h : Memory.wf m = true) : Memory.wf (memWrite m a b) = true := by
  induction b generalizing m a with
  | nil => exact h
  | cons x xs ih => exact ih _ _ (sparsePut_wf memDefault m a x h)

theorem reset_mem_wf : Memory.wf State.reset.mem = true := by decide

/-- A write leaves every byte outside it alone. -/
theorem memByte_write_outside (m : List Host.Cell) (a k : Nat) (b : Bytes) (h : k < a ∨ a + b.length ≤ k) :
    memByte (memWrite m a b) k = memByte m k := by
  induction b generalizing m a with
  | nil => rfl
  | cons x xs ih =>
    simp only [List.length_cons] at h
    rw [memWrite, ih _ _ (by omega)]
    exact sparseGet_put_other memDefault m a k x (by omega)

/-- Reading back what was written. -/
theorem memRead_write (m : List Host.Cell) (a : Nat) (b : Bytes) (h : Memory.wf m = true) :
    memRead (memWrite m a b) a b.length = b := by
  induction b generalizing m a with
  | nil => rfl
  | cons x xs ih =>
    have hm : Memory.wf (sparsePut memDefault m a x) = true := sparsePut_wf memDefault m a x h
    simp only [Memory.wf, sparseWf, Bool.and_eq_true] at h
    simp only [List.length_cons, memRead, memWrite]
    rw [memByte_write_outside _ _ _ _ (by omega), ih _ _ hm]
    simp only [memByte]
    rw [sparseGet_put_self memDefault m none a x h.1]

end Sys2Proof.Machine
end

