-- ==== Sys2Proof/Laws/State.lean ====
section
/-! SUPPORT. State.lean: what the updates of an object leave alone, one lemma for each field and update, and what the shared
operations over events, the store and the frames to node 0 can do. -/

namespace Sys2Proof.Machine


/-! ### `State.setVal` writes objects only -/

@[simp] theorem State.setVal_pending (s : State) (oid : Nat) (v : Val) : (s.setVal oid v).pending = s.pending := rfl
@[simp] theorem State.setVal_out (s : State) (oid : Nat) (v : Val) : (s.setVal oid v).out = s.out := rfl
@[simp] theorem State.setVal_now (s : State) (oid : Nat) (v : Val) : (s.setVal oid v).now = s.now := rfl
@[simp] theorem State.setVal_up (s : State) (oid : Nat) (v : Val) : (s.setVal oid v).up = s.up := rfl
@[simp] theorem State.setVal_refclk (s : State) (oid : Nat) (v : Val) : (s.setVal oid v).refclk = s.refclk := rfl
@[simp] theorem State.setVal_sysHeld (s : State) (oid : Nat) (v : Val) : (s.setVal oid v).sysHeld = s.sysHeld := rfl
@[simp] theorem State.setVal_node (s : State) (oid : Nat) (v : Val) : (s.setVal oid v).node = s.node := rfl
@[simp] theorem State.setVal_ring (s : State) (oid : Nat) (v : Val) : (s.setVal oid v).ring = s.ring := rfl
@[simp] theorem State.setVal_events (s : State) (oid : Nat) (v : Val) : (s.setVal oid v).events = s.events := rfl
@[simp] theorem State.setVal_store (s : State) (oid : Nat) (v : Val) : (s.setVal oid v).store = s.store := rfl
@[simp] theorem State.setVal_journal (s : State) (oid : Nat) (v : Val) : (s.setVal oid v).journal = s.journal := rfl
@[simp] theorem State.setVal_facets (s : State) (oid : Nat) (v : Val) : (s.setVal oid v).facets = s.facets := rfl
@[simp] theorem State.setVal_engines (s : State) (oid : Nat) (v : Val) : (s.setVal oid v).engines = s.engines := rfl
@[simp] theorem State.setVal_refused (s : State) (oid : Nat) (v : Val) : (s.setVal oid v).refused = s.refused := rfl
@[simp] theorem State.setVal_stations (s : State) (oid : Nat) (v : Val) : (s.setVal oid v).stations = s.stations := rfl
@[simp] theorem State.setVal_streams (s : State) (oid : Nat) (v : Val) : (s.setVal oid v).streams = s.streams := rfl
@[simp] theorem State.setVal_jigs (s : State) (oid : Nat) (v : Val) : (s.setVal oid v).jigs = s.jigs := rfl
@[simp] theorem State.setVal_jigTable (s : State) (oid : Nat) (v : Val) : (s.setVal oid v).jigTable = s.jigTable := rfl
@[simp] theorem State.setVal_converts (s : State) (oid : Nat) (v : Val) : (s.setVal oid v).converts = s.converts := rfl
@[simp] theorem State.setVal_contexts (s : State) (oid : Nat) (v : Val) : (s.setVal oid v).contexts = s.contexts := rfl
@[simp] theorem State.setVal_library (s : State) (oid : Nat) (v : Val) : (s.setVal oid v).library = s.library := rfl
@[simp] theorem State.setVal_ctxDesc (s : State) (oid : Nat) (v : Val) : (s.setVal oid v).ctxDesc = s.ctxDesc := rfl
@[simp] theorem State.setVal_needed (s : State) (oid : Nat) (v : Val) : (s.setVal oid v).needed = s.needed := rfl
@[simp] theorem State.setVal_cache (s : State) (oid : Nat) (v : Val) : (s.setVal oid v).cache = s.cache := rfl
@[simp] theorem State.setVal_batches (s : State) (oid : Nat) (v : Val) : (s.setVal oid v).batches = s.batches := rfl
@[simp] theorem State.setVal_sessions (s : State) (oid : Nat) (v : Val) : (s.setVal oid v).sessions = s.sessions := rfl
@[simp] theorem State.setVal_requests (s : State) (oid : Nat) (v : Val) : (s.setVal oid v).requests = s.requests := rfl
@[simp] theorem State.setVal_tasks (s : State) (oid : Nat) (v : Val) : (s.setVal oid v).tasks = s.tasks := rfl
@[simp] theorem State.setVal_nextOrder (s : State) (oid : Nat) (v : Val) : (s.setVal oid v).nextOrder = s.nextOrder := rfl
@[simp] theorem State.setVal_tables (s : State) (oid : Nat) (v : Val) : (s.setVal oid v).tables = s.tables := rfl
@[simp] theorem State.setVal_busyRaised (s : State) (oid : Nat) (v : Val) : (s.setVal oid v).busyRaised = s.busyRaised := rfl
@[simp] theorem State.setVal_fullRaised (s : State) (oid : Nat) (v : Val) : (s.setVal oid v).fullRaised = s.fullRaised := rfl
@[simp] theorem State.setVal_kvRaised (s : State) (oid : Nat) (v : Val) : (s.setVal oid v).kvRaised = s.kvRaised := rfl
@[simp] theorem State.setVal_held (s : State) (oid : Nat) (v : Val) : (s.setVal oid v).held = s.held := rfl
@[simp] theorem State.setVal_sampled (s : State) (oid : Nat) (v : Val) : (s.setVal oid v).sampled = s.sampled := rfl
@[simp] theorem State.setVal_sampledFrom (s : State) (oid : Nat) (v : Val) : (s.setVal oid v).sampledFrom = s.sampledFrom := rfl
@[simp] theorem State.setVal_setArmed (s : State) (oid : Nat) (v : Val) : (s.setVal oid v).setArmed = s.setArmed := rfl
@[simp] theorem State.setVal_checkAt (s : State) (oid : Nat) (v : Val) : (s.setVal oid v).checkAt = s.checkAt := rfl
@[simp] theorem State.setVal_outside (s : State) (oid : Nat) (v : Val) : (s.setVal oid v).outside = s.outside := rfl
@[simp] theorem State.setVal_frameInAt (s : State) (oid : Nat) (v : Val) : (s.setVal oid v).frameInAt = s.frameInAt := rfl
@[simp] theorem State.setVal_peers (s : State) (oid : Nat) (v : Val) : (s.setVal oid v).peers = s.peers := rfl
@[simp] theorem State.setVal_gang (s : State) (oid : Nat) (v : Val) : (s.setVal oid v).gang = s.gang := rfl
@[simp] theorem State.setVal_eyes (s : State) (oid : Nat) (v : Val) : (s.setVal oid v).eyes = s.eyes := rfl
@[simp] theorem State.setVal_light (s : State) (oid : Nat) (v : Val) : (s.setVal oid v).light = s.light := rfl
@[simp] theorem State.setVal_maint (s : State) (oid : Nat) (v : Val) : (s.setVal oid v).maint = s.maint := rfl
@[simp] theorem State.setVal_power (s : State) (oid : Nat) (v : Val) : (s.setVal oid v).power = s.power := rfl
@[simp] theorem State.setVal_life (s : State) (oid : Nat) (v : Val) : (s.setVal oid v).life = s.life := rfl
@[simp] theorem State.setVal_analog (s : State) (oid : Nat) (v : Val) : (s.setVal oid v).analog = s.analog := rfl
@[simp] theorem State.setVal_boot (s : State) (oid : Nat) (v : Val) : (s.setVal oid v).boot = s.boot := rfl
@[simp] theorem State.setVal_quiesce (s : State) (oid : Nat) (v : Val) : (s.setVal oid v).quiesce = s.quiesce := rfl
@[simp] theorem State.setVal_quiesceAt (s : State) (oid : Nat) (v : Val) : (s.setVal oid v).quiesceAt = s.quiesceAt := rfl
@[simp] theorem State.setVal_mem (s : State) (oid : Nat) (v : Val) : (s.setVal oid v).mem = s.mem := rfl
@[simp] theorem State.setVal_free (s : State) (oid : Nat) (v : Val) : (s.setVal oid v).free = s.free := rfl

/-! ### `State.setNum` writes objects only -/

@[simp] theorem State.setNum_pending (s : State) (oid v : Nat) : (s.setNum oid v).pending = s.pending := rfl
@[simp] theorem State.setNum_out (s : State) (oid v : Nat) : (s.setNum oid v).out = s.out := rfl
@[simp] theorem State.setNum_now (s : State) (oid v : Nat) : (s.setNum oid v).now = s.now := rfl
@[simp] theorem State.setNum_up (s : State) (oid v : Nat) : (s.setNum oid v).up = s.up := rfl
@[simp] theorem State.setNum_refclk (s : State) (oid v : Nat) : (s.setNum oid v).refclk = s.refclk := rfl
@[simp] theorem State.setNum_sysHeld (s : State) (oid v : Nat) : (s.setNum oid v).sysHeld = s.sysHeld := rfl
@[simp] theorem State.setNum_node (s : State) (oid v : Nat) : (s.setNum oid v).node = s.node := rfl
@[simp] theorem State.setNum_ring (s : State) (oid v : Nat) : (s.setNum oid v).ring = s.ring := rfl
@[simp] theorem State.setNum_events (s : State) (oid v : Nat) : (s.setNum oid v).events = s.events := rfl
@[simp] theorem State.setNum_store (s : State) (oid v : Nat) : (s.setNum oid v).store = s.store := rfl
@[simp] theorem State.setNum_journal (s : State) (oid v : Nat) : (s.setNum oid v).journal = s.journal := rfl
@[simp] theorem State.setNum_facets (s : State) (oid v : Nat) : (s.setNum oid v).facets = s.facets := rfl
@[simp] theorem State.setNum_engines (s : State) (oid v : Nat) : (s.setNum oid v).engines = s.engines := rfl
@[simp] theorem State.setNum_refused (s : State) (oid v : Nat) : (s.setNum oid v).refused = s.refused := rfl
@[simp] theorem State.setNum_stations (s : State) (oid v : Nat) : (s.setNum oid v).stations = s.stations := rfl
@[simp] theorem State.setNum_streams (s : State) (oid v : Nat) : (s.setNum oid v).streams = s.streams := rfl
@[simp] theorem State.setNum_jigs (s : State) (oid v : Nat) : (s.setNum oid v).jigs = s.jigs := rfl
@[simp] theorem State.setNum_jigTable (s : State) (oid v : Nat) : (s.setNum oid v).jigTable = s.jigTable := rfl
@[simp] theorem State.setNum_converts (s : State) (oid v : Nat) : (s.setNum oid v).converts = s.converts := rfl
@[simp] theorem State.setNum_contexts (s : State) (oid v : Nat) : (s.setNum oid v).contexts = s.contexts := rfl
@[simp] theorem State.setNum_library (s : State) (oid v : Nat) : (s.setNum oid v).library = s.library := rfl
@[simp] theorem State.setNum_ctxDesc (s : State) (oid v : Nat) : (s.setNum oid v).ctxDesc = s.ctxDesc := rfl
@[simp] theorem State.setNum_needed (s : State) (oid v : Nat) : (s.setNum oid v).needed = s.needed := rfl
@[simp] theorem State.setNum_cache (s : State) (oid v : Nat) : (s.setNum oid v).cache = s.cache := rfl
@[simp] theorem State.setNum_batches (s : State) (oid v : Nat) : (s.setNum oid v).batches = s.batches := rfl
@[simp] theorem State.setNum_sessions (s : State) (oid v : Nat) : (s.setNum oid v).sessions = s.sessions := rfl
@[simp] theorem State.setNum_requests (s : State) (oid v : Nat) : (s.setNum oid v).requests = s.requests := rfl
@[simp] theorem State.setNum_tasks (s : State) (oid v : Nat) : (s.setNum oid v).tasks = s.tasks := rfl
@[simp] theorem State.setNum_nextOrder (s : State) (oid v : Nat) : (s.setNum oid v).nextOrder = s.nextOrder := rfl
@[simp] theorem State.setNum_tables (s : State) (oid v : Nat) : (s.setNum oid v).tables = s.tables := rfl
@[simp] theorem State.setNum_busyRaised (s : State) (oid v : Nat) : (s.setNum oid v).busyRaised = s.busyRaised := rfl
@[simp] theorem State.setNum_fullRaised (s : State) (oid v : Nat) : (s.setNum oid v).fullRaised = s.fullRaised := rfl
@[simp] theorem State.setNum_kvRaised (s : State) (oid v : Nat) : (s.setNum oid v).kvRaised = s.kvRaised := rfl
@[simp] theorem State.setNum_held (s : State) (oid v : Nat) : (s.setNum oid v).held = s.held := rfl
@[simp] theorem State.setNum_sampled (s : State) (oid v : Nat) : (s.setNum oid v).sampled = s.sampled := rfl
@[simp] theorem State.setNum_sampledFrom (s : State) (oid v : Nat) : (s.setNum oid v).sampledFrom = s.sampledFrom := rfl
@[simp] theorem State.setNum_setArmed (s : State) (oid v : Nat) : (s.setNum oid v).setArmed = s.setArmed := rfl
@[simp] theorem State.setNum_checkAt (s : State) (oid v : Nat) : (s.setNum oid v).checkAt = s.checkAt := rfl
@[simp] theorem State.setNum_outside (s : State) (oid v : Nat) : (s.setNum oid v).outside = s.outside := rfl
@[simp] theorem State.setNum_frameInAt (s : State) (oid v : Nat) : (s.setNum oid v).frameInAt = s.frameInAt := rfl
@[simp] theorem State.setNum_peers (s : State) (oid v : Nat) : (s.setNum oid v).peers = s.peers := rfl
@[simp] theorem State.setNum_gang (s : State) (oid v : Nat) : (s.setNum oid v).gang = s.gang := rfl
@[simp] theorem State.setNum_eyes (s : State) (oid v : Nat) : (s.setNum oid v).eyes = s.eyes := rfl
@[simp] theorem State.setNum_light (s : State) (oid v : Nat) : (s.setNum oid v).light = s.light := rfl
@[simp] theorem State.setNum_maint (s : State) (oid v : Nat) : (s.setNum oid v).maint = s.maint := rfl
@[simp] theorem State.setNum_power (s : State) (oid v : Nat) : (s.setNum oid v).power = s.power := rfl
@[simp] theorem State.setNum_life (s : State) (oid v : Nat) : (s.setNum oid v).life = s.life := rfl
@[simp] theorem State.setNum_analog (s : State) (oid v : Nat) : (s.setNum oid v).analog = s.analog := rfl
@[simp] theorem State.setNum_boot (s : State) (oid v : Nat) : (s.setNum oid v).boot = s.boot := rfl
@[simp] theorem State.setNum_quiesce (s : State) (oid v : Nat) : (s.setNum oid v).quiesce = s.quiesce := rfl
@[simp] theorem State.setNum_quiesceAt (s : State) (oid v : Nat) : (s.setNum oid v).quiesceAt = s.quiesceAt := rfl
@[simp] theorem State.setNum_mem (s : State) (oid v : Nat) : (s.setNum oid v).mem = s.mem := rfl
@[simp] theorem State.setNum_free (s : State) (oid v : Nat) : (s.setNum oid v).free = s.free := rfl

/-! ### `State.setBlob` writes objects only -/

@[simp] theorem State.setBlob_pending (s : State) (oid : Nat) (b : Bytes) : (s.setBlob oid b).pending = s.pending := rfl
@[simp] theorem State.setBlob_out (s : State) (oid : Nat) (b : Bytes) : (s.setBlob oid b).out = s.out := rfl
@[simp] theorem State.setBlob_now (s : State) (oid : Nat) (b : Bytes) : (s.setBlob oid b).now = s.now := rfl
@[simp] theorem State.setBlob_up (s : State) (oid : Nat) (b : Bytes) : (s.setBlob oid b).up = s.up := rfl
@[simp] theorem State.setBlob_refclk (s : State) (oid : Nat) (b : Bytes) : (s.setBlob oid b).refclk = s.refclk := rfl
@[simp] theorem State.setBlob_sysHeld (s : State) (oid : Nat) (b : Bytes) : (s.setBlob oid b).sysHeld = s.sysHeld := rfl
@[simp] theorem State.setBlob_node (s : State) (oid : Nat) (b : Bytes) : (s.setBlob oid b).node = s.node := rfl
@[simp] theorem State.setBlob_ring (s : State) (oid : Nat) (b : Bytes) : (s.setBlob oid b).ring = s.ring := rfl
@[simp] theorem State.setBlob_events (s : State) (oid : Nat) (b : Bytes) : (s.setBlob oid b).events = s.events := rfl
@[simp] theorem State.setBlob_store (s : State) (oid : Nat) (b : Bytes) : (s.setBlob oid b).store = s.store := rfl
@[simp] theorem State.setBlob_journal (s : State) (oid : Nat) (b : Bytes) : (s.setBlob oid b).journal = s.journal := rfl
@[simp] theorem State.setBlob_facets (s : State) (oid : Nat) (b : Bytes) : (s.setBlob oid b).facets = s.facets := rfl
@[simp] theorem State.setBlob_engines (s : State) (oid : Nat) (b : Bytes) : (s.setBlob oid b).engines = s.engines := rfl
@[simp] theorem State.setBlob_refused (s : State) (oid : Nat) (b : Bytes) : (s.setBlob oid b).refused = s.refused := rfl
@[simp] theorem State.setBlob_stations (s : State) (oid : Nat) (b : Bytes) : (s.setBlob oid b).stations = s.stations := rfl
@[simp] theorem State.setBlob_streams (s : State) (oid : Nat) (b : Bytes) : (s.setBlob oid b).streams = s.streams := rfl
@[simp] theorem State.setBlob_jigs (s : State) (oid : Nat) (b : Bytes) : (s.setBlob oid b).jigs = s.jigs := rfl
@[simp] theorem State.setBlob_jigTable (s : State) (oid : Nat) (b : Bytes) : (s.setBlob oid b).jigTable = s.jigTable := rfl
@[simp] theorem State.setBlob_converts (s : State) (oid : Nat) (b : Bytes) : (s.setBlob oid b).converts = s.converts := rfl
@[simp] theorem State.setBlob_contexts (s : State) (oid : Nat) (b : Bytes) : (s.setBlob oid b).contexts = s.contexts := rfl
@[simp] theorem State.setBlob_library (s : State) (oid : Nat) (b : Bytes) : (s.setBlob oid b).library = s.library := rfl
@[simp] theorem State.setBlob_ctxDesc (s : State) (oid : Nat) (b : Bytes) : (s.setBlob oid b).ctxDesc = s.ctxDesc := rfl
@[simp] theorem State.setBlob_needed (s : State) (oid : Nat) (b : Bytes) : (s.setBlob oid b).needed = s.needed := rfl
@[simp] theorem State.setBlob_cache (s : State) (oid : Nat) (b : Bytes) : (s.setBlob oid b).cache = s.cache := rfl
@[simp] theorem State.setBlob_batches (s : State) (oid : Nat) (b : Bytes) : (s.setBlob oid b).batches = s.batches := rfl
@[simp] theorem State.setBlob_sessions (s : State) (oid : Nat) (b : Bytes) : (s.setBlob oid b).sessions = s.sessions := rfl
@[simp] theorem State.setBlob_requests (s : State) (oid : Nat) (b : Bytes) : (s.setBlob oid b).requests = s.requests := rfl
@[simp] theorem State.setBlob_tasks (s : State) (oid : Nat) (b : Bytes) : (s.setBlob oid b).tasks = s.tasks := rfl
@[simp] theorem State.setBlob_nextOrder (s : State) (oid : Nat) (b : Bytes) : (s.setBlob oid b).nextOrder = s.nextOrder := rfl
@[simp] theorem State.setBlob_tables (s : State) (oid : Nat) (b : Bytes) : (s.setBlob oid b).tables = s.tables := rfl
@[simp] theorem State.setBlob_busyRaised (s : State) (oid : Nat) (b : Bytes) : (s.setBlob oid b).busyRaised = s.busyRaised := rfl
@[simp] theorem State.setBlob_fullRaised (s : State) (oid : Nat) (b : Bytes) : (s.setBlob oid b).fullRaised = s.fullRaised := rfl
@[simp] theorem State.setBlob_kvRaised (s : State) (oid : Nat) (b : Bytes) : (s.setBlob oid b).kvRaised = s.kvRaised := rfl
@[simp] theorem State.setBlob_held (s : State) (oid : Nat) (b : Bytes) : (s.setBlob oid b).held = s.held := rfl
@[simp] theorem State.setBlob_sampled (s : State) (oid : Nat) (b : Bytes) : (s.setBlob oid b).sampled = s.sampled := rfl
@[simp] theorem State.setBlob_sampledFrom (s : State) (oid : Nat) (b : Bytes) : (s.setBlob oid b).sampledFrom = s.sampledFrom := rfl
@[simp] theorem State.setBlob_setArmed (s : State) (oid : Nat) (b : Bytes) : (s.setBlob oid b).setArmed = s.setArmed := rfl
@[simp] theorem State.setBlob_checkAt (s : State) (oid : Nat) (b : Bytes) : (s.setBlob oid b).checkAt = s.checkAt := rfl
@[simp] theorem State.setBlob_outside (s : State) (oid : Nat) (b : Bytes) : (s.setBlob oid b).outside = s.outside := rfl
@[simp] theorem State.setBlob_frameInAt (s : State) (oid : Nat) (b : Bytes) : (s.setBlob oid b).frameInAt = s.frameInAt := rfl
@[simp] theorem State.setBlob_peers (s : State) (oid : Nat) (b : Bytes) : (s.setBlob oid b).peers = s.peers := rfl
@[simp] theorem State.setBlob_gang (s : State) (oid : Nat) (b : Bytes) : (s.setBlob oid b).gang = s.gang := rfl
@[simp] theorem State.setBlob_eyes (s : State) (oid : Nat) (b : Bytes) : (s.setBlob oid b).eyes = s.eyes := rfl
@[simp] theorem State.setBlob_light (s : State) (oid : Nat) (b : Bytes) : (s.setBlob oid b).light = s.light := rfl
@[simp] theorem State.setBlob_maint (s : State) (oid : Nat) (b : Bytes) : (s.setBlob oid b).maint = s.maint := rfl
@[simp] theorem State.setBlob_power (s : State) (oid : Nat) (b : Bytes) : (s.setBlob oid b).power = s.power := rfl
@[simp] theorem State.setBlob_life (s : State) (oid : Nat) (b : Bytes) : (s.setBlob oid b).life = s.life := rfl
@[simp] theorem State.setBlob_analog (s : State) (oid : Nat) (b : Bytes) : (s.setBlob oid b).analog = s.analog := rfl
@[simp] theorem State.setBlob_boot (s : State) (oid : Nat) (b : Bytes) : (s.setBlob oid b).boot = s.boot := rfl
@[simp] theorem State.setBlob_quiesce (s : State) (oid : Nat) (b : Bytes) : (s.setBlob oid b).quiesce = s.quiesce := rfl
@[simp] theorem State.setBlob_quiesceAt (s : State) (oid : Nat) (b : Bytes) : (s.setBlob oid b).quiesceAt = s.quiesceAt := rfl
@[simp] theorem State.setBlob_mem (s : State) (oid : Nat) (b : Bytes) : (s.setBlob oid b).mem = s.mem := rfl
@[simp] theorem State.setBlob_free (s : State) (oid : Nat) (b : Bytes) : (s.setBlob oid b).free = s.free := rfl

/-! ### `State.add` writes objects only -/

@[simp] theorem State.add_pending (s : State) (oid n : Nat) : (s.add oid n).pending = s.pending := rfl
@[simp] theorem State.add_out (s : State) (oid n : Nat) : (s.add oid n).out = s.out := rfl
@[simp] theorem State.add_now (s : State) (oid n : Nat) : (s.add oid n).now = s.now := rfl
@[simp] theorem State.add_up (s : State) (oid n : Nat) : (s.add oid n).up = s.up := rfl
@[simp] theorem State.add_refclk (s : State) (oid n : Nat) : (s.add oid n).refclk = s.refclk := rfl
@[simp] theorem State.add_sysHeld (s : State) (oid n : Nat) : (s.add oid n).sysHeld = s.sysHeld := rfl
@[simp] theorem State.add_node (s : State) (oid n : Nat) : (s.add oid n).node = s.node := rfl
@[simp] theorem State.add_ring (s : State) (oid n : Nat) : (s.add oid n).ring = s.ring := rfl
@[simp] theorem State.add_events (s : State) (oid n : Nat) : (s.add oid n).events = s.events := rfl
@[simp] theorem State.add_store (s : State) (oid n : Nat) : (s.add oid n).store = s.store := rfl
@[simp] theorem State.add_journal (s : State) (oid n : Nat) : (s.add oid n).journal = s.journal := rfl
@[simp] theorem State.add_facets (s : State) (oid n : Nat) : (s.add oid n).facets = s.facets := rfl
@[simp] theorem State.add_engines (s : State) (oid n : Nat) : (s.add oid n).engines = s.engines := rfl
@[simp] theorem State.add_refused (s : State) (oid n : Nat) : (s.add oid n).refused = s.refused := rfl
@[simp] theorem State.add_stations (s : State) (oid n : Nat) : (s.add oid n).stations = s.stations := rfl
@[simp] theorem State.add_streams (s : State) (oid n : Nat) : (s.add oid n).streams = s.streams := rfl
@[simp] theorem State.add_jigs (s : State) (oid n : Nat) : (s.add oid n).jigs = s.jigs := rfl
@[simp] theorem State.add_jigTable (s : State) (oid n : Nat) : (s.add oid n).jigTable = s.jigTable := rfl
@[simp] theorem State.add_converts (s : State) (oid n : Nat) : (s.add oid n).converts = s.converts := rfl
@[simp] theorem State.add_contexts (s : State) (oid n : Nat) : (s.add oid n).contexts = s.contexts := rfl
@[simp] theorem State.add_library (s : State) (oid n : Nat) : (s.add oid n).library = s.library := rfl
@[simp] theorem State.add_ctxDesc (s : State) (oid n : Nat) : (s.add oid n).ctxDesc = s.ctxDesc := rfl
@[simp] theorem State.add_needed (s : State) (oid n : Nat) : (s.add oid n).needed = s.needed := rfl
@[simp] theorem State.add_cache (s : State) (oid n : Nat) : (s.add oid n).cache = s.cache := rfl
@[simp] theorem State.add_batches (s : State) (oid n : Nat) : (s.add oid n).batches = s.batches := rfl
@[simp] theorem State.add_sessions (s : State) (oid n : Nat) : (s.add oid n).sessions = s.sessions := rfl
@[simp] theorem State.add_requests (s : State) (oid n : Nat) : (s.add oid n).requests = s.requests := rfl
@[simp] theorem State.add_tasks (s : State) (oid n : Nat) : (s.add oid n).tasks = s.tasks := rfl
@[simp] theorem State.add_nextOrder (s : State) (oid n : Nat) : (s.add oid n).nextOrder = s.nextOrder := rfl
@[simp] theorem State.add_tables (s : State) (oid n : Nat) : (s.add oid n).tables = s.tables := rfl
@[simp] theorem State.add_busyRaised (s : State) (oid n : Nat) : (s.add oid n).busyRaised = s.busyRaised := rfl
@[simp] theorem State.add_fullRaised (s : State) (oid n : Nat) : (s.add oid n).fullRaised = s.fullRaised := rfl
@[simp] theorem State.add_kvRaised (s : State) (oid n : Nat) : (s.add oid n).kvRaised = s.kvRaised := rfl
@[simp] theorem State.add_held (s : State) (oid n : Nat) : (s.add oid n).held = s.held := rfl
@[simp] theorem State.add_sampled (s : State) (oid n : Nat) : (s.add oid n).sampled = s.sampled := rfl
@[simp] theorem State.add_sampledFrom (s : State) (oid n : Nat) : (s.add oid n).sampledFrom = s.sampledFrom := rfl
@[simp] theorem State.add_setArmed (s : State) (oid n : Nat) : (s.add oid n).setArmed = s.setArmed := rfl
@[simp] theorem State.add_checkAt (s : State) (oid n : Nat) : (s.add oid n).checkAt = s.checkAt := rfl
@[simp] theorem State.add_outside (s : State) (oid n : Nat) : (s.add oid n).outside = s.outside := rfl
@[simp] theorem State.add_frameInAt (s : State) (oid n : Nat) : (s.add oid n).frameInAt = s.frameInAt := rfl
@[simp] theorem State.add_peers (s : State) (oid n : Nat) : (s.add oid n).peers = s.peers := rfl
@[simp] theorem State.add_gang (s : State) (oid n : Nat) : (s.add oid n).gang = s.gang := rfl
@[simp] theorem State.add_eyes (s : State) (oid n : Nat) : (s.add oid n).eyes = s.eyes := rfl
@[simp] theorem State.add_light (s : State) (oid n : Nat) : (s.add oid n).light = s.light := rfl
@[simp] theorem State.add_maint (s : State) (oid n : Nat) : (s.add oid n).maint = s.maint := rfl
@[simp] theorem State.add_power (s : State) (oid n : Nat) : (s.add oid n).power = s.power := rfl
@[simp] theorem State.add_life (s : State) (oid n : Nat) : (s.add oid n).life = s.life := rfl
@[simp] theorem State.add_analog (s : State) (oid n : Nat) : (s.add oid n).analog = s.analog := rfl
@[simp] theorem State.add_boot (s : State) (oid n : Nat) : (s.add oid n).boot = s.boot := rfl
@[simp] theorem State.add_quiesce (s : State) (oid n : Nat) : (s.add oid n).quiesce = s.quiesce := rfl
@[simp] theorem State.add_quiesceAt (s : State) (oid n : Nat) : (s.add oid n).quiesceAt = s.quiesceAt := rfl
@[simp] theorem State.add_mem (s : State) (oid n : Nat) : (s.add oid n).mem = s.mem := rfl
@[simp] theorem State.add_free (s : State) (oid n : Nat) : (s.add oid n).free = s.free := rfl

/-! ### `State.inc` writes objects only -/

@[simp] theorem State.inc_pending (s : State) (oid : Nat) : (s.inc oid).pending = s.pending := rfl
@[simp] theorem State.inc_out (s : State) (oid : Nat) : (s.inc oid).out = s.out := rfl
@[simp] theorem State.inc_now (s : State) (oid : Nat) : (s.inc oid).now = s.now := rfl
@[simp] theorem State.inc_up (s : State) (oid : Nat) : (s.inc oid).up = s.up := rfl
@[simp] theorem State.inc_refclk (s : State) (oid : Nat) : (s.inc oid).refclk = s.refclk := rfl
@[simp] theorem State.inc_sysHeld (s : State) (oid : Nat) : (s.inc oid).sysHeld = s.sysHeld := rfl
@[simp] theorem State.inc_node (s : State) (oid : Nat) : (s.inc oid).node = s.node := rfl
@[simp] theorem State.inc_ring (s : State) (oid : Nat) : (s.inc oid).ring = s.ring := rfl
@[simp] theorem State.inc_events (s : State) (oid : Nat) : (s.inc oid).events = s.events := rfl
@[simp] theorem State.inc_store (s : State) (oid : Nat) : (s.inc oid).store = s.store := rfl
@[simp] theorem State.inc_journal (s : State) (oid : Nat) : (s.inc oid).journal = s.journal := rfl
@[simp] theorem State.inc_facets (s : State) (oid : Nat) : (s.inc oid).facets = s.facets := rfl
@[simp] theorem State.inc_engines (s : State) (oid : Nat) : (s.inc oid).engines = s.engines := rfl
@[simp] theorem State.inc_refused (s : State) (oid : Nat) : (s.inc oid).refused = s.refused := rfl
@[simp] theorem State.inc_stations (s : State) (oid : Nat) : (s.inc oid).stations = s.stations := rfl
@[simp] theorem State.inc_streams (s : State) (oid : Nat) : (s.inc oid).streams = s.streams := rfl
@[simp] theorem State.inc_jigs (s : State) (oid : Nat) : (s.inc oid).jigs = s.jigs := rfl
@[simp] theorem State.inc_jigTable (s : State) (oid : Nat) : (s.inc oid).jigTable = s.jigTable := rfl
@[simp] theorem State.inc_converts (s : State) (oid : Nat) : (s.inc oid).converts = s.converts := rfl
@[simp] theorem State.inc_contexts (s : State) (oid : Nat) : (s.inc oid).contexts = s.contexts := rfl
@[simp] theorem State.inc_library (s : State) (oid : Nat) : (s.inc oid).library = s.library := rfl
@[simp] theorem State.inc_ctxDesc (s : State) (oid : Nat) : (s.inc oid).ctxDesc = s.ctxDesc := rfl
@[simp] theorem State.inc_needed (s : State) (oid : Nat) : (s.inc oid).needed = s.needed := rfl
@[simp] theorem State.inc_cache (s : State) (oid : Nat) : (s.inc oid).cache = s.cache := rfl
@[simp] theorem State.inc_batches (s : State) (oid : Nat) : (s.inc oid).batches = s.batches := rfl
@[simp] theorem State.inc_sessions (s : State) (oid : Nat) : (s.inc oid).sessions = s.sessions := rfl
@[simp] theorem State.inc_requests (s : State) (oid : Nat) : (s.inc oid).requests = s.requests := rfl
@[simp] theorem State.inc_tasks (s : State) (oid : Nat) : (s.inc oid).tasks = s.tasks := rfl
@[simp] theorem State.inc_nextOrder (s : State) (oid : Nat) : (s.inc oid).nextOrder = s.nextOrder := rfl
@[simp] theorem State.inc_tables (s : State) (oid : Nat) : (s.inc oid).tables = s.tables := rfl
@[simp] theorem State.inc_busyRaised (s : State) (oid : Nat) : (s.inc oid).busyRaised = s.busyRaised := rfl
@[simp] theorem State.inc_fullRaised (s : State) (oid : Nat) : (s.inc oid).fullRaised = s.fullRaised := rfl
@[simp] theorem State.inc_kvRaised (s : State) (oid : Nat) : (s.inc oid).kvRaised = s.kvRaised := rfl
@[simp] theorem State.inc_held (s : State) (oid : Nat) : (s.inc oid).held = s.held := rfl
@[simp] theorem State.inc_sampled (s : State) (oid : Nat) : (s.inc oid).sampled = s.sampled := rfl
@[simp] theorem State.inc_sampledFrom (s : State) (oid : Nat) : (s.inc oid).sampledFrom = s.sampledFrom := rfl
@[simp] theorem State.inc_setArmed (s : State) (oid : Nat) : (s.inc oid).setArmed = s.setArmed := rfl
@[simp] theorem State.inc_checkAt (s : State) (oid : Nat) : (s.inc oid).checkAt = s.checkAt := rfl
@[simp] theorem State.inc_outside (s : State) (oid : Nat) : (s.inc oid).outside = s.outside := rfl
@[simp] theorem State.inc_frameInAt (s : State) (oid : Nat) : (s.inc oid).frameInAt = s.frameInAt := rfl
@[simp] theorem State.inc_peers (s : State) (oid : Nat) : (s.inc oid).peers = s.peers := rfl
@[simp] theorem State.inc_gang (s : State) (oid : Nat) : (s.inc oid).gang = s.gang := rfl
@[simp] theorem State.inc_eyes (s : State) (oid : Nat) : (s.inc oid).eyes = s.eyes := rfl
@[simp] theorem State.inc_light (s : State) (oid : Nat) : (s.inc oid).light = s.light := rfl
@[simp] theorem State.inc_maint (s : State) (oid : Nat) : (s.inc oid).maint = s.maint := rfl
@[simp] theorem State.inc_power (s : State) (oid : Nat) : (s.inc oid).power = s.power := rfl
@[simp] theorem State.inc_life (s : State) (oid : Nat) : (s.inc oid).life = s.life := rfl
@[simp] theorem State.inc_analog (s : State) (oid : Nat) : (s.inc oid).analog = s.analog := rfl
@[simp] theorem State.inc_boot (s : State) (oid : Nat) : (s.inc oid).boot = s.boot := rfl
@[simp] theorem State.inc_quiesce (s : State) (oid : Nat) : (s.inc oid).quiesce = s.quiesce := rfl
@[simp] theorem State.inc_quiesceAt (s : State) (oid : Nat) : (s.inc oid).quiesceAt = s.quiesceAt := rfl
@[simp] theorem State.inc_mem (s : State) (oid : Nat) : (s.inc oid).mem = s.mem := rfl
@[simp] theorem State.inc_free (s : State) (oid : Nat) : (s.inc oid).free = s.free := rfl

/-! ### Objects read after a write -/

theorem State.val_setVal_other (s : State) (oid k : Nat) (v : Val) (h : k ≠ oid) : (s.setVal oid v).val k = s.val k :=
  sparseGet_put_other dfltOf s.objs oid k v h

theorem State.val_setVal_self (s : State) (oid : Nat) (v : Val) (h : sparseWf dfltOf s.objs = true) :
    (s.setVal oid v).val oid = v := by
  simp only [sparseWf, Bool.and_eq_true] at h
  exact sparseGet_put_self dfltOf s.objs none oid v h.1

theorem State.setVal_wf (s : State) (oid : Nat) (v : Val) (h : sparseWf dfltOf s.objs = true) :
    sparseWf dfltOf (s.setVal oid v).objs = true := sparsePut_wf dfltOf s.objs oid v h

theorem State.num_setNum_self (s : State) (oid v : Nat) (h : sparseWf dfltOf s.objs = true) : (s.setNum oid v).num oid = v := by
  simp [State.num, State.setNum, State.val_setVal_self s oid _ h, Val.asNum]

theorem State.num_setNum_other (s : State) (oid v k : Nat) (h : k ≠ oid) : (s.setNum oid v).num k = s.num k := by
  simp [State.num, State.setNum, State.val_setVal_other s oid k _ h]

theorem State.blob_setBlob_self (s : State) (oid : Nat) (b : Bytes) (h : sparseWf dfltOf s.objs = true) :
    (s.setBlob oid b).blob oid = b := by
  simp [State.blob, State.setBlob, State.val_setVal_self s oid _ h, Val.asBytes]

/-! ### Events, the store, frames to node 0: everything each can do -/

/-- An event written to one of the queues touches the queues, and EVENTS_DROPPED where that queue is full. -/
theorem State.raiseIn_frame (s : State) (lnk : Bool) (code unit : Nat) (data : Bytes) :
    ∃ o e, s.raiseIn lnk code unit data = { s with objs := o, events := e } := by
  cases lnk
  · by_cases h : 1024 ≤ s.events.sys.recs.length <;> simp only [State.raiseIn, h, decide_true, decide_false, if_true] <;>
      exact ⟨_, _, rfl⟩
  · by_cases h : 32 ≤ s.events.lnk.recs.length <;> simp only [State.raiseIn, h, decide_true, decide_false, if_true] <;>
      exact ⟨_, _, rfl⟩

/-- An event writes the event queues, and EVENTS_DROPPED where its queue is full. -/
theorem State.raise_frame (s : State) (code unit : Nat) (data : Bytes) :
    ∃ o e, s.raise code unit data = { s with objs := o, events := e } := State.raiseIn_frame s _ code unit data

/-- A least or greatest value writes objects only. -/
theorem State.raiseTo_frame (s : State) (oid v : Nat) : ∃ o, s.raiseTo oid v = { s with objs := o } := by
  by_cases h : s.num oid < v <;> simp only [State.raiseTo, h, if_true, if_false] <;> exact ⟨_, rfl⟩

/-- A save writes the store, its counts, an event where it fails, and draws one free value. -/
theorem State.save_frame (s : State) (oid : Nat) :
    ∃ o e st, s.save oid = { s with objs := o, events := e, store := st, free := s.free + 1 } := by
  by_cases h : (!s.store.usable || Config.flashRefuses s.free) = true
  · simp only [State.save, h, if_true]
    obtain ⟨o, e, g⟩ := State.raise_frame (({ s with free := s.free + 1 } : State).inc 0x1010_03) 0x1003 0xFF
      (leBytes 2 (oid / 256) ++ leBytes 1 (oid % 256))
    exact ⟨o, e, _, g⟩
  · simp only [State.save, h]
    exact ⟨_, _, _, rfl⟩

/-- A frame put on a port is counted and sent. -/
theorem emit_frame (s : State) (p : RingPort) (f : Frame) : ∃ o l, emit s p f = { s with objs := o, out := l } := ⟨_, _, rfl⟩

theorem sendOwn_frame (s : State) (f : Frame) : ∃ o l, sendOwn s f = { s with objs := o, out := l } := by
  cases h : ownPort s with
  | none => simp only [sendOwn, h]; exact ⟨_, _, rfl⟩
  | some p => simp only [sendOwn, h]; exact emit_frame _ _ _

theorem pumpTx_frame (n : Nat) (s : State) : ∃ o r l, pumpTx n s = { s with objs := o, ring := r, out := l } := by
  induction n generalizing s with
  | zero => exact ⟨_, _, _, rfl⟩
  | succ n ih =>
    cases hw : s.ring.waiting with
    | nil => simp only [pumpTx, hw]; exact ⟨_, _, _, rfl⟩
    | cons f rest =>
      by_cases hu : 256 ≤ s.ring.unacked.length
      · simp only [pumpTx, hw, hu, if_true]; exact ⟨_, _, _, rfl⟩
      · simp only [pumpTx, hw, hu, if_false]
        generalize hq : sendOwn _ _ = q
        obtain ⟨o, l, h⟩ := hq ▸ sendOwn_frame _ _
        obtain ⟨o', r', l', h'⟩ := ih q
        exact ⟨o', r', l', by rw [h', h]⟩

theorem sendConfirmed_frame (s : State) (type : Nat) (arg payload : Bytes) :
    ∃ o r l, sendConfirmed s type arg payload = { s with objs := o, ring := r, out := l } := by
  obtain ⟨o, r, l, h⟩ := pumpTx_frame 256
    { s with ring := { s.ring with waiting := s.ring.waiting ++ [ownFrame s type 1 0 arg payload] } }
  exact ⟨o, r, l, h⟩

/-- A PARAM_RESP touches the frames' state, the port's counter and what has been sent: nothing else. -/
theorem sendResp_frame (s : State) (x r i k n : Nat) (b : Bytes) :
    ∃ o g l, sendResp s x r i k n b = { s with objs := o, ring := g, out := l } := sendConfirmed_frame _ _ _ _

theorem sendResp_mem (s : State) (x r i k n : Nat) (b : Bytes) : (sendResp s x r i k n b).mem = s.mem := by
  obtain ⟨_, _, _, h⟩ := sendResp_frame s x r i k n b
  rw [h]

theorem State.raise_mem (s : State) (code unit : Nat) (data : Bytes) : (s.raise code unit data).mem = s.mem := by
  obtain ⟨_, _, h⟩ := State.raise_frame s code unit data
  rw [h]

theorem State.save_mem (s : State) (oid : Nat) : (s.save oid).mem = s.mem := by
  obtain ⟨_, _, _, h⟩ := State.save_frame s oid
  rw [h]

/-! ### What events, counts and saves do to objects -/

theorem State.add_wf (s : State) (oid n : Nat) (h : sparseWf dfltOf s.objs = true) : sparseWf dfltOf (s.add oid n).objs = true :=
  State.setVal_wf _ _ _ h

theorem State.inc_wf (s : State) (oid : Nat) (h : sparseWf dfltOf s.objs = true) : sparseWf dfltOf (s.inc oid).objs = true :=
  State.add_wf _ _ _ h

theorem State.raise_wf (s : State) (code unit : Nat) (data : Bytes) (h : sparseWf dfltOf s.objs = true) :
    sparseWf dfltOf (s.raise code unit data).objs = true := by
  unfold State.raise State.raiseIn; dsimp only
  (repeat' split) <;> first | exact State.inc_wf _ _ h | exact h

theorem State.save_wf (s : State) (oid : Nat) (h : sparseWf dfltOf s.objs = true) : sparseWf dfltOf (s.save oid).objs = true := by
  unfold State.save; dsimp only
  split
  · exact State.raise_wf _ _ _ _ (State.inc_wf _ _ h)
  · exact State.inc_wf _ _ h

theorem State.num_add_self (s : State) (oid n : Nat) (h : sparseWf dfltOf s.objs = true) :
    (s.add oid n).num oid = (s.num oid + n) % 2 ^ (objTy oid).bits := State.num_setNum_self _ _ _ h

theorem State.num_add_other (s : State) (oid n k : Nat) (h : k ≠ oid) : (s.add oid n).num k = s.num k :=
  State.num_setNum_other _ _ _ _ h

theorem State.num_inc_other (s : State) (oid k : Nat) (h : k ≠ oid) : (s.inc oid).num k = s.num k := State.num_add_other _ _ _ _ h

/-- An event changes EVENTS_DROPPED at most. -/
theorem State.num_raise_other (s : State) (code unit : Nat) (data : Bytes) (k : Nat) (h : k ≠ 0x1100_0C) :
    (s.raise code unit data).num k = s.num k := by
  unfold State.raise State.raiseIn; dsimp only
  (repeat' split) <;> first | exact State.num_inc_other _ _ _ h | rfl

/-- A save changes the store's counts and EVENTS_DROPPED at most. -/
theorem State.num_save_other (s : State) (oid k : Nat) (h : k ≠ 0x1100_0C) (h2 : k ≠ 0x1010_02) (h3 : k ≠ 0x1010_03) :
    (s.save oid).num k = s.num k := by
  unfold State.save; dsimp only
  split
  · rw [State.num_raise_other _ _ _ _ _ h, State.num_inc_other _ _ _ h3]; rfl
  · rw [State.num_inc_other _ _ _ h2]; rfl

end Sys2Proof.Machine
end

