-- ==== Sys2Proof/Laws/Journal.lean ====
section
/-! SUPPORT. Journal.lean: where an entry is appended, what an append leaves alone, and what a relocation keeps (R485, R486). -/

namespace Sys2Proof.Machine

/-- The value of a position that holds no entry. -/
abbrev jNone : Nat → JEntry := fun _ => mkEntry 0 0 0 0 []

/-- A position that a live entry holds. -/
def jHeld (p : JPart) (pos : Nat) : Bool := p.entries.any fun e => e.1 == pos && e.2.live

/-- `n` positions from `pos` on are all held, or the one found is free. -/
theorem jFreeFrom_cases (p : JPart) (n pos : Nat) :
    jHeld p (jFreeFrom p n pos) = false ∨ ∀ i < n, jHeld p (if i = 0 then pos else (pos + i) % jPositions) = true := by
  induction n generalizing pos with
  | zero => exact .inr fun i h => absurd h (Nat.not_lt_zero i)
  | succ n ih =>
    by_cases h : jHeld p pos = true
    · have e : jFreeFrom p (n + 1) pos = jFreeFrom p n ((pos + 1) % jPositions) := by
        simp only [jFreeFrom]; exact if_pos h
      rw [e]
      rcases ih ((pos + 1) % jPositions) with g | g
      · exact .inl g
      · refine .inr fun i hi => ?_
        rcases i with _ | i
        · exact h
        · have gi := g i (by omega)
          simp only [Nat.add_eq_zero_iff, Nat.one_ne_zero, and_false, if_false]
          by_cases hz : i = 0
          · simpa [hz] using gi
          · simpa [hz, Nat.add_assoc, Nat.add_comm 1 i] using gi
    · have e : jFreeFrom p (n + 1) pos = pos := by simp only [jFreeFrom]; exact if_neg h
      rw [e]; exact .inl (by simpa using h)

theorem keys_nodup {α : Type} (l : List (Nat × α)) (b : Option Nat) (h : ascending b l = true) :
    (l.map Prod.fst).Nodup ∧ ∀ m, b = some m → ∀ k ∈ l.map Prod.fst, m < k := by
  induction l generalizing b with
  | nil => simp
  | cons e l ih =>
    simp only [ascending, Bool.and_eq_true] at h
    obtain ⟨a, c⟩ := ih _ h.2
    refine ⟨List.nodup_cons.mpr ⟨fun m => Nat.lt_irrefl _ (c e.1 rfl _ m), a⟩, ?_⟩
    rintro m rfl k hk
    have h1 : m < e.1 := by simpa using h.1
    rcases List.mem_cons.mp hk with rfl | hk
    · exact h1
    · exact Nat.lt_trans h1 (c e.1 rfl k hk)

/-- From any position, `n` steps around `n` positions meet each at most once. -/
theorem around_inj (n pos : Nat) : Set.InjOn (fun i => if i = 0 then pos else (pos + i) % n) (Finset.range n) := by
  have key : ∀ a b, a < n → b < n → (pos + a) % n = (pos + b) % n → a = b := fun a b ha hb h =>
    Nat.ModEq.eq_of_lt_of_lt (Nat.ModEq.add_left_cancel' pos h) ha hb
  have zero : ∀ b, b < n → pos = (pos + b) % n → 0 = b := fun b hb h => by
    have hp : pos < n := h ▸ Nat.mod_lt _ (by omega)
    exact key 0 b (by omega) hb (by rw [Nat.add_zero, Nat.mod_eq_of_lt hp]; exact h)
  intro a ha b hb hab
  have ha : a < n := by simpa using ha
  have hb : b < n := by simpa using hb
  by_cases h0 : a = 0 <;> by_cases h1 : b = 0 <;> simp only [h0, h1, if_true, if_false] at hab ⊢
  · exact zero b hb hab
  · exact absurd (zero a ha hab.symm).symm h0
  · exact key a b ha hb hab

/-- While a position is free, the one found is. -/
theorem jFreeFrom_free (p : JPart) (hw : sparseWf jNone p.entries = true) (hu : jUsed p < jPositions) :
    jHeld p (jFreeFrom p jPositions p.head) = false := by
  rcases jFreeFrom_cases p jPositions p.head with h | h
  · exact h
  · exfalso
    have nd : ((p.entries.filter fun e => e.2.live).map Prod.fst).Nodup := by
      simp only [sparseWf, Bool.and_eq_true] at hw
      exact (keys_nodup _ none hw.1).1.sublist (List.Sublist.map _ List.filter_sublist)
    let f : Nat → Nat := fun i => if i = 0 then p.head else (p.head + i) % jPositions
    have sub : (Finset.range jPositions).image f ⊆ ((p.entries.filter fun e => e.2.live).map Prod.fst).toFinset := by
      intro k hk
      obtain ⟨i, hi, rfl⟩ := Finset.mem_image.mp hk
      have := h i (Finset.mem_range.mp hi)
      simp only [jHeld, List.any_eq_true, Bool.and_eq_true, beq_iff_eq] at this
      obtain ⟨e, he, h1, h2⟩ := this
      exact List.mem_toFinset.mpr (List.mem_map.mpr ⟨e, List.mem_filter.mpr ⟨he, h2⟩, h1⟩)
    have inj : Set.InjOn f (Finset.range jPositions) := around_inj jPositions p.head
    have c1 : ((Finset.range jPositions).image f).card = jPositions := by
      rw [Finset.card_image_of_injOn inj, Finset.card_range]
    have c2 := Finset.card_le_card sub
    rw [c1, List.toFinset_card_of_nodup nd, List.length_map] at c2
    exact absurd hu (Nat.not_lt.mpr c2)

/-- Every listed pair but that of the position written stays listed. -/
theorem mem_sparsePut_other {α : Type} [DecidableEq α] (d : Nat → α) (l : List (Nat × α)) (k : Nat) (v : α) (e : Nat × α)
    (h : e ∈ l) (hk : e.1 ≠ k) : e ∈ sparsePut d l k v := by
  induction l with
  | nil => cases h
  | cons a l ih =>
    simp only [sparsePut]
    split
    · split
      · exact h
      · exact List.mem_cons_of_mem _ h
    · split
      · rename_i _ hak
        have hl : e ∈ l := by
          rcases List.mem_cons.mp h with rfl | hl
          · exact absurd hak hk
          · exact hl
        split
        · exact hl
        · exact List.mem_cons_of_mem _ hl
      · rcases List.mem_cons.mp h with rfl | hl
        · exact List.mem_cons_self
        · exact List.mem_cons_of_mem _ (ih hl)

/-- The pair written is listed, unless it is the default. -/
theorem mem_sparsePut_self {α : Type} [DecidableEq α] (d : Nat → α) (l : List (Nat × α)) (k : Nat) (v : α) (h : v ≠ d k) :
    (k, v) ∈ sparsePut d l k v := by
  induction l with
  | nil => simp [sparsePut, h]
  | cons a l ih =>
    simp only [sparsePut, h, if_false]
    split
    · exact List.mem_cons_self
    · split
      · exact List.mem_cons_self
      · exact List.mem_cons_of_mem _ ih

/-! ### What an append touches -/

theorem peerOut_journal (s : State) (p : PeerPort) (f : PeerFrame) : (peerOut s p f).journal = s.journal := rfl

theorem peerSend_journal (s : State) (p : PeerPort) (f : PeerFrame) : (peerSend s p f).journal = s.journal := by
  unfold peerSend; dsimp only
  split
  · cases f.via <;> rfl
  · rfl

theorem sendTo_journal (s t : State) (o y fl c : Nat) (a b : Bytes) (h : sendTo s o y fl c a b = some t) :
    t.journal = s.journal := by
  unfold sendTo sendFreeing at h
  split at h
  · cases h
  · cases h; exact peerSend_journal _ _ _

theorem raise_journal (s : State) (code unit : Nat) (data : Bytes) : (s.raise code unit data).journal = s.journal := by
  obtain ⟨o, e, h⟩ := State.raise_frame s code unit data
  rw [h]

theorem mirrorLost_journal (s : State) (c : Nat) : (mirrorLost s c).journal = s.journal := by
  unfold mirrorLost
  split
  · rfl
  · rw [raise_journal]; rfl

theorem mirrorAppend_journal (s : State) (pos : Nat) : (mirrorAppend s pos).journal = s.journal := by
  unfold mirrorAppend mirrorSend
  split
  · split
    · rfl
    · split
      · exact mirrorLost_journal _ _
      · rename_i h; exact (sendTo_journal _ _ _ _ _ _ _ _ h : _)
  · rfl

/-- A choice among states of one partition has that partition. -/
theorem ite_own (c : Prop) [Decidable c] (a b : State) (p : JPart) (ha : a.journal.own = p) (hb : b.journal.own = p) :
    (if c then a else b).journal.own = p := by
  by_cases h : c <;> simp only [h, if_true, if_false, ha, hb]

theorem journalMark_own (s : State) : (journalMark s).journal.own = s.journal.own := by
  unfold journalMark
  refine ite_own _ _ _ _ (ite_own _ _ _ _ rfl ?_) (ite_own _ _ _ _ rfl rfl)
  rw [raise_journal]; rfl

/-- An append writes one entry at a position that no live entry holds, and moves the head behind it. -/
theorem jAppend_own (s t : State) (e : JEntry) (hw : sparseWf jNone s.journal.own.entries = true) (h : jAppend s e = some t) :
    ∃ pos, jHeld s.journal.own pos = false ∧ t.journal.own = { jPut s.journal.own pos e with head := (pos + 1) % jPositions } := by
  unfold jAppend at h; dsimp only at h
  split at h
  · cases h
  · rename_i hu
    cases h
    refine ⟨_, jFreeFrom_free _ hw (Nat.lt_of_not_le hu), ?_⟩
    rw [journalMark_own, mirrorAppend_journal]; rfl

/-- An append keeps the canonical form and every live entry, and lists the entry appended. -/
theorem jAppend_keeps (s t : State) (e : JEntry) (hw : sparseWf jNone s.journal.own.entries = true) (h : jAppend s e = some t) :
    sparseWf jNone t.journal.own.entries = true ∧
    (∀ x ∈ s.journal.own.entries, x.2.live = true → x ∈ t.journal.own.entries) ∧
    (e ≠ jNone 0 → ∃ pos, (pos, e) ∈ t.journal.own.entries ∧ jHeld s.journal.own pos = false) := by
  obtain ⟨pos, hp, ho⟩ := jAppend_own s t e hw h
  rw [ho]
  refine ⟨sparsePut_wf jNone _ _ _ hw, fun x hx hl => mem_sparsePut_other _ _ _ _ _ hx ?_,
    fun he => ⟨pos, mem_sparsePut_self jNone _ pos e he, hp⟩⟩
  rintro rfl
  simp only [jHeld, List.any_eq_false, Bool.and_eq_true, beq_iff_eq, not_and] at hp
  exact hp x hx rfl hl

end Sys2Proof.Machine
end

