-- ==== Sys2Proof/Laws/Restart.lean ====
section
/-! SUPPORT. Restart.lean: what the restore of saved values and a change of a unit mask touch (R38, R441). -/

namespace Sys2Proof.Machine

/-- Values put in turn at keys of `only` leave every other key. -/
theorem foldl_setVal_frame (only : Nat → Bool) (l : List (Nat × Val)) (hl : ∀ e ∈ l, only e.1 = true) (s : State)
    (hw : sparseWf dfltOf s.objs = true) :
    ∃ o, l.foldl (fun s e => s.setVal e.1 e.2) s = { s with objs := o } ∧ sparseWf dfltOf o = true ∧
      ∀ k, only k = false → sparseGet dfltOf o k = s.val k := by
  induction l generalizing s with
  | nil => exact ⟨_, rfl, hw, fun _ _ => rfl⟩
  | cons e l ih =>
    obtain ⟨o, h1, h2, h3⟩ := ih (fun x hx => hl x (List.mem_cons_of_mem _ hx)) (s.setVal e.1 e.2) (State.setVal_wf _ _ _ hw)
    refine ⟨o, h1, h2, fun k hk => (h3 k hk).trans (State.val_setVal_other _ _ _ _ ?_)⟩
    rintro rfl
    rw [hl e List.mem_cons_self] at hk; cases hk

/-- The restore touches the entries it is asked for only, and keeps the canonical form. -/
theorem applySaved_frame (s : State) (only : Nat → Bool) (hw : sparseWf dfltOf s.objs = true) :
    ∃ o, applySaved s only = { s with objs := o } ∧ sparseWf dfltOf o = true ∧
      ∀ k, only k = false → sparseGet dfltOf o k = s.val k := by
  unfold applySaved
  split
  · exact ⟨_, rfl, hw, fun _ _ => rfl⟩
  · refine foldl_setVal_frame only _ (fun e he => ?_) s hw
    have h := (List.mem_filter.mp he).2
    simp only [Bool.and_eq_true] at h; exact h.1

/-- A unit mask set changes its own entry, EVENTS_DROPPED and the event queues at most. -/
theorem setUnits_frame (s : State) (sub mask : Nat) : ∃ o e, s.setUnits sub mask = { s with objs := o, events := e } ∧
    ∀ k, k ≠ 0x1100_0C → k ≠ 0x0020_00 + sub → (s.setUnits sub mask).num k = s.num k := by
  unfold State.setUnits; dsimp only
  split
  · exact ⟨_, _, rfl, fun _ _ _ => rfl⟩
  · obtain ⟨o, e, h⟩ := State.raise_frame (s.setNum (0x002000 + sub) mask) 0xB010 0xFF
      (leBytes 1 sub ++ leBytes ((objTy (0x002000 + sub)).bits / 8) (s.num (0x002000 + sub)) ++
        leBytes ((objTy (0x002000 + sub)).bits / 8) mask)
    exact ⟨o, e, h, fun k h1 h2 => by rw [State.num_raise_other _ _ _ _ _ h1, State.num_setNum_other _ _ _ _ h2]⟩

end Sys2Proof.Machine
end

