-- ==== Sys2Proof/Laws/Safe.lean ====
section
/-! SUPPORT. Safe.lean: what entering Safe leaves (R434, R499). -/

namespace Sys2Proof.Machine

/-- `t` is `s` but for objects, events, the store and the count of free values. -/
def RecordsOnly (s t : State) : Prop :=
  ∃ o e st fr, t = { s with objs := o, events := e, store := st, free := fr }

theorem RecordsOnly.refl (s : State) : RecordsOnly s s := ⟨_, _, _, _, rfl⟩

theorem RecordsOnly.trans {a b c : State} : RecordsOnly a b → RecordsOnly b c → RecordsOnly a c := by
  rintro ⟨_, _, _, _, rfl⟩ ⟨_, _, _, _, rfl⟩; exact ⟨_, _, _, _, rfl⟩

/-- What two states that differ in their records only share. -/
theorem RecordsOnly.same {s t : State} (h : RecordsOnly s t) : t.node = s.node ∧ t.refclk = s.refclk ∧ t.light = s.light ∧
    t.analog = s.analog ∧ t.tasks = s.tasks := by
  obtain ⟨_, _, _, _, rfl⟩ := h; exact ⟨rfl, rfl, rfl, rfl, rfl⟩

theorem lightEnable_of_light {s t : State} (h : t.light = s.light) (i : Fin 2) : lightEnable t i = lightEnable s i := by
  simp only [lightEnable, inputOf, h]

theorem RecordsOnly.setNum (s : State) (k v : Nat) : RecordsOnly s (s.setNum k v) := ⟨_, _, _, _, rfl⟩

theorem RecordsOnly.inc (s : State) (k : Nat) : RecordsOnly s (s.inc k) := ⟨_, _, _, _, rfl⟩

theorem RecordsOnly.raise (s : State) (code unit : Nat) (data : Bytes) : RecordsOnly s (s.raise code unit data) := by
  obtain ⟨o, e, h⟩ := s.raise_frame code unit data; rw [h]; exact ⟨_, _, _, _, rfl⟩

theorem RecordsOnly.save (s : State) (oid : Nat) : RecordsOnly s (s.save oid) := by
  obtain ⟨o, e, st, h⟩ := s.save_frame oid; rw [h]; exact ⟨_, _, _, _, rfl⟩

theorem RecordsOnly.addSaved (s : State) (oid n : Nat) : RecordsOnly s (s.addSaved oid n) :=
  (RecordsOnly.setNum s _ _).trans (RecordsOnly.save _ _)

theorem RecordsOnly.faultSafe (s : State) : RecordsOnly s s.faultSafe :=
  ((RecordsOnly.addSaved _ _ _).trans (RecordsOnly.setNum _ _ _)).trans (RecordsOnly.setNum _ _ _)

/-! ### The light-enable line of an input -/

/-- An input dark: objects, events and the inputs change, the amplifiers do not. -/
theorem darkInput_frame (s : State) (i : Fin 2) :
    ∃ o e l, darkInput s i = { s with objs := o, events := e, light := l } ∧ l.amps = s.light.amps := by
  unfold darkInput setInput; dsimp only; split
  · split
    · exact ⟨_, _, _, rfl, rfl⟩
    · obtain ⟨o, e, h⟩ := State.raise_frame (modInput s i fun x => { x with state := .opened }) 0x7010 0xFF
        (leBytes 1 i.val ++ leBytes 1 (inputOf s i).state.code ++ leBytes 1 InputState.opened.code)
      exact ⟨o, e, _, h, rfl⟩
  · exact ⟨_, _, _, rfl, rfl⟩

/-- Its line is off; the other input's is as before. -/
theorem darkInput_lightEnable (s : State) (i : Fin 2) :
    lightEnable (darkInput s i) i = false ∧ ∀ j, j ≠ i → lightEnable (darkInput s i) j = lightEnable s j := by
  unfold darkInput
  split
  · rename_i h
    unfold setInput; dsimp only
    split
    · rename_i h2; simp [lightEnable, h2] at h
    · obtain ⟨o, e, h3⟩ := State.raise_frame (modInput s i fun x => { x with state := .opened }) 0x7010 0xFF
        (leBytes 1 i.val ++ leBytes 1 (inputOf s i).state.code ++ leBytes 1 InputState.opened.code)
      refine ⟨?_, ?_⟩
      · rw [h3]; simp [lightEnable, inputOf, modInput, modLight]
      · intro j hj; rw [h3]
        have : i.val ≠ j.val := fun h => hj (Fin.ext h.symm)
        simp [lightEnable, inputOf, modInput, modLight, this]
  · rename_i h
    exact ⟨by simpa using h, fun _ _ => rfl⟩

theorem num_darkInput (s : State) (i : Fin 2) (k : Nat) (h : k ≠ 0x1100_0C) : (darkInput s i).num k = s.num k := by
  unfold darkInput setInput; dsimp only; split
  · split
    · rfl
    · rw [State.num_raise_other _ _ _ _ _ h]; rfl
  · rfl

theorem darkInput_wf (s : State) (i : Fin 2) (h : sparseWf dfltOf s.objs = true) : sparseWf dfltOf (darkInput s i).objs = true := by
  unfold darkInput setInput; dsimp only; split
  · split
    · exact h
    · exact State.raise_wf _ _ _ _ h
  · exact h

/-- Both inputs dark. -/
def darkBoth (s : State) : State := darkInput (darkInput s 0) 1

theorem darkBoth_eq (s : State) : (List.finRange 2).foldl darkInput s = darkBoth s := rfl

theorem darkBoth_frame (s : State) :
    ∃ o e l, darkBoth s = { s with objs := o, events := e, light := l } ∧ l.amps = s.light.amps := by
  obtain ⟨o, e, l, h, a⟩ := darkInput_frame s 0
  obtain ⟨o2, e2, l2, h2, a2⟩ := darkInput_frame (darkInput s 0) 1
  refine ⟨o2, e2, l2, ?_, ?_⟩
  · show darkInput (darkInput s 0) 1 = _
    rw [h2, h]
  · rw [a2, h]; exact a

theorem darkBoth_lightEnable (s : State) (i : Fin 2) : lightEnable (darkBoth s) i = false := by
  obtain ⟨g, g'⟩ := darkInput_lightEnable (darkInput s 0) 1
  have : i = 0 ∨ i = 1 := by omega
  rcases this with rfl | rfl
  · exact (g' 0 (by decide)).trans (darkInput_lightEnable s 0).1
  · exact g

/-! ### Safe -/

theorem dropExpert_records (s : State) : RecordsOnly s (dropExpert s) := by
  unfold dropExpert; split
  · exact (RecordsOnly.setNum _ _ _).trans (RecordsOnly.raise _ _ _ _)
  · exact RecordsOnly.refl _

theorem dropExpert_wf (s : State) (h : sparseWf dfltOf s.objs = true) : sparseWf dfltOf (dropExpert s).objs = true := by
  unfold dropExpert; split
  · exact State.raise_wf _ _ _ _ (State.setVal_wf _ _ _ h)
  · exact h

theorem num_dropExpert (s : State) (k : Nat) (h : k ≠ 0x1100_0C) (h2 : k ≠ 0x1F00_02) : (dropExpert s).num k = s.num k := by
  unfold dropExpert; split
  · rw [State.num_raise_other _ _ _ _ _ h, State.num_setNum_other _ _ _ _ h2]
  · rfl

/-- What Safe turns off: passes, amplifiers, outputs, playbacks and converters. -/
def safeOff (a : State) : State := { a with
  facets := a.facets.map darkFacet
  light := { a.light with amps := Vector.replicate 2 0, changing := [] }
  analog := { a.analog with
    outs := []
    plays := []
    convs := a.analog.convs.map fun (c : Conv) => { c with stopped := true, urgent := [], urgentRunning := false }
    exts := a.analog.exts.map fun (e : ExtOut) => { e with step := 0, service := false } }
  quiesce := 0 }

theorem enterSafe_eq (s : State) (cause : Nat) (hn : s.node ≠ .safe) : enterSafe s cause =
    setNode (((darkBoth ((safeOff (dropExpert s)).setNum 0x7010_07 0)).setNum 0x1000_02 0).setNum 0x1000_04 cause).faultSafe
      .safe cause := by
  unfold enterSafe; rw [if_neg hn]; rfl

theorem setNode_records (s : State) (n : NodeState) (cause : Nat) : RecordsOnly { s with node := n } (setNode s n cause) :=
  ((RecordsOnly.setNum _ _ _).trans (RecordsOnly.inc _ _)).trans (RecordsOnly.raise _ _ _ _)

/-- Safe's record of itself changes objects, events, the store and the node state only. -/
theorem enterSafe_records (s : State) (cause : Nat) (hn : s.node ≠ .safe) :
    RecordsOnly { darkBoth ((safeOff (dropExpert s)).setNum 0x7010_07 0) with node := .safe } (enterSafe s cause) := by
  rw [enterSafe_eq s cause hn]
  generalize darkBoth ((safeOff (dropExpert s)).setNum 0x7010_07 0) = d
  refine RecordsOnly.trans ?_ (setNode_records _ _ _)
  obtain ⟨_, _, _, _, h⟩ := ((RecordsOnly.setNum d 0x1000_02 0).trans (RecordsOnly.setNum _ 0x1000_04 cause)).trans
    (RecordsOnly.faultSafe _)
  rw [h]; exact ⟨_, _, _, _, rfl⟩

/-- Entering Safe: light and outputs off, converters stopped; tasks and the reference clock as they were. -/
theorem enterSafe_off (s : State) (cause : Nat) (hn : s.node ≠ .safe) :
    (enterSafe s cause).node = .safe ∧ (enterSafe s cause).refclk = s.refclk ∧
    (enterSafe s cause).light.amps = Vector.replicate 2 0 ∧ (enterSafe s cause).analog.outs = [] ∧
    (enterSafe s cause).tasks = s.tasks ∧ (∀ i, lightEnable (enterSafe s cause) i = false) ∧
    ∀ k : Fin 4, (enterSafe s cause).analog.convs[k].stopped = true ∧ (enterSafe s cause).analog.convs[k].urgent = [] := by
  obtain ⟨n, r, l, an, ta⟩ := (enterSafe_records s cause hn).same
  obtain ⟨_, xr, _, _, xt⟩ := (dropExpert_records s).same
  generalize hb : (safeOff (dropExpert s)).setNum 0x7010_07 0 = b at n r l an ta
  have br : b.refclk = s.refclk := by rw [← hb, ← xr]; rfl
  have bt : b.tasks = s.tasks := by rw [← hb, ← xt]; rfl
  have bo : b.analog.outs = [] := by rw [← hb]; rfl
  have ba : b.light.amps = Vector.replicate 2 0 := by rw [← hb]; rfl
  have bc : ∀ k : Fin 4, b.analog.convs[k].stopped = true ∧ b.analog.convs[k].urgent = [] := by
    intro k; rw [← hb]; simp [safeOff]
  obtain ⟨o, e, g, hd, ha⟩ := darkBoth_frame b
  have dr : (darkBoth b).refclk = b.refclk := by rw [hd]
  have dt : (darkBoth b).tasks = b.tasks := by rw [hd]
  have da : (darkBoth b).analog = b.analog := by rw [hd]
  have dl : (darkBoth b).light.amps = b.light.amps := by rw [hd]; exact ha
  exact ⟨n, r.trans (dr.trans br), (congrArg Light.amps l).trans (dl.trans ba), (congrArg Analog.outs (an.trans da)).trans bo,
    ta.trans (dt.trans bt), fun i => (lightEnable_of_light l i).trans (darkBoth_lightEnable b i), by rw [an.trans da]; exact bc⟩

theorem num_setNode_other (s : State) (n : NodeState) (cause k : Nat) (h1 : k ≠ 0x1100_0C) (h2 : k ≠ 0x1000_06) (h3 : k ≠ 0x1000_08) :
    (setNode s n cause).num k = s.num k := by
  unfold setNode; dsimp only
  rw [State.num_raise_other _ _ _ _ _ h1, State.num_inc_other _ _ _ h3, State.num_setNum_other _ _ _ _ h2]; rfl

theorem num_lastFault_other (s : State) (cls k : Nat) (h1 : k ≠ 0xB000_07) (h2 : k ≠ 0xB000_08) :
    (s.lastFault cls).num k = s.num k := by
  unfold State.lastFault
  rw [State.num_setNum_other _ _ _ _ h2, State.num_setNum_other _ _ _ _ h1]

theorem num_faultSafe_other (s : State) (k : Nat) (h1 : k ≠ 0x1100_0C) (h2 : k ≠ 0x1010_02) (h3 : k ≠ 0x1010_03)
    (h4 : k ≠ 0xB000_06) (h5 : k ≠ 0xB000_07) (h6 : k ≠ 0xB000_08) : s.faultSafe.num k = s.num k := by
  unfold State.faultSafe
  rw [num_lastFault_other _ _ _ h5 h6]
  unfold State.addSaved
  rw [State.num_save_other _ _ _ h1 h2 h3, State.num_add_other _ _ _ _ h4]

theorem num_darkBoth (s : State) (k : Nat) (h : k ≠ 0x1100_0C) : (darkBoth s).num k = s.num k := by
  unfold darkBoth; rw [num_darkInput _ _ _ h, num_darkInput _ _ _ h]

theorem darkBoth_wf (s : State) (h : sparseWf dfltOf s.objs = true) : sparseWf dfltOf (darkBoth s).objs = true :=
  darkInput_wf _ _ (darkInput_wf _ _ h)

theorem num_safeOff (s : State) (k : Nat) : (safeOff s).num k = s.num k := rfl

/-- Entering Safe leaves every other object as it was. -/
theorem num_enterSafe (s : State) (cause k : Nat) (hn : s.node ≠ .safe)
    (hk : k ∉ [0x1100_0C, 0x1000_02, 0x1000_04, 0x1000_06, 0x1000_08, 0x1010_02, 0x1010_03, 0x1F00_02, 0x7010_07, 0xB000_06,
      0xB000_07, 0xB000_08]) : (enterSafe s cause).num k = s.num k := by
  simp only [List.mem_cons, List.not_mem_nil, or_false, not_or] at hk
  obtain ⟨h1, h2, h3, h4, h5, h6, h7, h8, h9, h10, h11, h12⟩ := hk
  rw [enterSafe_eq s cause hn, num_setNode_other _ _ _ _ h1 h4 h5, num_faultSafe_other _ _ h1 h6 h7 h10 h11 h12,
    State.num_setNum_other _ _ _ _ h3, State.num_setNum_other _ _ _ _ h2, num_darkBoth _ _ h1, State.num_setNum_other _ _ _ _ h9,
    num_safeOff, num_dropExpert s k h1 h8]

/-- Entering Safe notes its cause. -/
theorem enterSafe_cause (s : State) (cause : Nat) (hn : s.node ≠ .safe) (hw : sparseWf dfltOf s.objs = true) :
    (enterSafe s cause).num 0x1000_04 = cause := by
  have hw1 : sparseWf dfltOf ((safeOff (dropExpert s)).setNum 0x7010_07 0).objs = true := State.setVal_wf _ _ _ (dropExpert_wf s hw)
  have hw2 := State.setVal_wf _ 0x1000_02 (.num 0) (darkBoth_wf _ hw1)
  rw [enterSafe_eq s cause hn]
  generalize (darkBoth ((safeOff (dropExpert s)).setNum 0x7010_07 0)) = d at hw2
  rw [num_setNode_other _ _ _ _ (by decide) (by decide) (by decide),
    num_faultSafe_other _ _ (by decide) (by decide) (by decide) (by decide) (by decide) (by decide)]
  exact State.num_setNum_self _ _ _ hw2

end Sys2Proof.Machine
end

