-- ==== Sys2Proof/Tests/Slice0.lean ====
section
/-! SUPPORT. Slice0.lean: the model's own tests: ill-formed commands refused, worked examples of the manual, and for the
statements with hypotheses a state and operands that meet them, clause by clause. -/

namespace Sys2Proof.Tests

open Sys2Proof Sys2Proof.Machine

set_option Elab.async false

/-! ## Small states and operands -/

/-- A device in a node state, at its start otherwise. -/
def inNode (n : NodeState) : State := { State.reset with node := n }

def serving : State := inNode .serving

def zeros (n : Nat) : Bytes := List.replicate n 0#8

/-- A frame of the Kangeiz ring with nothing in it. -/
def frame0 : Frame :=
  { type := 0, flags := 0, hops := 128, dest := 0, src := 0, path := 0, seq := 0, ringId := 0, arg := zeros 16, length := 0,
    payload := [] }

/-- A task graph without keys and values, and one without work. -/
def kv0 : KvShape := { layers := 0, width := 0, format := 3, onStacks := [] }
def graph0 : TaskGraph :=
  { jsn := 0, task := 5, cls := .fill, context := 1, copy := 7, kLanes := 128, bothI8 := false, streams := [], edges := [],
    homedNode := false, phases := [], engines := [], kv := kv0, blocks := [], altA := [], altB := [],
    checkpoints := [], batchMax := 1, outputs := 1, parts := [] }

def stream0 : StreamDesc :=
  { eic := 0, stream := 3, task := 5, cls := .slot, producer := 0, multicast := false, escape := false, poolBase := 0,
    poolBlocks := 64, escapeBlocks := 0, maxBuffer := 16, lagBudget := 0, catchupBlocks := 0, catchupJig := 0,
    receivers := [(32, 0)] }

/-- A command word from its fields: value and lowest bit. -/
def word (l : List (Nat × Nat)) : BitVec 128 := BitVec.ofNat 128 (l.foldl (fun a f => a + f.1 * 2 ^ f.2) 0)

/-- An admitted task of context 1. -/
def task0 (num : Nat) : Task :=
  { num := num, jsn := 1, cls := .stream, context := 1, copy := 7, graph := graph0, order := 0, start := 0, cert := 0, bound := 0,
    vflags := 0, unitFlags := [], progressAt := 0, gang := none, ordinal := 0, inexact := false, checks := [],
    items := [], path := [], output := [], sampled := [] }

/-- I8 weights and activations of task 5. -/
def bind0 : Binding := { context := 1, copy := 7, operand := 2, wFormat := 3, aFormat := 3, task := 5 }

/-- The state with one command at the head of engine e's priority queue. -/
def headed (s : State) (e : Nat) (w : BitVec 128) : State :=
  modQueue s e true fun q => { q with cmds := [w], binding := some bind0 }

/-- The conditions of AtHead, as a test. -/
def atHead (s : State) (e : Nat) (w : BitVec 128) : Bool :=
  headOf s e true == some w && ((engineN s e).queue true).binding == some bind0 && reservedOk w && !vectorDips s e

/-! ## Ill-formed commands -/

theorem test_wf_frame_without_arg : (Instr.ringFrameReceive 0 { frame0 with arg := [] }).wf = false := by decide
theorem test_wf_frame_length : (Instr.ringFrameReceive 0 { frame0 with length := 65536 }).wf = false := by decide
theorem test_wf_frame : (Instr.ringFrameReceive 0 frame0).wf = true := by decide
theorem test_wf_param_total : (Instr.paramWrite 0 0x1001 1 (2 ^ 32) []).wf = false := by decide
theorem test_wf_seg_offset : (Instr.paramSeg 0 (2 ^ 32) 1 []).wf = false := by decide
theorem test_wf_graph_number : (Instr.taskAdmission { graph0 with task := 65535 }).wf = false := by decide
theorem test_wf_graph_order : (Instr.taskAdmission { graph0 with phases := [{ kind := .planeLoad, engine := none, preds := [0] }] }).wf = false := by
  decide
theorem test_wf_graph_stream : (Instr.taskAdmission { graph0 with streams := [{ stream0 with eic := 8 }] }).wf = false := by decide
theorem test_wf_graph : (Instr.taskAdmission { graph0 with streams := [stream0] }).wf = true := by decide
theorem test_wf_verdict_row : (Instr.passVerdict 0 [(520, 1)]).wf = false := by decide
theorem test_wf_confirmation_row : (Instr.confirmationVerdict 0 [(520, 1)]).wf = false := by decide
/-- A header of a peer frame with nothing in it. -/
def peer0 : PeerHdr :=
  { flags := 0, srcOrd := 1, destOrd := 0, hops := 1, channel := 0, seq := 0, ackSeq := 0, ringId := 0, creditField := 0 }

theorem test_wf_credit : (Instr.credit 0 peer0 (List.replicate 33 0)).wf = false := by decide
theorem test_wf_batch_task : (Instr.batchIssue 1 0 [65536]).wf = false := by decide
theorem test_wf_retire_unit : (Instr.unitRetireStart 0 549317).wf = false := by decide
theorem test_wf_scrub_unit : (Instr.patrolScrub .hbm 8 0 .clean).wf = false := by decide
theorem test_wf_scrub_address : (Instr.patrolScrub .shelf 0 134217728 .clean).wf = false := by decide
theorem test_wf_pmbus : (Instr.railGood 4 4).wf = false := by decide
theorem test_wf_relocate : (Instr.journalRelocate 0).wf = false := by decide
theorem test_wf_payload : (Instr.svcReq 0 (zeros 4097)).wf = false := by decide +kernel

/-! ## Worked examples of the manual -/

/-- R153: facet commands put their fields where its table says (PASS: RUN_LEN 64 at bit 67, MODE 01b at bit 82, TILE_VECS 64 at
bit 103). -/
theorem test_pass_fields : let w := word [(0x10, 0), (5, 9), (64, 67), (1, 82), (64, 103)]
    (cmdOp w, srcField w, passLen w, passMode w, passTileVecs w) = (0x10, 5, 64, 1, 64) := by decide

/-- R61: the two passes of its example. -/
theorem test_r61_good : (verdictOf ([4, 5, 3] ++ List.replicate 509 0 ++ [3, 3, 8, 4])).accepted = true := by decide +kernel
theorem test_r61_bad : (verdictOf ([4, 6, 3] ++ List.replicate 509 0 ++ [3, 3, 8, 4])).word = 0x21 := by decide +kernel

/-- R59: the weights of rows 0 to 7. -/
theorem test_r59 : (List.range 8).map girdleWeight = [1, 2, 2, 1, 2, 1, 1, 2] := by decide

/-- R267: its stamp. -/
theorem test_r267 : stamp64 ((3 * 1024 + 512) * 307200 + 153600) = 0x70025800 := by decide
theorem test_r267_back : stampTicks 0x70025800 = some ((3 * 1024 + 512) * 307200 + 153600) := by decide
theorem test_r267_malformed : stampTicks 307200 = none := by decide

/-- R128: the scaled and the wide root of its example. -/
def p0 (m : Mode) : Elem := elemStart m 80 3
def p1 (m : Mode) : Elem := elemStart m 10 5
def p2 (m : Mode) : Elem := elemStart m 80 (-3)
def p3 (m : Mode) : Elem := elemStart m 0 7
theorem test_r128_half : let r := elemMerge .scaled (p0 .scaled) (p1 .scaled)
    (r.mag, r.exp, r.inexact) = (3 * 2 ^ 61, 19, true) := by decide +kernel
def scaledRoot : Elem := elemMerge .scaled (elemMerge .scaled (p0 .scaled) (p1 .scaled)) (elemMerge .scaled (p2 .scaled) (p3 .scaled))
def wideRoot : Elem := elemMerge .wide (elemMerge .wide (p0 .wide) (p1 .wide)) (elemMerge .wide (p2 .wide) (p3 .wide))
theorem test_r128_scaled : (scaledRoot.mag, scaledRoot.inexact) = (0, true) := by decide +kernel
theorem test_r128_wide : (wideRoot.mag, wideRoot.exp, wideRoot.inexact) = (5127 * 2 ^ 45, -45, false) := by decide +kernel

/-- R170: 1 + 2^-24 in FP32 rounds to even. -/
theorem test_r170_ties : (fadd 0x3F800000 0x33800000).1 = 0x3F800000 := by decide +kernel
theorem test_r170_nan : (fadd 0x7F800000 0xFF800000).1 = 0x7FC00000 := by decide +kernel

/-! ## Facet sequencers: each clause of a statement has operands that meet its hypotheses -/

/-- Facet 0 changed in a state. -/
def facet0 (s : State) (g : Facet → Facet) : State := modFacet s 0 g

/-- A plane of shelf place 5. -/
def plane5 : Plane :=
  { Plane.zeros with
    id := { PlaneId.zeros with src := 5, zero := false, context := 1, copy := 7, operand := 2, format := 3 }
    task := 5 }

/-- A facet whose elements at slots 0 to 7 are complete and belong to task 5. -/
def ready (m : Mode) (x : Facet) : Facet :=
  (List.range (8 / modeSlots m)).foldl (fun x i =>
    setMeta x (modeSlots m * i)
      { state := .complete, mode := m, inTree := 0, owner := 5, closing := false, part := false, rowTile := 0 }) x

theorem witness_StepRunsFrontCommand :
    { State.reset with pending := [Instr.frameStart] }.pending = [Instr.frameStart] ∧ State.reset.pending = [] := by decide

def wPreload9 : BitVec 128 := word [(2, 0)]
def wPass9 : BitVec 128 := word [(0x10, 0), (9, 9)]
def wFlip8 : BitVec 128 := word [(3, 0), (8, 9)]
def wFence8 : BitVec 128 := word [(0x30, 0)]
def wBind : BitVec 128 := word [(1, 0), (1, 8), (7, 20), (2, 52), (3, 84), (3, 87), (5, 90)]

theorem witness_EnqueueAndBind : let s := headed serving 0 wBind
    headOf s 0 true = some wBind ∧ cmdOp wBind = 0x01 ∧ reservedOk wBind = true ∧ (bindOf wBind).aFormat ≠ 0 ∧
    ((engineN s 0).queue true).binding = some bind0 ∧ bind0.task = (bindOf wBind).task ∧ bindOf wBind = bind0 ∧
    cmdOp wBind = 1 ∧ vectorDips s 0 = false ∧ (let u := { serving with tasks := [task0 5] }
      findTask u (bindOf wBind).task = some (task0 5) ∧ ((task0 5).cls = .fill ↔ false = true) ∧
      enqueues u 0 false wBind = false) := by decide +kernel

/-- Operand 2 of copy 7, active in slot A of context 1, with its record of trit 0 pinned at place 9 of pair 0. -/
def pin9 : Pin := { pair := 0, place := 9, operand := 2, rowTile := 0, chunk := 0, trit := 0 }
def pinnedCtx : Ctx := { noCtx with state := .serving, slotA := { emptySlot with state := .current, copyId := 7, pins := [pin9] } }
def sPinned : State := { headed serving 0 0 with contexts := [(1, pinnedCtx)] }
def qPinned : CmdQueue := (engineN sPinned 0).own true

theorem witness_EnqueueAndBind_places :
    enqueues sPinned 0 true wPreload9 = true ∧ qPinned.cmds.length < 256 ∧ lastBinding qPinned = some bind0 ∧
    placesOf sPinned 0 bind0 = [pin9] ∧ srcKind wPreload9 = 0 ∧ cmdOp wPreload9 = 0x02 ∧
    (preRowTile wPreload9, preChunk wPreload9, preTrit wPreload9) = (pin9.rowTile, pin9.chunk, pin9.trit) ∧
    cmdOp wPass9 = 0x10 ∧ pin9.place = srcField wPass9 ∧ pin9.trit = passTrit wPass9 ∧ enqueues sPinned 0 true wPass9 = true ∧
    (cmdOp wFlip8 = 0x03 ∧ flipZeroBit wFlip8 = false ∧ pin9.place ≠ srcField wFlip8 ∧ enqueues sPinned 0 true wFlip8 = true) ∧
    cmdOp wFence8 ∉ [0x02, 0x03, 0x10] := by decide +kernel

def wPreload : BitVec 128 := word [(2, 0), (8737, 9)]

theorem witness_PreloadFromShelf : let s := headed serving 0 wPreload
    atHead s 0 wPreload = true ∧ cmdOp wPreload = 0x02 ∧ srcKind wPreload = 0 ∧ srcField wPreload < 8738 ∧
    srcField wPreload ∉ withdrawn s 0 ∧ shadowBusy (facetN s 0) true = false ∧
    (checkRead s .shelf 0 (srcField wPreload * recordBytes) recordBytes).2 = none ∧
    (let u := facet0 s fun x => { x with swapping := true }
     shadowBusy (facetN u 0) true = true) ∧
    (let u := addErr s (shelfBase 0 + srcField wPreload * recordBytes) .uncorrectable
     (checkRead u .shelf 0 (srcField wPreload * recordBytes) recordBytes).2 = some (8737 * recordBytes)) := by decide +kernel

def wFlip : BitVec 128 := word [(3, 0), (5, 9)]
def wFlipZero : BitVec 128 := word [(3, 0), (1, 23)]

theorem witness_FlipAsksForShadowPlane :
    (let s := facet0 (headed serving 0 wFlip) fun x => { x with shadow := some { plane := plane5, loaded := true } }
     atHead s 0 wFlip = true ∧ cmdOp wFlip = 0x03 ∧ flipZeroBit wFlip = false ∧ srcBad s 0 wFlip = false ∧
     (facetN s 0).shadow = some { plane := plane5, loaded := true } ∧ (facetN s 0).restoring = false ∧ plane5.named (srcKind wFlip) (srcField wFlip) = true) ∧
    (let s := headed serving 0 wFlipZero
     atHead s 0 wFlipZero = true ∧ cmdOp wFlipZero = 0x03 ∧ flipZeroBit wFlipZero = true ∧ srcKind wFlipZero = 0 ∧
     srcField wFlipZero = 0 ∧ (facetN s 0).shadow = none ∧ shadowBusy (facetN s 0) true = false) := by decide +kernel

/-- PASS on place 5 over two vectors at IN_Q 3 under tag 5Ah. -/
def wPass : BitVec 128 := word [(0x10, 0), (5, 9), (3, 31), (0x5A, 36), (2, 67), (1, 79), (1, 80), (16, 84), (2, 103)]
def item0 : QItem := { handle := biscuitHandle 0x5A 256 0, eic := 0, stream := 3, buf := 0 }
def sPass (w : BitVec 128) : State := setQueue (facet0 (headed serving 0 w) fun x => { x with active := plane5 }) 0 3 [item0]

/-- The same with MERGE into slots 2 and 3. -/
def wPassMerge : BitVec 128 := wPass + word [(1, 81), (2, 92)]

/-- The hypotheses on a PASS of task 5 at facet 0 with one tile in its queue. -/
def PassReady (s : State) (w : BitVec 128) : Prop :=
  atHead s 0 w = true ∧ cmdOp w = 0x10 ∧ srcBad s 0 w = false ∧ passLen w ≠ 0 ∧ passLen w ≤ 2048 ∧ passTileVecs w ≠ 0 ∧
  passTileVecs w ≤ 2048 ∧ passMode w ≠ 3 ∧ (facetN s 0).active.bound w bind0 = true ∧ ((engineN s 0).queue true).running = none ∧ (facetN s 0).restoring = false ∧
  passTrit w = (facetN s 0).active.id.trit ∧ passDigit w < fmtDigits bind0.aFormat ∧
  ((passMode w == 0) = (!fmtScaled bind0.wFormat && !fmtScaled bind0.aFormat)) ∧
  passFirstVec w + passLen w ≤ passTileVecs w ∧ rangeOk (modeSlots (modeOf (passMode w))) (passSlot w) (passLen w) = true ∧
  (passMerge w = true → passLast w = true ∧
    rangeOk (modeSlots (modeOf (passMode w))) (passMergeDst w) (passLen w) = true) ∧
  freeItems s 0 (passInQ w) = [item0] ∧ (checkItem s item0).2 = none ∧ handleTag item0.handle = passInTag w ∧
  tileLenOk bind0.aFormat (passTileVecs w) item0.handle = true

theorem witness_PassStartsItsRun : PassReady (sPass wPass) wPass := by unfold PassReady; decide +kernel
theorem witness_PassStartsItsRun_merge : PassReady (sPass wPassMerge) wPassMerge ∧ passMerge wPassMerge = true := by
  unfold PassReady; decide +kernel

def wTree : BitVec 128 := word [(0x24, 0), (1, 8), (3, 13)]
def sUnbound : State := modQueue serving 0 true fun q => { q with cmds := [wTree] }

theorem witness_UnboundCommandsDiscarded :
    headOf sUnbound 0 true = some wTree ∧ cmdOp wTree = 0x24 ∧ ((engineN sUnbound 0).queue true).binding = none ∧
    ((engineN sUnbound 0).queue true).unbound = false := by decide +kernel

/-- MERGE of elements 0 to 3 with elements 4 to 7. -/
def wMerge : BitVec 128 := word [(0x21, 0), (4, 19), (4, 30)]
def sMerge : State := facet0 (headed serving 0 wMerge) (ready .integer)

theorem witness_TreeAndMergeBegin :
    (atHead (headed serving 0 wTree) 0 wTree = true ∧ cmdOp wTree = 0x24 ∧
     (treeOf wTree 5).posMask.testBit (treeOf wTree 5).pos = true ∧ (treeOf wTree 5).ordMask = 0) ∧
    (atHead sMerge 0 wMerge = true ∧ cmdOp wMerge = 0x21 ∧ mergeCount wMerge = 4 ∧
     (let x := facetN sMerge 0
      rangeReady x true 5 0 (mergeA wMerge) (mergeCount wMerge) = true ∧
      rangeReady x true 5 0 (mergeB wMerge) (mergeCount wMerge) = true ∧ ((engineN sMerge 0).queue true).scale = 0 ∧
      rangeOk (slotsAt x (mergeA wMerge)) (mergeA wMerge) (mergeCount wMerge) = true ∧
      rangeOk (slotsAt x (mergeA wMerge)) (mergeB wMerge) (mergeCount wMerge) = true ∧
      rangeBad x 5 (mergeA wMerge) (mergeCount wMerge) = none ∧ rangeBad x 5 (mergeB wMerge) (mergeCount wMerge) = none ∧
      modeAt x (mergeA wMerge) = modeAt x (mergeB wMerge))) := by decide +kernel

/-- REDUCE at level 1 of four elements: sent by position 1, gathered by position 0. -/
def wSend : BitVec 128 := word [(0x22, 0), (1, 9), (4, 24)]
def wGather : BitVec 128 := word [(0x22, 0), (1, 8), (1, 9), (4, 24)]
def tree0 (pos : Nat) : TreeDecl := { task := 5, pos := pos, posMask := 3, ordMask := 0 }
def inbound0 : Inbound :=
  { src := 1, prio := true, tag := 0, closed := true, task := 5, level := 1, mode := .integer, count := 4, winners := false,
    values := [] }
def sReduce (w : BitVec 128) (pos : Nat) : State :=
  modFacet (facet0 (headed serving 0 w) fun x => { ready .integer x with trees := [tree0 pos], inbound := [inbound0] }) 1 fun x =>
    { x with trees := [tree0 (1 - pos)] }

/-- The hypotheses that both roles share. -/
def reduceReady (s : State) (w : BitVec 128) (t : TreeDecl) : Bool :=
  atHead s 0 w && cmdOp w == 0x22 && reduceCount w == 4 && reduceLevel w == 1 && treeFor (facetN s 0) 5 == some t &&
  rangeReady (facetN s 0) true 5 ((engineN s 0).queue true).scale (reduceSlot w) (reduceCount w) &&
  rangeOk (slotsAt (facetN s 0) (reduceSlot w)) (reduceSlot w) (reduceCount w) &&
  rangeBad (facetN s 0) 5 (reduceSlot w) (reduceCount w) == none

theorem witness_ReduceBegins :
    (reduceReady (sReduce wSend 1) wSend (tree0 1) = true ∧ reduceRole wSend = 0 ∧
     treeRole (sReduce wSend 1) (tree0 1) 1 = .send 0) ∧
    (reduceReady (sReduce wGather 0) wGather (tree0 0) = true ∧ reduceRole wGather = 1 ∧
     treeRole (sReduce wGather 0) (tree0 0) 1 = .gather 1 ∧
     (let s := sReduce wGather 0
      inboundFrom (facetN s 0) (sourceOf s 5 1 1) true 0 = some inbound0 ∧ inbound0.task = 5 ∧ inbound0.level = reduceLevel wGather ∧
      inbound0.count = reduceCount wGather ∧ inbound0.mode = modeAt (facetN s 0) (reduceSlot wGather))) := by decide +kernel

/-- DRAIN of four elements of 512 rows by OP. -/
def wDrain (op : Nat) : BitVec 128 := word [(0x20, 0), (op, 8), (4, 23), (512, 44), (6, 54)]
def sDrain (op : Nat) : State := facet0 (headed serving 0 (wDrain op)) (ready .integer)

theorem witness_DrainBegins : ∀ op < 3, let w := wDrain op; let s := sDrain op
    atHead s 0 w = true ∧ cmdOp w = 0x20 ∧ drainOp w = op ∧ drainForm w ≠ 3 ∧ drainVecs w ≠ 0 ∧ drainVecs w ≤ 2048 ∧
    drainRows w ≠ 0 ∧ drainRow w + drainRows w ≤ 512 ∧ drainDest w = false ∧ drainGather w = 0 ∧
    bufTooBig (streamInto s 0 5 (drainOutQ w))
      (sumTileBytes (drainForm w) (drainOp w != 0) (if drainOp w = 0 then drainRows w else 1) (drainVecs w)) = false ∧
    rangeReady (facetN s 0) true 5 0 (drainSlot w) (drainVecs w) = true ∧ ((engineN s 0).queue true).scale = 0 ∧
    beingRead (facetN s 0) (drainSlot w) (slotsAt (facetN s 0) (drainSlot w) * drainVecs w) = false ∧
    rangeOk (slotsAt (facetN s 0) (drainSlot w)) (drainSlot w) (drainVecs w) = true ∧
    rangeBad (facetN s 0) 5 (drainSlot w) (drainVecs w) = none ∧
    formAllowed (modeAt (facetN s 0) (drainSlot w)) (drainForm w) = true := by decide +kernel

def wFence : BitVec 128 := word [(0x30, 0), (1, 11), (77, 12)]
def wWait : BitVec 128 := word [(0x31, 0), (307199, 64)]

theorem witness_FenceAndTimeWait :
    (atHead (headed serving 0 wFence) 0 wFence = true ∧ cmdOp wFence = 0x30 ∧ findTask (headed serving 0 wFence) 5 = none) ∧
    (atHead (headed serving 0 wWait) 0 wWait = true ∧ cmdOp wWait = 0x31 ∧ stampTicks (waitStamp wWait) = some 307199 ∧
     waitStrict wWait = false ∧ heldOrStopped (headed serving 0 wWait) 0 = true ∧
     stampBefore serving.now 307199 = true) := by decide +kernel

def run0 : Run :=
  { serial := 0, prio := false, task := 5, plane := plane5.id, tile := [], aFormat := 3, wFormat := 3, tileVecs := 2, digit := 0,
    next := 0, stop := 2, slotNext := 0, first := true, last := true, mode := .integer, merge := false, mergeDst := 0, count := 2,
    slotBase := 0, budget := 1, hold := none, popQ := none, scale := 0 }
def zeroShadow (loaded : Bool) : Shadow := { plane := Plane.zeros, loaded := loaded }
def sLoading : State := facet0 serving fun x => { x with shadow := some (zeroShadow false) }
def sFlip : State :=
  facet0 serving fun x => { x with shadow := some (zeroShadow true), flipWanted := true, lock := .locked }
def sPreempt : State :=
  setQueue (facet0 (headed serving 0 wPass) fun x => { x with active := plane5, lock := .locked, runs := [run0] }) 0 3 [item0]

theorem witness_LoadsFlipsPreemption :
    ((facetN sLoading 0).shadow = some (zeroShadow false) ∧ (zeroShadow false).loaded = false ∧
     (facetN sLoading 0).swapping = false ∧ (zeroShadow false).plane.id.zero = true) ∧
    (flipDue (finishRuns sFlip 0) 0 = true ∧ (facetN (finishRuns sFlip 0) 0).shadow = some (zeroShadow true)) ∧
    (prioReady sPreempt 0 = true ∧ queueRun (facetN sPreempt 0) false = some run0 ∧ (facetN sPreempt 0).preempted = false) := by
  decide +kernel

/-- A symbol on the all-zero plane, whose codes are all 0 (R52). -/
def sym0 (attempt : Nat) : Sym :=
  { run := 0, num := 0, digits := [], plane := PlaneId.zeros, slot := 0, first := true, last := true, mode := .integer, trit := 0, digit := 0,
    offset := 0, ea := 0, attempt := attempt, bad := [], phys := [], stamp := 0, task := 5 }
def sVerdict : State := facet0 serving fun x => { x with inflight := [sym0 1], runs := [{ run0 with plane := PlaneId.zeros }] }

/-- What an attempt of that symbol returns. -/
def zeroCodes (errors : List (Nat × Int)) : List Int :=
  (List.range 516).map fun r => clampCode (((errors.filter fun e => e.1 == r).map fun e => e.2).foldl (· + ·) 0)

theorem zeroCodes_eq (errors : List (Nat × Int)) :
    attemptCodes (facetN sVerdict 0) (exactCodes (planeOf (facetN sVerdict 0) PlaneId.zeros) []) errors = zeroCodes errors := by
  have h : exactCodes (planeOf (facetN sVerdict 0) PlaneId.zeros) [] = List.replicate 516 0 := by decide +kernel
  rw [h]
  exact attemptCodes_zeros _ (by decide +kernel) 516 (Nat.le_refl _) errors

theorem witness_PassVerdicts : let x := facetN sVerdict 0
    let codes := fun errors => attemptCodes x (exactCodes (planeOf x PlaneId.zeros) []) errors
    x.inflight = [sym0 1] ∧ (verdictOf (codes [])).accepted = true ∧ (verdictOf (codes [(7, 1)])).accepted = false ∧
    (sym0 1).attempt = 1 ∧
    (let v := verdictOf (codes [(7, 1)])
     let u := spareCheck ((modFacet sVerdict 0 fun x => { x with inflight := [] }).add (fam 0x3100_06 0) v.ranges) 0
       ((sym0 1).stamp / frameTicks) [(7, 1)]
     let t := (u.setNum (fam 0x3100_09 0) v.word).faultRetried
     (facetN t 0).afterSwap = false ∧ (sym0 1).plane = (facetN t 0).active.id ∧
     (facetN t 0).runs.find? (fun r => r.serial == (sym0 1).run) = some { run0 with plane := PlaneId.zeros } ∧ run0.budget ≠ 0) := by
  simp only [zeroCodes_eq]
  decide +kernel

theorem witness_SweepsConfirmationsSwaps :
    (let x := facetN (facet0 serving fun x => { x with sweeps := [sym0 2] }) 0
     x.sweeps = [sym0 2] ∧ x.confirm = none ∧ x.swapping = false) ∧
    (∀ b : Bool, (facetN (facet0 serving fun x => { x with confirm := some { sym := sym0 2, rows := [7], issued := b } }) 0).confirm =
      some { sym := sym0 2, rows := [7], issued := b }) ∧
    (let x := facetN (facet0 serving fun x => { x with swapping := true }) 0
     x.swapping = true ∧ x.inflight = []) := by decide +kernel

def write0 : CodeWrite :=
  { slot := 0, mode := .integer, first := true, last := true, task := 5, terms := [], exps := [] }
def merge0 : MergeJob := { prio := true, task := 5, operand := 2, scale := 0, aBase := 0, bBase := 4, count := 4, run := none }
def reduce0 : ReduceJob := { prio := true, task := 5, got := some inbound0, level := 1, slotBase := 0, count := 4, scale := 0, peer := 1, dest := some 1 }

theorem witness_CodesMergesReducesWritten :
    (∀ b : Bool, let c := { write0 with first := b }
     let s := facet0 serving fun x => { ready .integer x with writes := [c] }; let x := facetN s 0
     x.writes.find? (writable x) = some c ∧ (slotMeta x 0).owner = 5 ∧ (slotMeta x 0).mode = .integer ∧
     (slotMeta x 0).state ≠ .invalid ∧
     (let t := modFacet s 0 fun x => lowerTree { x with writes := x.writes.erase c } c.slot
      (checkRows t 0 0 512 c.slot (modeSlots c.mode)).2 = none ∧
      (checkRows (addErr t (accBase 0) .uncorrectable) 0 0 512 c.slot (modeSlots c.mode)).2 = some 0)) ∧
    (let s := facet0 serving fun x => { ready .integer x with merges := [merge0] }; let x := facetN s 0
     mergeDue x = some merge0 ∧ mergeBad x 5 0 4 4 = none ∧
     (let u := checkRows (modFacet s 0 fun x => { x with merges := x.merges.erase merge0 }) 0 0 512 0 4
      u.2 = none ∧ (checkRows u.1 0 0 512 4 4).2 = none)) ∧
    (let s := facet0 (sReduce wGather 0) fun x => { x with reduces := [reduce0] }
     (facetN s 0).reduces = [reduce0] ∧ reduce0.got = some inbound0 ∧ (checkRows s 0 0 512 0 4).2 = none) ∧
    (let j : ReduceJob := { reduce0 with got := none }
     let s := facet0 (sReduce wSend 1) fun x => { x with reduces := [j] }
     (facetN s 0).reduces = [j] ∧ (deliverSend (checkRows s 0 0 512 0 4).1 0 j).isSome = true) := by decide +kernel

/-- A drain of one element of one row into OUT_Q 6, and the stream that it feeds. -/
def drain0 : DrainJob :=
  { prio := true, task := 5, context := 1, copy := 7, operand := 2, op := 0, form := 0, slotBase := 0, vectors := 1, row := 0,
    rows := 1, outQ := 6, outTag := 1, rowTile := 0, indexBase := 0, dest := false, gather := 0, free := true, repeats := 0,
    scale := 0, since := 0, stale := [],
    children := [], ins := [], parent := none, pushing := none }
def feeds (d : StreamDesc) : Stream :=
  { desc := d,
    receivers := d.receivers.map fun r => { engine := r.1, queue := r.2, inGroup := true, lag := 0, window := 0, unsent := [], sent := [] },
    nextBlock := 0, nextSerial := 0, bufs := [], ready := [], starvedAt := none, wants := false, source := none, incoming := [], arrived := [],
    granted := false, inner := none }
def sDrained (v : Nat) : State :=
  facet0 { serving with streams := [feeds { stream0 with receivers := [(32, 6)] }] } fun x =>
    { ready .integer x with drains := [drain0], acc := [(0, v)] }

/-- The same drain with another operation, or with a buffer that waits for its push. -/
def sDrain1 (d : DrainJob) (v : Nat) : State := facet0 (sDrained v) fun x => { x with drains := [d] }

theorem witness_DrainCompletes :
    (∀ op ∈ [0, 1], ∀ v ∈ [5, 2 ^ 31], let d := { drain0 with op := op }; let s := sDrain1 d v
     (facetN s 0).drains.find? (drainDue s 0) = some d ∧ comeIns (facetN s 0) d = [] ∧ d.ins = [] ∧ d.pushing = none ∧
     (checkRows s 0 0 1 0 1).2 = none ∧ (checkRows (addErr s (accBase 0) .uncorrectable) 0 0 1 0 1).2 = some 0 ∧
     (let n := satStep (if op = 0 then ((drainElems (facetN s 0) d).flatten).map Elem.int
        else ((drainElems (facetN s 0) d).map fun es => vectorWinner true d es).map fun w => w.value.int)
      (v = 5 → n = 0) ∧ (v = 2 ^ 31 → n ≠ 0))) ∧
    (let es := (drainElems (facetN (sDrained 5) 0) drain0).flatten
     (releaseTile (sDrained 5) 0 drain0 (sumTile (drainHead drain0 false 0) (es.map fun e => (e, 0)))).isSome = true) ∧
    (let d := { drain0 with op := 1 }; let s := sDrain1 d 5
     let ws := (drainElems (facetN s 0) d).map fun es => vectorWinner true d es
     (releaseTile s 0 d (sumTile (drainHead d true 0) (ws.map fun w => (w.value, w.index)))).isSome = true) ∧
    (∀ op ∈ [0, 1], let d := { drain0 with op := op, pushing := some (0, 3, 0) }; let s := sDrain1 d 5
     (facetN s 0).drains.find? (drainDue s 0) = some d) := by decide +kernel

/-- Two codes that cancel modulo 9 in rows of one weight (rows 0 and 3). -/
def codesOf (l : List (Nat × Int)) : List Int := l.foldl (fun c e => c.set e.1 e.2) (List.replicate 516 0)

theorem witness_CheckOfAPass :
    (codesOf []).length = 516 ∧ (verdictOf (codesOf [])).d1 = 0 ∧ (verdictOf (codesOf [])).d2 = 0 ∧
    (verdictOf (codesOf [(511, 1)])).accepted = false ∧
    (verdictOf (codesOf [(0, 1), (3, 8)])).d1 = 0 ∧ (verdictOf (codesOf [(0, 1), (3, 8)])).d2 = 0 := by decide +kernel

theorem witness_ExactPassesAreAccepted : let rows : List (List Int) := [1] :: List.replicate 511 [0] ++ [[1], [0], [1], [0]]
    rows.length = 516 ∧ (∀ w ∈ rows, w.length = [2].length) ∧
    (let col := rows.map fun w => w.getD 0 0
     (9 : Int) ∣ (col.take 512).foldl (· + ·) 0 - col.getD 512 0 - 3 * col.getD 513 0 ∧
     (9 : Int) ∣ ((col.take 512).zipIdx.map fun c => girdleWeight c.2 * c.1).foldl (· + ·) 0 - col.getD 514 0 - 3 * col.getD 515 0) := by
  decide +kernel

theorem witness_MergeOfTwoElements : let a := p0 .scaled; let b := p1 .scaled; let q : Int := 0
    (elemStart .scaled 0 0).mag = 0 ∧ a.mag ≠ 0 ∧ b.mag ≠ 0 ∧ q ≤ a.exp ∧ q ≤ b.exp ∧ q < max a.lead b.lead - 62 ∧
    a.mag < 2 ^ 64 ∧ b.mag < 2 ^ 64 := by decide +kernel

/-- Winners of three lanes. -/
def win (i : Nat) : Winner := { value := elemStart .integer 3 0, index := i }
theorem witness_WinnersDoNotDependOnOrder : (win 0).index ≠ (win 1).index ∧ (win 1).index ≠ (win 2).index ∧
    (win 0).index ≠ (win 2).index := by decide

/-! ## Vector units -/

/-- A vector operation on two rows of four FP32 elements at lines 0, 2 and 4, with its result in the last two lines. -/
def wVec (op : Nat) : BitVec 128 := word [(op, 0), (16382, 10), (0, 24), (2, 38), (4, 52), (4, 66), (2, 82), (1, 94)]

/-- The conditions of VecHead for unit 0, as a test. -/
def vecHead (s : State) (w : BitVec 128) : Bool :=
  atHead s 32 w && cmdBits w 127 126 == 0 && decide ((vargs w).prec ≠ 3 ∧ (vargs w).len ≠ 0 ∧ (vargs w).count ≠ 0)

theorem witness_ElementwiseOperations :
    ∀ op ∈ [0x43, 0x44, 0x45, 0x46, 0x47, 0x48, 0x49, 0x4A, 0x4B, 0x4C, 0x4D, 0x4E, 0x4F], let w := wVec op; let v := vargs w
    vecHead (headed serving 32 w) w = true ∧ cmdOp w = op ∧ inStore v.a v.count (v.inSize * v.len) = true ∧
    inStore v.b v.count (v.inSize * v.len) = true ∧ inStore v.c v.count (v.inSize * v.len) = true ∧
    inStore v.dst v.count (v.outSize * v.len) = true := by decide +kernel

theorem witness_RowOperations :
    (∀ op ∈ [0x50, 0x51, 0x52, 0x53, 0x54, 0x55, 0x58], let w := wVec op; let v := vargs w
     vecHead (headed serving 32 w) w = true ∧ cmdOp w = op ∧ inStore v.a v.count (v.inSize * v.len) = true ∧
     inStore v.b v.count (v.inSize * v.len) = true ∧ inStore v.c v.count (v.inSize * v.len) = true ∧
     inStore v.dst v.count (v.outSize * v.len) = true ∧ inStore v.dst v.count v.outSize = true ∧
     inStore v.dst v.count (v.outSize + 4) = true ∧ v.imm ≠ 0 ∧ v.imm ≤ 256 ∧ v.imm ≤ v.len ∧
     inStore v.dst v.count ((v.outSize + 4) * v.imm) = true) := by decide +kernel

theorem witness_DotProductsAndWeightedSums : ∀ op ∈ [0x56, 0x57], let w := wVec op; let v := vargs w
    vecHead (headed serving 32 w) w = true ∧ cmdOp w = op ∧ inStore v.a v.count (v.inSize * v.len) = true ∧
    inStore v.b 1 (v.inSize * v.len) = true ∧ inStore v.dst 1 (v.outSize * v.count) = true ∧
    inStore v.b 1 (v.inSize * v.count) = true ∧ inStore v.dst 1 (v.outSize * v.len) = true := by decide +kernel

/-- VSAMPLE, VQUANT or VQUANTW on two rows of four elements at line 0 into line 8,192, format SRC_C, multiplier 1.0. -/
def wQuant (op : Nat) : BitVec 128 := word [(op, 0), (8192, 10), (3, 52), (4, 66), (2, 82), (0x3F800000, 94)]
/-- Its head, with the element value x at the start of unit 0's store. -/
def sQuant (op x : Nat) : State := putBytes (headed serving 32 (wQuant op)) 0 0 (leBytes 4 x)

/-- Every scaled input is finite. -/
def finiteRows (s : State) (v : VArgs) : Bool :=
  (List.range v.count).all fun r => (readRow s 0 v.a v.inSize v.len r).all fun x => isFinite (fmul x v.imm).1

/-- … and its product fits the format. -/
def exactRows (s : State) (v : VArgs) : Bool :=
  (List.range v.count).all fun r => (readRow s 0 v.a v.inSize v.len r).all fun x => quantFinite v.c (fmul x v.imm).1

theorem witness_SamplingAndQuantisation : ∀ op ∈ [0x59, 0x5A, 0x5B], let w := wQuant op; let v := vargs w
    (∀ x ∈ [0x3F800000, 0x7F800000], vecHead (sQuant op x) w = true) ∧ cmdOp w = op ∧
    inStore v.a v.count ((v.inSize + 4) * v.len) = true ∧ inStore v.dst v.count 4 = true ∧ v.c ≠ 0 ∧ v.c ≤ 7 ∧ v.count ≤ 2048 ∧
    inStore v.a v.count (v.inSize * v.len) = true ∧ inStore v.dst (ceilDiv v.len 128) (tileBytes v.c v.count) = true ∧
    inStore v.dst v.count (ceilDiv v.len 128 * fmtRowBytes v.c) = true ∧
    finiteRows (sQuant op 0x3F800000) v = true ∧ finiteRows (sQuant op 0x7F800000) v = false ∧
    exactRows (sQuant op 0x3F800000) v = true ∧ exactRows (sQuant op 0x7F800000) v = false ∧
    (∀ r < v.count, ∀ p ∈ pairRow (sQuant 0x59 0x3F800000) 0 v r, isFinite p.1 = true) := by decide +kernel

/-- VLOAD from queue 3 under tag 5Ah, VSTORE to queue 6, and VSUMCVT of an empty tile. -/
def wLoad : BitVec 128 := word [(0x40, 0), (3 + 32 * 0x5A, 24), (4, 66), (2, 82)]
def wStore : BitVec 128 := word [(0x41, 0), (6, 10), (4, 66), (2, 82)]
def sStore : State :=
  { headed serving 32 wStore with streams := [feeds { stream0 with producer := 32, receivers := [(0, 6)] }] }

theorem witness_VectorLoadsStoresAndSums :
    (let s := setQueue (headed serving 32 wLoad) 0 3 [item0]; let v := vargs wLoad
     vecHead s wLoad = true ∧ cmdOp wLoad = 0x40 ∧ queueAt s 0 (v.a % 32) = [item0] ∧ handleTag item0.handle = v.a / 32 % 256 ∧
     inStore v.dst 1 (itemData s 0 item0).length = true ∧ (checkItem s item0).2 = none) ∧
    (let v := vargs wStore
     vecHead sStore wStore = true ∧ cmdOp wStore = 0x41 ∧ inStore v.a v.count (v.inSize * v.len) = true ∧
     (streamInto sStore 32 5 (v.dst % 32)).isSome = true ∧ bufTooBig (streamInto sStore 32 5 (v.dst % 32)) 32 = false ∧
     ((engineN sStore 32).queue true).pushing = none ∧ (takeBuf sStore 0 3 32 (v.dst / 32 % 256) false).isSome = true ∧
     (let u := modQueue sStore 32 true fun q => { q with pushing := some (0, 3, 0) }
      ((engineN u 32).queue true).pushing = some (0, 3, 0) ∧ pushed u (0, 3, 0) = true)) ∧
    (let w := word [(0x42, 0), (16384 - 1, 10), (4, 66), (2, 82)]; let s := headed serving 32 w; let v := vargs w
     let head := storeBytes s 0 v.a 64
     vecHead s w = true ∧ cmdOp w = 0x42 ∧ fieldAt head 0 1 = 0 ∧ fieldAt head 6 2 = 0 ∧
     inStore v.a 1 (sumTileBytes 0 false (fieldAt head 4 2) 0) = true ∧ inStore v.dst 0 (v.outSize * fieldAt head 4 2) = true) := by
  decide +kernel

/-- What a step leaves, or nothing where it stops. -/
def after (o : Host.Outcome State Fault Refusal) : Option State :=
  match o with
  | .next s => some s
  | _ => none

theorem witness_ElementwiseFrame : ∀ op ∈ [0x43, 0x44, 0x45, 0x46, 0x47, 0x48, 0x49, 0x4A, 0x4B, 0x4C, 0x4D, 0x4E, 0x4F],
    let w := wVec op; let v := vargs w; let s := headed serving 32 w
    vecHead s w = true ∧ inStore v.a v.count (v.inSize * v.len) = true ∧ inStore v.b v.count (v.inSize * v.len) = true ∧
    inStore v.c v.count (v.inSize * v.len) = true ∧ inStore v.dst v.count (v.outSize * v.len) = true ∧ cmdOp w = op ∧
    ((vecReads s 0 (cmdOp w) v).all fun r => errsAt s (touches (vstoreBase 0 + r.1) r.2) == []) = true := by
  decide +kernel
/-- … and VADD completes there. -/
theorem test_vadd_completes : (after (exec (.vadd 0 true) (headed serving 32 (wVec 0x43)))).isSome = true := by decide +kernel

theorem witness_RoundingIsToNearest : 0 < 3 ∧ (roundMag 24 (-149) 0x7F800000 1 3 (-((0 : Nat) : Int))).2 = false := by
  decide +kernel

/-! ## The sideband -/

/-- The conditions of Accepted for transfer 0, as a test. -/
def accepts (s : State) (index sub : Nat) (b : Bytes) : Bool :=
  s.ring.xfers[(0 : Xfer)] == none && !s.ring.waiting.any (waitingSeg 0) && judgeWrite (heard s) index sub b == 0

/-- Transfer 0 of a state replaced. -/
def withXfer (s : State) (t : XferIn) : State := modXfer s 0 (some t)
def xfer0 (total : Nat) (got : Bytes) : XferIn := { index := 0x1010, sub := 1, total := total, data := got, since := 0 }

theorem witness_ParameterTransfers :
    State.reset.ring.xfers[(0 : Xfer)] = none ∧ State.reset.ring.waiting = [] ∧ [1#8].length ≤ 4096 ∧ (findDef 0x1001 1).isSome = true ∧
    judgeWrite (heard (inNode .quiesced)) 0x1001 1 [1] = 0 ∧ judgeWrite (heard serving) 0x1001 1 [] ≠ 0 ∧
    (zeros 4096).length = 4096 ∧ 4096 < 4097 ∧ 16777216 ≤ 16777216 ∧
    (let t := xfer0 16777216 []
     (withXfer serving t).ring.xfers[(0 : Xfer)] = some t ∧ (zeros 4096).length = min 4096 (t.total - t.data.length) ∧
     t.data.length + 4096 < t.total) ∧
    judgeRead (heard serving) 0x1000 1 = 0 ∧
    (let t := xfer0 0 []; let s := { withXfer serving t with up := 3072000 }
     s.ring.xfers[(0 : Xfer)] = some t ∧ s.num 0x1100_0A * frameTicks ≤ s.since t.since) := by decide +kernel
/-- … and a last segment completes a write. -/
theorem witness_ParameterTransfers_last : let t : XferIn := { index := 0x1001, sub := 1, total := 1, data := [], since := 0 }
    let s := withXfer (inNode .quiesced) t
    s.ring.xfers[(0 : Xfer)] = some t ∧ [1#8].length = min 4096 (t.total - t.data.length) ∧
    t.total ≤ t.data.length + [1#8].length ∧ (findDef t.index t.sub).isSome = true ∧
    judgeWrite (heard (modXfer s 0 none)) t.index t.sub (t.data ++ [1]) = 0 := by decide +kernel

/-- … and a read whose second segment waits can be aborted. -/
def segWait : Frame := { frame0 with type := 0x12 }
theorem witness_ParameterTransfers_read :
    let s := { serving with ring := { serving.ring with waiting := [segWait], reads := [(0, 0x1000, 1)] } }
    s.ring.xfers[(0 : Xfer)] = none ∧ s.ring.waiting.any (waitingSeg 0) = true ∧
    s.ring.reads.find? (fun e => e.1 == (0 : Xfer).val) = some (0, 0x1000, 1) := by decide

/-- A node in a state, with a node ID, a valid time and a facet in service. -/
def numbered (n : NodeState) : State := (((inNode n).setNum 0x1100_01 1).setNum 0x2000_03 1).setNum 0x0020_01 1

theorem witness_NodeCommands :
    serving.quiesce = 0 ∧ accepts (inNode .quiesced) 0x1001 1 [1] = true ∧
    (let s := numbered .configuring
     accepts s 0x1001 1 [2] = true ∧ nodeId s ≠ 0 ∧ s.num 0x2000_03 ≠ 0 ∧ s.num 0x0020_01 ≠ 0) ∧
    accepts (inNode .configuring) 0x1001 1 [3] = true ∧ accepts (inNode .inspect) 0x1001 1 [3] = true ∧
    accepts serving 0x1001 1 [3] = true ∧ accepts serving 0x1001 1 [4] = true ∧
    (let s := (inNode .quiesced).setNum 0xC010_02 1
     accepts s 0x1001 1 [5] = true ∧ s.num 0xC010_02 ≠ 0) ∧
    accepts serving 0x1001 1 [6] = true ∧ (inNode .serving).node ≠ .safe ∧
    (∀ n ∈ [NodeState.configuring, .quiesced, .inspect], accepts (inNode n) 0x1001 1 [7] = true) ∧
    (let s := { serving with quiesce := 1, up := 400000000000 }
     s.node = .serving ∧ s.quiesce ≠ 0 ∧ s.tasks = [] ∧ s.quiesce = 1 ∧ s.num 0x1000_07 * frameTicks ≤ s.since s.quiesceAt) := by
  decide +kernel

/-- The same with expert access. -/
def expert (n : NodeState) : State := (inNode n).setNum 0x1F00_02 1

theorem witness_SelectsTakeSnapshots : let s := expert .inspect
    sparseWf dfltOf s.objs = true ∧ accepts s 0x1020 1 (leBytes 4 0x100001) = true ∧ bitsOf 0x100001 7 0 ≠ 0 ∧
    (findDef 0x1000 1).isSome = true ∧ accepts s 0x2100 3 (leBytes 4 0x3FFFF) = true ∧ accepts s 0x3600 1 (leBytes 8 (2 ^ 14 + 2 ^ 35)) = true ∧
    accepts s 0x4300 1 (leBytes 2 0) = true ∧ findStream s 0 0 = none ∧ accepts s 0x5020 1 (leBytes 2 4095) = true ∧
    accepts s 0x5030 1 (leBytes 4 0) = true ∧ accepts s 0x6020 1 (leBytes 8 7) = true ∧ s.sessions = [] ∧
    accepts s 0x7400 1 (leBytes 4 (31 + 2 ^ 5 * 519 + 2 ^ 15 * 127)) = true ∧ accepts s 0x8500 2 (leBytes 2 599) = true := by
  decide +kernel

/-- Both light inputs ready. -/
def lit (s : State) : State :=
  modLight s fun l => { l with inputs := Vector.replicate 2 { state := .ready, closed := true, weak := 0 } }

theorem witness_SettingsTakeEffect : let s := lit (expert .configuring)
    accepts s 0x1F00 1 [0] = true ∧ accepts s 0x1F00 1 [1] = true ∧ accepts s 0x1010 5 [1] = true ∧
    accepts s 0x1110 11 [1] = true ∧ accepts s 0x1111 11 [0] = true ∧ accepts s 0xA010 12 [1] = true ∧
    accepts s 0xA013 12 [0] = true ∧ accepts s 0xA000 3 [255] = true ∧ accepts s 0xA020 1 (zeros 128) = true ∧
    accepts s 0xA000 10 (leBytes 8 0) = true ∧ accepts s 0x2000 8 [1] = true ∧ accepts s 0x5010 2 (zeros 64) = true ∧
    accepts s 0x7000 1 [3] = true ∧ accepts s 0x7010 1 (leBytes 8 0) = true ∧ accepts s 0x8010 1 (zeros 328) = true := by
  decide +kernel

/-! ## Contexts, services and the journal -/

def args0 (slot : Bool) (copy : BitVec 32) : CtxArgs := { context := 4095, slot := slot, source := 0, copyId := copy }
/-- A descriptor of model 9. -/
def desc0 : Bytes := leBytes 4 9 ++ zeros 6 ++ leBytes 2 255 ++ zeros 52
/-- The device with that descriptor and with context 4095. -/
def withCtx (c : Ctx) : State := setCtx { serving with ctxDesc := some desc0 } 4095 c
def ctx0 (slot : CopySlot) : Ctx := { noCtx with state := .registered, model := 9, slotA := slot }
def slot7 (st : CopyState) (damaged : List Nat) : CopySlot := { emptySlot with state := st, copyId := 7, damaged := damaged }
def takes (s : State) (op : Nat) (a : CtxArgs) : Bool := accepts s 0x5010 1 (ctxBytes op a)

theorem witness_ContextCommands : serving.node = .serving ∧ descOk desc0 = true ∧ upPortOk 0 desc0 = true ∧
    (let s := withCtx noCtx; takes s 1 (args0 false 0) = true ∧ (getCtx s 4095).state = .unregistered) ∧
    (let s := withCtx (ctx0 emptySlot)
     takes s 2 (args0 false 0) = true ∧ (getCtx s 4095).state = .registered ∧ takes s 3 (args0 false 7) = true ∧
     (7 : Nat) ≠ ((getCtx s 4095).slot true).copyId ∧ ((getCtx s 4095).slot false).state = .empty ∧
     (args0 false 7).source.toNat = 0 ∧ roomFor215 { s with ctxDesc := none } desc0 = true) ∧
    (let s := withCtx (ctx0 (slot7 .complete []))
     takes s 4 (args0 false 0) = true ∧ ((getCtx s 4095).slot false).state = .complete ∧ switchOk { s with ctxDesc := none } 4095 false = true ∧
     takes s 5 (args0 false 0) = true ∧ (getCtx s 4095).pendingTo ≠ some false) ∧
    (let s := withCtx (ctx0 (slot7 .current [3]))
     takes s 6 (args0 false 7) = true ∧ 4 ≤ ((getCtx s 4095).slot false).state.code ∧
     (args0 false 7).copyId.toNat = ((getCtx s 4095).slot false).copyId ∧ ((getCtx s 4095).slot false).damaged ≠ []) ∧
    (let s := { withCtx noCtx with needed := [(9, 0, 7)] }
     takes s 7 (args0 false 7) = true ∧ (fieldAt desc0 0 4, fieldAt desc0 4 1, 7) ∈ s.needed ∧ s.requests = []) ∧
    (let s := ((withCtx noCtx).setNum 0x0020_03 255).setNum 0x5000_04 4096
     takes s 8 (args0 false 7) = true ∧ libraryUsed s < libraryRoom s ∧ s.library = []) ∧
    (let s := { withCtx noCtx with library := [{ model := 9, stage := 0, copyId := 7, blocks := [], total := 0, source := 0, desc := [] }] }
     takes s 9 (args0 false 7) = true ∧ (∃ e ∈ s.library, (e.model, e.stage, e.copyId) = (9, 0, 7)) ∧ s.contexts = []) := by
  decide +kernel

/-- A request and an idle session. -/
def request0 (id jsn : Nat) : Request :=
  { jsn := jsn, id := id, tag := 0, header := [], input := [], context := 0, model := 9, stage := 0, session := none, phase := .waiting,
    tokens := [], replayed := none, wasReplayed := false, rebased := false, acked := none, startPos := 0, copies := [], prefilled := none,
    notReplayable := false, adopted := false, mirrored := false, commitStamp := 0, targetBase := 0, pages := 0, cancel := false,
    sentAcked := false, ackOwed := none, damagedAt := none, rebuilt := false }
def session0 (tag : Nat) : Session :=
  { num := 0, tag := tag, context := 0, seed := 0, state := .idle, history := [], lineage := [], pages := 0, onStacks := [], lastAt := 0,
    closing := false, record := none }

theorem witness_ServiceAndJournalCommands :
    (let s := { serving.setNum 0x6030_01 8 with requests := [request0 8 1], sessions := [session0 8] }
     accepts s 0x6030 2 [1] = true ∧ s.requests.find? (fun q => q.id == s.num 0x6030_01) = some (request0 8 1) ∧
     accepts s 0x6030 2 [2] = true ∧ s.num 0x6030_01 ≠ 0 ∧ findSession s (s.num 0x6030_01) = some (session0 8)) ∧
    (let s := (inNode .configuring).setBlob 0xB110_01 (leBytes 4 1 ++ leBytes 4 2)
     accepts s 0xB110 2 [1] = true ∧ s.journal.settled = false ∧ (s.blob 0xB110_01).length % 4 = 0 ∧
     strictAscending ((pieces 4 ((s.blob 0xB110_01).length / 4) (s.blob 0xB110_01)).map leNat) = true) ∧
    (let s := ((inNode .configuring).setBlob 0xB110_01 [63]).setNum 0xA000_06 63
     accepts s 0xB110 2 [2] = true ∧ (s.blob 0xB110_01).length = 1 ∧ fieldAt (s.blob 0xB110_01) 0 1 = mirrorFrom s ∧
     mirrorFrom s ≠ 255) := by decide +kernel

/-! ## The Kangeiz ring and the ports -/

/-- The device as node 1 with port A up. -/
def online : State := (serving.setNum 0x1100_01 1).setNum 0x1110_01 4
/-- A frame with its CRC-32 as it was sent. -/
def sealed (f : Frame) : Frame := { f with crc := frameCrc f }
def frame1 : Frame := sealed { frame0 with type := 0x12, flags := 1, dest := 1, seq := 9 }

theorem witness_RingFramesReceived : let s := online
    s.refclk = true ∧ portUp s 0 = true ∧ nodeId s = 1 ∧
    badArrival { sealed frame0 with crc := 1 + frameCrc frame0 } = true ∧ badArrival (sealed { frame0 with hops := 0 }) = true ∧
    badArrival (sealed { frame0 with src := 1 }) = false ∧
    (let f := sealed { frame0 with dest := 125 }
     badArrival f = false ∧ f.src.toNat ≠ nodeId s ∧ f.dest.toNat ≠ nodeId s ∧ f.dest.toNat < 126 ∧ f.type ≠ 0x50 ∧ f.type ≠ 0x51) ∧
    badArrival (sealed { frame0 with src := 1, dest := 2 }) = false ∧ nodeId s ≠ 0 ∧
    (let u := { s with ring := { s.ring with rxNext := some 9 } }
     badArrival frame1 = false ∧ frame1.dest.toNat = nodeId u ∧ frame1.src.toNat ≠ nodeId u ∧ frame1.dest ≠ 126 ∧
     foreign (u.inc 0x1110_07) frame1 = false ∧ frameConfirm frame1 = true ∧ frame1.flags.getLsbD 2 = false ∧
     frameBad frame1 = false ∧ u.ring.rxNext = some frame1.seq.toNat) := by decide +kernel

def tx0 : TxFrame := { frame := frame1, sentAt := 0, resends := 0 }
def event0 : EventRec := { code := 0x1016, unit := 255, number := 1, stamp := 0, queuedAt := 0, data := [] }

theorem witness_RingManagement :
    (let s := { online with up := 400000000000, ring := { online.ring with unacked := [tx0] } }
     s.ring.unacked.find? (fun u => u.frame.seq.toNat == 9) = some tx0 ∧
     s.ring.unacked.find? (fun u => u.frame.seq == 9) = some tx0 ∧
     (if tx0.resends < s.num 0x1100_05 then s.num 0x1100_04 else s.num 0x1100_07 * frameTicks) ≤ s.since tx0.sentAt ∧
     s.num 0x1100_07 * frameTicks ≤ s.since s.ring.heartbeatAt ∧ s.ring.node0Silent = false ∧
     s.num 0x1100_08 * frameTicks ≤ s.since s.ring.node0At) ∧
    (∀ n ∈ [NodeState.sealed, .configuring, .quiesced], let s := { inNode n with objs := [(0x0000_06, .num 7)] }
     (7#64).toNat = s.num 0x0000_06) ∧
    (let s := inNode .configuring
     judgeWrite (heard s) 0x1001 1 [3] = 0 ∧ judgeCommand (heard s) 3 = 0 ∧ nodeId s = 0 ∧
     judgeCommand (heard s) 3 = 0 ∧ nodeId (s.setNum 0x1100_01 64) ≠ 0 ∧ (2 ^ 63 : Nat).testBit (nodeId (s.setNum 0x1100_01 64) - 1) = true) ∧
    (let q : EventQueue := { State.reset.events.sys with recs := List.replicate 64 event0, dropped := 2, firstLost := 70 }
     let s := { serving with events := { serving.events with sys := q } }
     s.sysUp = true ∧ s.events.lnk.recs = [] ∧ 64 ≤ s.events.sys.recs.length ∧ (eventQueue s false).dropped ≠ 0 ∧
     (eventQueue s true).dropped = 0 ∧
     (let u := { inNode .safe with events := { serving.events with lnk := q } }
      u.sysUp = false ∧ 64 ≤ u.events.lnk.recs.length)) := by decide +kernel

/-- Map 0 sends or receives at stamps that are multiples of 307,200; entry 2000h.05. -/
def mapped (mode : Nat) : State :=
  (((online.setNum 0x1200_01 mode).setNum 0x1200_02 307200).setNum 0x1200_03 0).setBlob 0x1200_04 (leBytes 4 0x200005)
def cyclic0 : CyclicWait := { map := 0, stamp := 0, payload := leBytes 4 1 }

theorem witness_CyclicMaps :
    (let s := mapped 1
     s.refclk = true ∧ s.sysUp = true ∧ s.num 0x1200_01 = 1 ∧ firesAt s 0 s.now = true ∧ (ownPort s).isSome = true) ∧
    (let s := mapped 2; let b := zeros ((cyclicEntries s 0).map entryBytesOf).sum
     s.sysUp = true ∧ cyclicOk (heard s) 0 0 b = true ∧ stampTicks 0 = some 0 ∧ s.isPast 0 = false ∧
     { s with now := 1 }.isPast 0 = true ∧ s.ring.cyclic = []) ∧
    cyclicDue { mapped 2 with ring := { online.ring with cyclic := [cyclic0] } } 0 = some cyclic0 ∧
    (let s := expert .configuring; let b := leBytes (entryBytesOf (0x2000, 5)) 1
     judgeWrite s 0x2000 5 (b.take (entryBytesOf (0x2000, 5))) = 0 ∧ (findDef 0x2000 5).isSome = true ∧
     ∀ d ∈ (findDef 0x2000 5).toList, (applyWrite s 0x2000 5 d (toVal d.ty b) none).1 = 0) := by decide +kernel

/-- A request of ID 8 in one segment, and the first of more. -/
def svc0 (more : Nat) : Bytes := leBytes 8 8 ++ zeros 9 ++ leBytes 1 (2 * more) ++ zeros 110
def seg0 : SegIn := { requestId := 8, header := zeros 128, bad := false, got := 1, data := [], since := 0 }

theorem witness_RequestsAndBlocksOnTheRing :
    serving.sysUp = true ∧ 128 ≤ (svc0 0).length ∧ refusesNew (heard serving) = false ∧
    (fieldAt ((svc0 1).take 128) 17 1).testBit 1 = true ∧ (fieldAt ((svc0 0).take 128) 17 1).testBit 1 = false ∧
    knownId (dropSegs (heard serving) 8) (joinSegment none ((svc0 0).take 128) [] 0).requestId = .fresh ∧
    knownId (dropSegs (heard { serving with requests := [request0 8 1] }) 8) 8 = .incomplete 1 false ∧
    (let s := { serving with up := 400000000000, ring := { serving.ring with segs := [seg0] } }
     s.ring.segs.find? (fun q => q.requestId == 8) = some seg0 ∧ s.num 0x6000_06 * frameTicks ≤ s.since seg0.since) ∧
    (zeros 4096).length = 4096 := by decide +kernel

theorem witness_PortsAndLight :
    (∀ k ∈ [0, 2], let s := serving.setNum 0x1110_01 k
     s.refclk = true ∧ s.eyes[ringEye 0].txOn = true ∧ s.eyes[ringEye 0].lit = true ∧ linkState s 0 = k) ∧
    (∀ k ∈ [3, 4], let s := (serving.setNum 0x1110_01 k).setNum 0x1110_02 7
     linkState s 0 = k ∧ (s.num 0x1110_02).testBit 0 = true ∧ linkState s 0 ≠ 1) ∧
    (let s := serving.setNum 0x1110_01 1
     linkState s 0 < 2 ∧ ringOf (ringEye 0) = some 0 ∧ linkState s 0 = 1) ∧
    (∀ k ∈ [1, 3, 7], let s := serving.setNum 0xA010_01 k
     peerLink s 0 = k ∧ peerLink s 0 ≠ 0 ∧ peerLink s 0 ≠ 2 ∧ s.eyes[peerEye 0].txOn = true ∧ s.eyes[peerEye 0].lit = true) ∧
    (let s := { serving.setNum 0xA010_01 2 with up := 30720000 }
     peerLink s 0 = 2 ∧ peerOf (peerEye 0) = some 0 ∧ 30720000 ≤ s.since s.eyes[peerEye 0].shutAt ∧
     30720000 ≤ s.since s.eyes[peerEye 0].lastPulse ∧ 30720000 ≤ s.since s.peers[(0 : PeerPort)].helloAt) ∧
    (∀ k ∈ [5, 6], let s := (serving.setNum 0xA010_01 k).setNum 0xA010_02 255
     peerLink s 0 = k ∧ (s.num 0xA010_02).testBit 7 = true) := by decide +kernel

/-! ## The gang -/

/-- The device as ordinal 0 with peer port 0 up; ordinal 1 is its buddy and its neighbour on port 0, one hop away. -/
def ganged : State :=
  (((serving.setNum 0xA010_01 5).setNum 0xA000_01 0).setNum 0xA000_03 1).setBlob 0xA020_01 (leBytes 2 0 ++ leBytes 2 0x8004 ++ zeros 124)

/-- The header of a frame from ordinal 1 on a channel. -/
def hdr (channel dest : Nat) : PeerHdr := { peer0 with channel := BitVec.ofNat 8 channel, destOrd := BitVec.ofNat 8 dest }

/-- The header with the CRC of its frame; the state behind the link layer, and the conditions of PeerIn on port 0, as a test. -/
def signed (h : PeerHdr) (type : Nat) (arg payload : Bytes) : PeerHdr := { h with crc := peerCrc (frameOf h type (recordOf h arg) payload) }
def accepted (s : State) (h : PeerHdr) (type : Nat) (arg payload : Bytes) (answer : Bool) : State × Bool :=
  linkAccept s 0 h (frameOf h type (recordOf h arg) payload) answer
def behind (s : State) (h : PeerHdr) (type channel : Nat) (arg payload : Bytes) : State :=
  creditBack (accepted s h type arg payload true).1 0 channel h.hops.toNat
def arrives (s : State) (h : PeerHdr) (type channel : Nat) (arg payload : Bytes) : Bool :=
  peerUp s 0 && decide (h.hops.toNat ≤ 8) && headerOk h channel && (accepted s h type arg payload true).2
    && ownOrdinal (accepted s h type arg payload true).1 h.destOrd.toNat

/-- A gang task 0101h, owned by ordinal 1. -/
def gangTask0 : Task := { task0 5 with gang := some (0x101, [1]) }
def withGang : State := { ganged with tasks := [gangTask0] }

def peerFrame0 : PeerFrame :=
  { type := 0x10, flags := 0, srcOrd := 0, destOrd := 1, hops := 1, channel := 2, seq := 0, ackSeq := 0, ringId := 0, creditField := 0,
    record := [], payload := [] }

/-- Whether a task passes its admission test, and the cause of its refusal. -/
def planned (v : Verdict278) : Bool := match v with
  | .plan _ => true
  | .refused _ _ => false
def refusedFor (v : Verdict278) : Nat := match v with
  | .plan _ => 0
  | .refused c _ => c

theorem witness_PeerLinkLayer :
    (let s := ganged; let h := signed (hdr 0 0) 0x01 [] []; let f := frameOf h 0x01 (recordOf h []) []
     h.fecOk = true ∧ f.crcOk = true ∧
     h.seq.toNat = (peerCredited (peerAcked s 0 h.ackSeq.toNat) 0 h.creditField.toNat).peers[(0 : PeerPort)].rxNext ∧
     (frameOf { h with crc := 1 + h.crc } 0x01 (recordOf h []) []).crcOk = false ∧ { h with fecOk := false }.fecOk = false ∧
     4 ≤ peerLink s 0 ∧ (accepted s h 0x01 [] [] false).2 = true ∧ reservedOk455 h = true ∧ h.flags.toNat.testBit 0 = false ∧
     peerUp s 0 = true) ∧
    (let p := ((List.replicate 32 0#16).map fun v => leBytes 2 v.toNat).flatten; let h := signed (hdr 0 0) 0x02 [] p
     (accepted ganged h 0x02 [] p true).2 = true ∧ (List.replicate 32 0#16).length ≤ 32 ∧ reservedOk455 h = true) ∧
    (let s := ganged; let a := streamArg { hdr 2 1 with hops := 7 } 0 0 ++ leBytes 1 0 ++ leBytes 2 0
     let h := signed { hdr 2 1 with hops := 7 } 0x10 a []
     (accepted s h 0x10 a [] true).2 = true ∧ h.hops.toNat < 8 ∧ headerOk h 2 = true ∧
     ownOrdinal (accepted s h 0x10 a [] true).1 h.destOrd.toNat = false ∧
     (routeTo (accepted s h 0x10 a [] true).1 h.destOrd.toNat).isSome = true) ∧
    (let s := { sendLink ganged 0 0x01 0 [] with up := 615 }
     let s := modPeer s 0 fun q => { q with unacked := [(peerFrame0, 0)] }
     4 ≤ peerLink s 0 ∧ s.peers[(0 : PeerPort)].unacked ≠ [] ∧ 615 ≤ s.since s.peers[(0 : PeerPort)].progressAt) ∧
    (∀ k ∈ [4, 7], peerLink (serving.setNum 0xA010_01 k) 0 = k) ∧
    (let p := leBytes 4 0 ++ [0, 0] ++ leBytes 8 0; let h := signed (hdr 0 0) 0x03 [] p
     (frameOf h 0x03 (recordOf h []) p).crcOk = true ∧ h.seq.toNat = 0 ∧ reservedOk455 h = true) := by decide +kernel

/-- A library entry of model 9, copy 7, with operand 3 of 64 bytes at offset 96. -/
def libBlock : Bytes := zeros 28 ++ leBytes 4 1 ++ zeros 32 ++ leBytes 4 3 ++ zeros 12 ++ leBytes 8 96 ++ leBytes 8 64 ++ zeros 96
def readOf : Bytes := leBytes 4 9 ++ zeros 4 ++ leBytes 4 7 ++ leBytes 4 3 ++ leBytes 8 0 ++ leBytes 4 64 ++ leBytes 2 8191 ++ zeros 2

/-- Context 1 holds copy 7 of model 9, CURRENT. -/
def holding (s : State) : State := setCtx s 1 { noCtx with state := .serving, model := 9, slotA := slot7 .current [] }
def graphFill : TaskGraph := { graph0 with task := 6 }

/-- The tile of row tile 8 at slot 4 of 2 vectors, and a gang task whose graph names it. -/
def tile8 : TileRepeat := { operand := 2, rowTile := 8, slot := 4, vectors := 2, cmds := [] }
def tileTask : Task := { gangTask0 with graph := { graph0 with tiles := [tile8] } }
def tileName : Bytes := leBytes 4 8 ++ leBytes 2 4 ++ leBytes 2 2
/-- The arguments and the payload of a BATCH for copy 7 of model 9 and task 6. -/
def batchArg : Bytes := leBytes 4 0x101
def batchData : Bytes := leBytes 4 9 ++ leBytes 1 0 ++ leBytes 4 7 ++ leBytes 1 (clsCode .fill) ++ leBytes 8 0 ++ leBytes 4 6

theorem witness_GangTasks :
    (let a := streamArg (hdr 2 0) 0 0 ++ leBytes 1 0 ++ leBytes 2 0; arrives withGang (signed (hdr 2 0) 0x10 a [1]) 0x10 2 a [1] = true) ∧
    (let a := streamArg (hdr 2 0) 0 0 ++ leBytes 2 1; arrives withGang (signed (hdr 2 0) 0x11 a []) 0x11 2 a [] = true) ∧
    (let s := { ganged with library := [{ model := 9, stage := 0, copyId := 7, blocks := [(0, libBlock)], total := 1, source := 0, desc := [] }] }
     let p := readOf; let h := signed (hdr 2 0) 0x12 [] p; let u := behind s h 0x12 2 [] p
     arrives s h 0x12 2 [] p = true ∧ p.length = 32 ∧ fieldAt p 5 3 = 0 ∧ fieldAt p 31 1 = 0 ∧ fieldAt p 28 2 < 8192 ∧
     (libOperand u (fieldAt p 0 4) (fieldAt p 4 1) (fieldAt p 8 4) (fieldAt p 12 4)).isSome = true ∧
     ∀ e ∈ (libOperand u (fieldAt p 0 4) (fieldAt p 4 1) (fieldAt p 8 4) (fieldAt p 12 4)).toList,
       fieldAt p 16 8 + fieldAt p 24 4 ≤ e.2.length) ∧
    (let a := leBytes 4 0x101 ++ leBytes 1 6; let h := signed (hdr 1 0) 0x21 a []
     arrives withGang h 0x21 1 a [] = true ∧ partAt (behind withGang h 0x21 1 a []) 0x101 h.destOrd.toNat = some gangTask0) ∧
    (let a := leBytes 4 0x101 ++ leBytes 1 6 ++ leBytes 1 0; let p := zeros 5; let h := signed (hdr 1 0) 0x22 a p
     arrives withGang h 0x22 1 a p = true ∧ partAt (behind withGang h 0x22 1 a p) 0x101 h.destOrd.toNat = some gangTask0 ∧
     modeByte 0 = some .integer ∧ elemsOk 0 .integer p = true) ∧
    (let s := { ganged with tasks := [tileTask] }
     let a := leBytes 4 0x101 ++ leBytes 1 0; let h := signed (hdr 1 0) 0x23 a tileName; let u := behind s h 0x23 1 a tileName
     arrives s h 0x23 1 a tileName = true ∧ partAt u 0x101 h.destOrd.toNat = some tileTask ∧ tileName.length = 8 ∧
     tileTask.graph.tiles.find? (fun r => r.rowTile == fieldAt tileName 0 4 && r.slot == fieldAt tileName 4 2
       && r.vectors == fieldAt tileName 6 2) = some tile8) ∧
    (let a := leBytes 4 0x101 ++ leBytes 1 0; let h := signed (hdr 1 0) 0x24 a []
     arrives withGang h 0x24 1 a [] = true ∧ partAt (behind withGang h 0x24 1 a []) 0x101 h.destOrd.toNat = some gangTask0) ∧
    (∀ bad : Bool, let c : Ctx := { noCtx with state := .serving, model := 9, slotA := slot7 .current (if bad then [3] else []) }
     let s := setCtx withGang 1 c; let h := signed (hdr 1 0) 0x20 batchArg batchData
     let u := behind s h 0x20 1 batchArg batchData; let g := { graphFill with blocks := [3] }
     arrives s h 0x20 1 batchArg batchData = true ∧ stampTicks 0 = some 0 ∧ u.node = .serving ∧ u.quiesce = 0 ∧ findTask u g.task = none ∧
     (u.contexts.find? fun c => c.2.model == 9 && c.2.stage == 0 && (c.2.holding 7).isSome) = some (1, c) ∧
     (let part := graphOn u { g with jsn := noRequest, copy := 7, context := 1, parts := [] }
      needsDamaged u part 7 = bad ∧
      planned (judgeTask u part .fill 0) = true ∧
      refusedFor (judgeTask u (graphOn u { g with jsn := noRequest, copy := 7, context := 1, parts := [], kLanes := 2 ^ 24 + 1 })
        .fill 0) = 2)) ∧
    (let s := { withGang with now := 1 }
     (s.tasks.find? fun t => (t.gang.any fun g => g.1 == 0x101) && 0x101 % 256 != t.ordinal && s.isPast t.bound) = some gangTask0) := by
  decide +kernel

def building0 : CopySlot := { emptySlot with state := .building, copyId := 7, source := 1, desc := zeros 64 }

theorem witness_MirrorAndPeerBlocks :
    (let p := entryBytes (mkEntry 3 0 1 4 []); let a := leBytes 4 524287
     let s := ganged.setNum 0xA000_06 1; let h := signed (hdr 0 0) 0x30 a p; let u := behind s h 0x30 0 a p
     let e := entryOf p
     arrives s h 0x30 0 a p = true ∧ mirrorFrom u = h.srcOrd.toNat ∧ u.gang.refuseFrom ≠ some h.srcOrd.toNat ∧
     h.flags.toNat.testBit 1 = false ∧ p.length = 64 ∧ 524287 < jPositions ∧ e.reservedOk = true ∧ e.kind = 3) ∧
    (let p := entryBytes (mkEntry 10 0 2 4 (leBytes 4 524287)); let a := leBytes 4 0
     let h := signed { hdr 0 0 with flags := 2 } 0x30 a p; let u := behind ganged h 0x30 0 a p
     arrives ganged h 0x30 0 a p = true ∧ mirrorFrom u = 255 ∧ h.flags.toNat.testBit 1 = true ∧ (entryOf p).kind = 10 ∧
     (entryOf p).reservedOk = true ∧ p.length = 64) ∧
    (let s := modGang ganged fun g => { g with mirrorSent := [(3, 0)] }
     ∀ st ∈ [0, 1], let a := leBytes 4 3 ++ leBytes 1 st; let h := signed (hdr 0 0) 0x31 a []; let u := behind s h 0x31 0 a []
     arrives s h 0x31 0 a [] = true ∧ h.srcOrd.toNat = buddy u ∧ (u.gang.mirrorSent.any fun e => e.1 == 3) = true) ∧
    (let s := { modGang ganged fun g => { g with mirrorSent := [(3, 0)] } with up := 400000000000 }
     ∃ e ∈ s.gang.mirrorSent, s.num 0xA000_07 ≤ s.since e.2) ∧
    (let s := setCtx ganged 1 { noCtx with state := .registered, model := 9, slotA := { slot7 .current [] with blocks := [(0, [1])] } }
     let a := leBytes 4 9 ++ leBytes 1 0 ++ leBytes 2 2; let p := leBytes 4 7 ++ leBytes 4 0; let h := signed (hdr 3 0) 0x41 a p
     let u := behind s h 0x41 3 a p
     arrives s h 0x41 3 a p = true ∧ writtenBlock u 9 0 7 0 ≠ [] ∧ writtenBlock u 9 0 7 1 = [] ∧
     (let v := modGang u fun q => { q with owed := (q.owed ++ [(1, 9, 0, 7, 1)]).dedup }
      upstreamOf v 9 0 7 = none)) ∧
    (let s := { setCtx ganged 1 { noCtx with state := .registered, model := 9, slotA := building0 } with up := 307200 }
     let x := (getCtx s 1).slot false
     x.state = .building ∧ portOf x.source x.desc = some 0 ∧ x.total = 0 ∧ blockAt x.blocks 0 = [] ∧ frameTicks ≤ s.since x.gainAt ∧
     frameTicks ≤ s.since x.askedAt) ∧
    (let s := { setCtx ganged 1 { noCtx with state := .registered, model := 9,
                                              slotA := { slot7 .current [] with repairing := [5], repairPort := some 0 } } with up := 307200 }
     let x := (getCtx s 1).slot false
     x.state ≠ .building ∧ x.repairPort = some 0 ∧ [5] = x.repairing ∧ frameTicks ≤ s.since x.gainAt ∧ frameTicks ≤ s.since x.askedAt) := by
  decide +kernel
/-- A frame that carries its own CRC passes the test of R455. -/
theorem frame_crcOk (h : PeerHdr) (type : Nat) (r p : Bytes) :
    (frameOf { h with crc := peerCrc (frameOf h type r p) } type r p).crcOk = true :=
  beq_iff_eq.2 rfl

/-- Of a frame, the link layer looks at its CRC alone. -/
theorem linkAccept_crcOk (s : State) (p : PeerPort) (h : PeerHdr) (f f' : PeerFrame) (answer : Bool) (hf : f.crcOk = true)
    (hf' : f'.crcOk = true) : linkAccept s p h f answer = linkAccept s p h f' answer := by
  simp only [linkAccept, hf, hf']

/-- … and a weight block of a peer. -/
theorem witness_MirrorAndPeerBlocks_weights :
    let rec_ := leBytes 4 9 ++ leBytes 1 0 ++ ((hdr 3 0).rest ++ [0]).take 1 ++ leBytes 4 0; let p := leBytes 4 7 ++ zeros 4096
    let h := { hdr 3 0 with crc := peerCrc (frameOf (hdr 3 0) 0x40 rec_ p) }
    peerUp ganged 0 = true ∧ h.hops.toNat ≤ 8 ∧ headerOk h 3 = true ∧ (zeros 4096).length = 4096 ∧
    (let t := linkAccept ganged 0 h (frameOf h 0x40 rec_ p) true
     t.2 = true ∧ ownOrdinal t.1 h.destOrd.toNat = true) := by
  refine ⟨by decide +kernel, by decide +kernel, by decide +kernel, List.length_replicate .., ?_⟩
  rw [linkAccept_crcOk ganged 0 _ _ _ true (frame_crcOk (hdr 3 0) 0x40 _ _) (frame_crcOk (hdr 3 0) 0x40 [] [])]
  decide +kernel

/-! ## Time, tasks and streams -/

/-- A time frame payload: stamp 0, span 1,000 ps, probe 77. -/
def timePayload (span : Nat) : Bytes := zeros 12 ++ leBytes 4 span ++ leBytes 2 77 ++ zeros 14

theorem witness_TimeReferences :
    serving.frameInAt = none ∧ (serving.setNum 0x2000_03 1).num 0x2000_03 = 1 ∧
    (let s := serving.setNum 0x2000_03 1
     (0 : Int).natAbs ≤ s.num 0x2000_05 * 51200000000 ∧ s.num 0x2000_05 * 51200000000 < (2 ^ 60 : Int).natAbs ∧ s.outside = none ∧
     { s with outside := some 5 }.outside = some 5) ∧
    (let s := { serving with ring := { serving.ring with probes := serving.ring.probes.set 1 (some { id := 77, came := 0, at_ := 0 }) } }
     let p := timePayload 0
     timePayloadOk true p = true ∧ s.ring.probes[1] = some { id := 77, came := 0, at_ := 0 } ∧ fieldAt p 16 2 = 77 ∧
     ((0 : Int) - (s.up * finePerTick + (0#16).toNat * fineFrac)).natAbs ≤ 1000000000 * 1572864) ∧
    timePayloadOk false [] = false ∧ timePayloadOk true [] = false ∧ stampTicks (fieldAt (timePayload 0) 0 8) ≠ none ∧
    timePayloadOk false (timePayload 0) = true ∧ serving.ring.pairs = [] ∧
    (let s := { online with ring := { online.ring with pairs := [(77, 0)] } }; let p := timePayload 1000
     timePayloadOk false p = true ∧ s.ring.pairs.find? (fun q => q.1 == fieldAt p 16 2) = some (fieldAt p 16 2, 0) ∧ stampTicks (fieldAt p 0 8) = some 0 ∧
     fieldAt p 12 4 ≠ 0 ∧ arrivalPort 1 = timePort s) ∧
    (let s := { serving.setNum 0x2000_03 1 with up := 400000000000 }
     s.num 0x2000_03 = 1 ∧ s.num 0x2000_06 * 307200 ≤ s.since s.checkAt) := by decide +kernel

theorem witness_FrameStartWork : serving.refclk = true ∧ serving.now % 307200 = 0 ∧ serving.sysUp = true ∧ serving.requests = [] ∧
    (let t := { serving with sessions := [session0 8], up := 4000000000000000 }
     t.sessions = [session0 8] ∧ (session0 8).state ≠ .active ∧ t.num 0x6000_02 * 307200 ≤ t.since (session0 8).lastAt) ∧
    (let q := { request0 8 1 with acked := some 3 }; let t := { serving with requests := [q] }
     t.requests = [q] ∧ q.acked.isSome = true ∧ q.sentAcked = false) := by decide +kernel

theorem witness_TasksAdmittedAndAborted :
    (let s := serving
     s.node = .serving ∧ s.quiesce = 0 ∧ findTask s graph0.task = none ∧ findRequest s graph0.jsn = none ∧ graph0.cls = .fill ∧
     needsDamaged s graph0 (((getCtx s graph0.context).currentCopy).getD 0) = false ∧
     planned (judgeTask s (graphOn s graph0) .fill 0) = true ∧
     refusedFor (judgeTask s (graphOn s { graph0 with kLanes := 2 ^ 24 + 1 }) .fill 0) = 2 ∧
     (let u := setCtx s 1 { noCtx with state := .serving, slotA := slot7 .current [3] }
      needsDamaged u { graph0 with blocks := [3] } (((getCtx u 1).currentCopy).getD 0) = true)) ∧
    (let s := { serving with requests := [request0 8 0] }
     findRequest s graph0.jsn = some (request0 8 0) ∧ nextRequest s = some (request0 8 0) ∧ findTask s graph0.task = none) ∧
    (serving.setNum 0x2000_03 3).num 0x2000_03 = 3 ∧ serving.num 0x2000_03 ≠ 3 ∧
    (2 ^ 24 < { graph0 with kLanes := 2 ^ 24 + 1 }.kLanes) ∧
    (2 ^ 23 < { graph0 with bothI8 := true, kLanes := 2 ^ 23 + 1 }.kLanes) ∧ AbortCause.planeRefused ≠ .gang := by decide +kernel

/-- A running step: a request of service 1 that may make one token, its task and its batch. -/
def stepping : Request := { request0 8 1 with header := zeros 16 ++ leBytes 1 1 ++ zeros 111, phase := .running, context := 1 }
/-- Its task, which has sampled token 9 by VREDMAX. -/
def stepTask : Task := { task0 5 with sampled := [(0x55, 0, [9])] }
def batch0 : Batch := { num := 4, context := 1, copy := 7, tasks := [5] }

theorem witness_BatchesTokensAndBuilds :
    (let s := holding { serving with tasks := [task0 5] }
     (getCtx s 1).state ≠ .unregistered ∧ s.batches = [] ∧ findTask s 5 = some (task0 5) ∧ (task0 5).context = 1 ∧ (task0 5).gang = none ∧
     findRequest s (task0 5).jsn = none ∧ (getCtx s 1).pendingTo = none ∧ ((getCtx s 1).currentCopy).getD 0 = 7 ∧
     (getCtx s 1).holding 7 = some false) ∧
    (let s := holding { serving with batches := [{ batch0 with tasks := [] }] }
     s.batches = [{ batch0 with tasks := [] }] ∧ batch0.num = 4 ∧ (getCtx s batch0.context).holding batch0.copy = some false) ∧
    (let s := holding { serving with tasks := [stepTask], batches := [batch0], requests := [stepping] }
     findRequest s 1 = some stepping ∧ stepping.jsn = 1 ∧ stepping.service = 1 ∧ stepping.phase = .running ∧ s.batches = [batch0] ∧
     batch0.tasks = [5] ∧ s.tasks = [stepTask] ∧ stepTask.jsn = 1 ∧ stepping.replayed = none ∧ mramHeld s = false ∧
     (s.facets.toList.all fun x => x.drains == []) = true ∧
     sampledAs stepping (seedFor s stepping) 0 9 0 1 true stepTask.sampled = true) ∧ stepOf serving 1 = none ∧
    (let r := { request0 8 1 with context := 1, damagedAt := some 0 }
     let s := { setCtx serving 1 { noCtx with state := .registered, slotA := slot7 .current [3] } with requests := [r], up := 400000000000 }
     ((getCtx s 1).slot false).damaged ≠ [] ∧ s.requests = [r] ∧ r.context = 1 ∧ r.damagedAt = some 0 ∧
     s.num 0x5000_05 * 307200 ≤ s.since 0) ∧
    (let s := setCtx serving 1 { noCtx with state := .registered, slotA := slot7 .verifying [] }
     let x := (getCtx s 1).slot false
     x.state = .verifying ∧ verifyCopy s 1 x (fun _ _ => true) = 0 ∧
     ((getCtx s 1).model, (getCtx s 1).stage, x.copyId) ∉ s.needed) ∧
    (let s := { setCtx serving 1 { noCtx with state := .registered, slotA := building0 } with up := 400000000000 }
     let x := (getCtx s 1).slot false
     x.state = .building ∧ s.num 0x5000_06 * 307200 ≤ s.since x.gainAt) := by decide +kernel

/-- The entries of a jig of one emission of 64 bytes from a base: SOURCE, EMIT, END. -/
def jig0 (base : Nat) : List Nat := [1 + base * 2 ^ 12, 5 + 1 * 2 ^ 8 + 1 * 2 ^ 24, 7]
def jigRun0 (base next : Nat) : JigRun :=
  { engine := 0, jig := 3, eic := 0, stream := 3, entries := jig0 base, next := next, tag := 0, emitted := 0, openBuf := none, data := [],
    converting := false, what := .other { operand := 0, rowTile := 0, chunks := 1, rows := 0, lanes := 0 }, reading := 0, got := [], hold := none, skip := 0, ended := false, catchup := false, firstSerial := 0 }
def withJig (base next : Nat) : State := { serving with jigs := [jigRun0 base next], streams := [feeds stream0] }
def convert0 : ConvertJob :=
  { eic := 0, stream := 3, task := 5, skip := 0, made := true, records := [], context := 1, copy := 7, operand := 2, rowTile := 0,
    chunk := 0, rows := 512, lanes := 128, cached := false, format := 3, tile := [] }
def starving : Stream := { feeds { stream0 with escape := true, poolBlocks := 1 } with
  starvedAt := some 0, wants := true, bufs := [{ serial := 0, tag := 0, first := 0, blocks := 1, bytes := 4096, escape := false, refs := 1 }] }

/-- The control cores as a receiver at queue 31 of station 0. -/
def core0 : Receiver := { engine := 0x49, queue := 31, inGroup := true, lag := 0, window := 0, unsent := [], sent := [] }

theorem witness_JigsPushesAndStalls :
    (let s := { serving with streams := [feeds stream0] }
     (findStream s 0 3).isSome = true ∧ s.jigs = [] ∧ jigBad 0 (jig0 0) = none ∧ jigBad 0 [] = some 0) ∧
    (∀ n ∈ [0, 1], (withJig 0 n).jigs = [jigRun0 0 n]) ∧ (jigRun0 0 0).converting = false ∧ (jigRun0 0 0).reading = 0 ∧
    serving.power.dips = [] ∧
    (jigShape (jig0 0)).total ≤ 1 ∧ 0 < (jigShape (jig0 0)).total ∧
    (let sh := jigShape (jig0 0); let s := withJig 0 0
     (match jigAddr s sh (jigLimit s (jigRun0 0 0) sh) 0 with | .ok a => a == 0 | .error _ => false) = true ∧
     jigBad (jigRun0 0 0).engine (jigRun0 0 0).entries = none ∧ windowFault s (jigRun0 0 0) sh 0 = none ∧ jigReady s (jigRun0 0 0) = true ∧
     (checkRanges .hbm sh.stack (gatherWord sh 0) (countGather s 0 sh)).2 = none ∧
     (let j8 := { jigRun0 0 0 with engine := 8 }
      jigBad j8.engine j8.entries = none ∧ (windowFault { s with jigs := [j8] } j8 sh 0).isSome = true) ∧
     jigReady { s with streams := [] } (jigRun0 0 0) = false) ∧
    (let b := 2 ^ 40 - 64; let sh := jigShape (jig0 b); let s := withJig b 0
     (match jigAddr s sh (jigLimit s (jigRun0 b 0) sh) 0 with | .ok _ => false | .error e => e.1 == 1) = true) ∧
    (let s := { withJig 0 0 with converts := serving.converts.set 0 [convert0] }
     s.converts[(0 : PairId).val] = [convert0] ∧ convert0.made = true ∧
     (s.jigs.find? fun j => j.eic == 0 && j.stream == 3 && !j.ended) = some (jigRun0 0 0)) ∧
    (let s := setQueue { serving with streams := [{ feeds stream0 with receivers := [core0] }] } 0 31 [item0]
     (coreStream (finishRuns s 0) 0 31).isSome = true) ∧ findStream serving 0 3 = none ∧
    (let s := { serving with streams := [starving], up := 400000000000, tasks := [task0 5] }
     findStream s 0 3 = some starving ∧ starving.desc.eic = 0 ∧ starving.desc.stream = 3 ∧ starving.starvedAt = some 0 ∧ s.num 0x4100_05 ≤ s.since 0 ∧ starving.desc.escape = true ∧
     starving.granted = false ∧ starving.desc.poolBlocks ≤ starving.held ∧ findTask s 5 = some (task0 5) ∧ starving.desc.task = 5 ∧
     s.num 0x4100_04 ≤ s.since (task0 5).progressAt ∧ grantDue s starving = true ∧ watched s 5 = true ∧
     (let x := { starving with granted := true }
      grantDue { s with streams := [x] } x = false ∧ watched { s with streams := [x] } 5 = true ∧ youngest { s with streams := [x] } (5 :: blockers s x) = some (task0 5))) := by
  decide +kernel

/-! ## Light, locking and calibration -/

def withInput (st : InputState) : State := modInput serving 0 fun x => { x with state := st }

/-- A facet powered and lit before its start-up calibration. -/
def startable : State :=
  (List.range 41).foldl (fun s r => setRail s r 2)
    (modLight (inNode .configuring) fun l => { l with amps := Vector.replicate 2 (2 ^ 64 - 1) })

/-- Both light paths of every bus on, of facets that are lost; the headroom threshold is no number, so each headroom is low. -/
def litUp : State :=
  (modLight (modPower serving fun p => { p with lost := 2 ^ 32 - 1 }) fun l =>
    { l with amps := Vector.replicate 2 (2 ^ 64 - 1) }).setNum 0x7010_06 0x7FC00000

theorem witness_LightInputs :
    lightEnable (withInput .ready) 0 = true ∧ lightEnable (withInput .opened) 0 = false ∧ (inputOf (withInput .opened) 0).state = .opened ∧
    (withInput .opened).node ≠ .safe ∧ (inputOf (withInput .ready) 0).state ≠ .opened ∧ (inputOf (withInput .opened) 0).state ≠ .ready ∧
    (inputOf (withInput .opened) 0).state ≠ .low ∧ { withInput .opened with node := .safe }.node = .safe ∧
    flt (serving.num 0x7000_07) 0x42000000 = true ∧ flt (serving.num 0x7000_07) 0 = false ∧ flt 0xC1600000 0xC1500000 = true ∧
    flt 0xC1600000 0xC1600000 = false ∧
    isNan 0x42AA0001 = false ∧ fle 0x42AA0001 0x42AA0000 = false ∧ fle 0x42AA0000 0x42AA0000 = true ∧
    fle ((withInput .ready).num 0x7000_06) 0 = false ∧
    (let mw : Vector (BitVec 32) 8 := Vector.replicate 8 0x42A00000
     let u := setFeeds (withInput .low) 0 ((List.finRange 8).map fun n => (n.val, mw[n].toNat))
     (inputOf u 0).state = .low ∧
     (mw.toList.all fun p => !isNan p.toNat && fle (u.num 0x7000_06) p.toNat && fle p.toNat 0x42A00000) = true) ∧
    litUp.light.amps[sourceIn (litUp.num 0x7010_02) 63].testBit 63 = true ∧
    pathsOn (settleLight (modLight litUp fun l => { l with dead := withBit l.dead (64 * 1 + 63) true })) = [] ∧
    serving.light.amps[sourceIn (serving.num 0x7010_02) 63].testBit 63 = false := by decide +kernel

theorem noteHeadroom_keeps (s : State) (p d : Nat) :
    (noteHeadroom s p d).light.amps = s.light.amps ∧ (noteHeadroom s p d).power = s.power := by
  unfold noteHeadroom
  simp only
  split
  · split
    · exact ⟨rfl, rfl⟩
    · obtain ⟨_, _, h⟩ := State.raise_frame (modLight (modLight (s.setNum 0x7010_07 d) fun l => { l with headroomAt := none })
        fun l => { l with headroomRaised := true }) 0x7013 0xFF (leBytes 1 p ++ leBytes 4 d)
      rw [h]
      exact ⟨rfl, rfl⟩
  · split <;> exact ⟨rfl, rfl⟩
theorem sampleHeadroom_keeps (s : State) :
    (sampleHeadroom s).light.amps = s.light.amps ∧ (sampleHeadroom s).power = s.power := by
  unfold sampleHeadroom
  simp only
  split
  · exact ⟨rfl, rfl⟩
  · exact noteHeadroom_keeps _ _ _
theorem setAmps_keeps (s : State) (a : Vector Nat 2) :
    (setAmps s a).light.amps = a ∧ (setAmps s a).power = s.power := by
  unfold setAmps
  split
  · exact ⟨‹_›, rfl⟩
  · exact sampleHeadroom_keeps _
theorem settleDark_lost (s : State) (h : s.power.lost = 2 ^ 32 - 1) : settleDark s = s := by
  have lost : ∀ f ∈ List.range 32, s.power.lost.testBit f = true := by rw [h]; decide
  unfold settleDark
  revert lost
  generalize List.range 32 = l
  intro lost
  induction l with
  | nil => rfl
  | cons f l ih =>
    rw [List.foldl_cons]
    simp only [lost f List.mem_cons_self, Bool.or_true, if_true]
    exact ih fun g hg => lost g (List.mem_cons_of_mem _ hg)
/-- With no bus to move and every facet lost, the amplifiers become those wanted. -/
theorem settleLight_amps (s : State) (h : s.power.lost = 2 ^ 32 - 1) (m : (List.range 64).filter (failsOver s) = []) :
    (settleLight s).light.amps = wantedAmps s := by
  unfold settleLight
  simp only [m, List.isEmpty_nil, if_true, List.map_nil, List.dedup_nil, List.foldl_nil]
  rw [settleDark_lost _ (by rw [(setAmps_keeps s _).2, h]), (setAmps_keeps s _).1]

/-- … and a failover after which other paths are on. -/
theorem witness_LightInputs_paths :
    let s := (List.finRange 2).foldl (fun s i => modInput s i fun x => { x with state := .ready })
      ((litUp.setNum 0x0020_04 3).setNum 0x7010_03 0)
    let a := sourceIn (s.num 0x7010_02) 63
    s.light.amps[a].testBit 63 = true ∧
    pathsOn (settleLight (modLight s fun l => { l with dead := withBit l.dead (64 * a.val + 63) true })) ≠ [] := by
  refine ⟨by decide +kernel, ?_⟩
  unfold pathsOn
  rw [settleLight_amps _ (by decide +kernel) (by decide +kernel)]
  decide +kernel

def relock0 (checked : Bool) : Relock := { triggers := 1, since := 0, checkRepeated := false, checked := checked, acquires := false, synd := 0, symAt := 0 }
/-- No code of a row check: a code has 11 bits. -/
def wrong : Int := 100000
/-- Facet 0 in a lock state, its loops closed, with a relock. -/
def facetIn (l : LockState) (k : Option Relock) (s : State) : State :=
  facet0 s fun x => { x with lock := l, optic := { x.optic with base := { x.optic.base with loop := 2 }, relock := k } }

theorem witness_LocksAndRelocks :
    (let s := facetIn .locked none serving; let x := facetN s 0; let l := ringLoop x 519 127
     x.degraded = false ∧ l.loop = 2 ∧ x.lock = .locked ∧ x.dipping = false ∧ l.rounds = 0 ∧
     s.num 0x7020_03 < 1023 ∧ ¬(s.num 0x7020_03 < 0) ∧ carries x 519 = false ∧ carries x 515 = true ∧
     identify 63 [(63, -90)] = .confirmed ∧ (127 % 64 : Nat) = 63) ∧
    (∀ c ∈ [true, false], let s := facetIn .relocking (some (relock0 c)) serving; let x := facetN s 0
     x.optic.relock = some (relock0 c) ∧ x.degraded = false ∧ x.lock ≠ .dark ∧ x.lock ≠ .starting ∧ x.dipping = false ∧
     2 < 3 ∧ s.num 0x7020_05 + 92 * 2 < s.num 0x7020_05 + 185 ∧ s.num 0x7020_05 + 184 ≤ s.num 0x7020_05 + 92 * 2 ∧
     (relock0 c).checked = c ∧ (1022 : BitVec 10).toNat ≠ 0 ∧ (1022 : BitVec 10).toNat ≠ 1023 ∧ (1023 : BitVec 10).toNat = 1023) := by
  decide +kernel
/-- … and of a row check. -/
theorem witness_LocksAndRelocks_checks :
    (let s := facetIn .checking (some (relock0 false)) serving; let x := facetN s 0
     x.optic.relock = some (relock0 false) ∧ x.degraded = false ∧ x.lock ≠ .dark ∧ x.lock ≠ .starting ∧ x.dipping = false ∧
     (relock0 false).checkRepeated = false ∧ 2 ≤ freeSpares x ∧ checkFails x [] = [] ∧
     checkFails x [(0, 0, wrong), (11, 511, wrong)] = [0, 511] ∧
     checkFails x [(0, 0, wrong), (1, 1, wrong), (2, 2, wrong)] = [0, 1, 2] ∧ checkFails x [(11, 511, checkCode 11 511)] = [] ∧
     (let u := facet0 s fun x => { x with lock := .locked, optic := { x.optic with relock := none, inPlace := true } }
      (facetN u 0).optic.relock = none ∧ (facetN u 0).optic.inPlace = true ∧ (facetN u 0).optic.cal = none ∧
      (facetN u 0).lock = .locked)) := by
  decide +kernel

def cal0 (failed : Bool) : CalRun :=
  { row := 7, standIn := none, since := 0, inEffect := true, armed := false, failedOnce := failed, returning := false }
/-- Facet 0 locked, at an age of the clock, with its calibration state changed. -/
def calibrating (secs : Nat) (g : Optic → Optic) : State :=
  facet0 { serving with up := secs * 30720000 } fun x => { x with lock := .locked, optic := g x.optic }

/-- Facet 0 starts up; the facet after the calibration of every row but those listed, which failed twice. -/
def starting0 : State :=
  facet0 { startable with store := { Persist.empty with usable := false } } fun x =>
    { x with lock := .starting, optic := { x.optic with relock := some (relock0 false) } }
def started (rows : List Nat) : Facet :=
  facetN (calibrated (retireRows (modFacet (takeCodes starting0 0 []) 0 fun x => allLoops x 2 1) 0 rows) 0) 0

theorem witness_CalibrationAndHeaters :
    (let s := facetIn .locked none serving; let hot := 0x43480000; let u := setRegion s 0 15 hot; let x := facetN u 0
     x.degraded = false ∧ x.lock ≠ .dark ∧ x.lock ≠ .starting ∧ u.node ≠ .safe ∧ isNan hot = false ∧
     fle (abs32 (sub32 hot (u.num 0x7020_02))) (u.num 0x7020_04) = false ∧ outTarget u (heaterKey 0 15) ≠ 0 ∧
     outTarget u (heaterKey 0 15) ≠ 16383 ∧
     (let v := setRegion s 0 15 (s.num 0x7020_02)
      fle (abs32 (sub32 (s.num 0x7020_02) (v.num 0x7020_02))) (v.num 0x7020_04) = true)) ∧
    (let s := starting0; let x := facetN s 0
     x.optic.relock = some (relock0 false) ∧ x.degraded = false ∧ x.lock = .starting ∧ x.dipping = false ∧
     (relock0 false).checkRepeated = false ∧ s.node = .configuring ∧ facetLit s 0 = true ∧ facetPowered s 0 = true ∧
     s.power.lost.testBit 0 = false ∧ (started []).degraded = false ∧ checkFails (started []) [] = [] ∧
     2 < (checkFails (started []) [(0, 0, wrong), (1, 1, wrong), (2, 2, wrong)]).length ∧
     (started [0, 1, 2, 3, 4]).degraded = true) ∧
    (∀ last ∈ [3, 515], let s := calibrating 100000000 fun o => { o with calLast := last }; let x := facetN s 0
     x.degraded = false ∧ x.lock = .locked ∧ x.dipping = false ∧ x.swapping = false ∧ x.optic.cal = none ∧
     s.num 0x7020_01 * 30720000 / max (calRows x).length 1 ≤ s.since x.optic.calStart ∧
     nextInCycle (calRows x) x.optic.calLast = some (last + 1)) ∧
    (let x := facetN (calibrating 0 id) 0
     (rowAt x 4).logical < 516 ∧ 516 ≤ (rowAt x 516).logical ∧ lowestIdle x = some 516) ∧
    (let s := facet0 (calibrating 100000000 fun o => { o with calLast := 3 }) fun x =>
       (List.range 4).foldl (fun x k => setRow x (516 + k) { logical := noRow, role := .retired, cal := false }) x
     let x := facetN s 0
     nextInCycle (calRows x) x.optic.calLast = some 4 ∧ lowestIdle x = none ∧ x.optic.calPaused = false ∧
     ∀ q ∈ calRows x, (rowAt x q).role ≠ .unfit) ∧
    (let c := { cal0 false with standIn := some 516, inEffect := false }
     let s := calibrating 1 fun o => { o with cal := some c }; let x := facetN s 0
     x.optic.cal = some c ∧ c.pending = true ∧ 307200 ≤ s.since c.since ∧ seqIdle s 0 = true ∧ x.shadow = none ∧
     passesRun x = true ∧ x.swapping = false) := by decide +kernel

theorem witness_CalibrationAndHeaters_rows :
    (∀ failed ∈ [true, false], let c := cal0 failed
     let s := { calibrating 1 fun o => { o with cal := some c } with store := { Persist.empty with usable := false } }
     let x := facetN s 0
     x.optic.cal = some c ∧ x.degraded = false ∧ c.inEffect = true ∧ c.returning = false ∧ x.lock = .locked ∧ x.dipping = false ∧
     x.optic.inPlace = false ∧ c.failedOnce = failed ∧ (rowAt x c.row).logical < 516 ∧
     (facetN (calPass s 0 c (Vector.replicate 128 512)) 0).optic.inPlace = false) ∧
    (∀ failed ∈ [true, false], let c := { cal0 failed with row := 516 }
     let s := { calibrating 1 fun o => { o with cal := some c } with store := { Persist.empty with usable := false } }
     let x := facetN s 0
     x.optic.cal = some c ∧ c.inEffect = true ∧ c.returning = false ∧ x.lock = .locked ∧ c.failedOnce = failed ∧
     516 ≤ (rowAt x c.row).logical ∧
     (facetN (calFail ((s.inc 0x7100_0A).raise 0x7019 0 (leBytes 2 516 ++ leBytes 1 6)) 0 c) 0).optic.inPlace = false) ∧
    (let i := serving.num 0x7020_01
     (let s := calibrating ((3 * i + 1) / 2) fun o => { o with calPaused := true }
      (facetN s 0).optic.calPaused = true ∧ (facetN s 0).optic.overdueRaised = false ∧ 3 * i ≤ 2 * oldestCal s 0 ∧
      oldestCal s 0 < 2 * i) ∧
     (let s := calibrating (2 * i) fun o => { o with calPaused := true, overdueRaised := true }
      (facetN s 0).optic.overdueRaised = true ∧ 2 * i ≤ oldestCal s 0 ∧ (facetN s 0).optic.inPlace = false)) := by decide +kernel

/-! ## Memory, power and recovery -/

theorem witness_MemoryUnitsAndScrub :
    (let s := modMaint (serving.setNum 0x4500_05 1025) fun m => { m with waiting := m.waiting.set 0 [549316] }
     s.maint.retiring[(0 : PairId)] = none ∧ 549316 ∈ s.maint.waiting[(0 : PairId)] ∧ s.num 0x4500_05 ≠ 0 ∧ 549316 < 549317) ∧
    (let s := modMaint (serving.setNum 0x4500_05 0) fun m => { m with waiting := m.waiting.set 0 [7] }
     s.maint.retiring[(0 : PairId)] = none ∧ 7 ∈ s.maint.waiting[(0 : PairId)] ∧ s.num 0x4500_05 = 0) ∧
    (modMaint serving fun m => { m with retiring := m.retiring.set 0 (some (7, 0)) }).maint.retiring[(0 : PairId)] = some (7, 0) ∧
    scrubOk .hbm 8 0 .clean = false ∧ scrubOk .shelf 0 134217728 .clean = false ∧ scrubOk .staging 7 0 .clean = true ∧
    (∀ m ∈ [MemKind.hbm, .shelf, .accumulator], scrubOk m 7 0 (.corrected 35) = true ∧ m ≠ .staging ∧ m ≠ .vectorStore ∧
      scrubAt serving m 7 = 0 ∧ sparseGet (fun _ => ReadOutcome.clean) serving.maint.errs (memBase m 7) = .clean ∧
      (let s := modMaint serving fun x => { x with errs := [(memBase m 7, .reread)] }
       sparseGet (fun _ => ReadOutcome.clean) s.maint.errs (memBase m 7) = .reread)) ∧
    (serving.setNum 0x4500_07 35999999936).num 0x4500_07 + 32 < 36000000000 ∧
    (serving.setNum 0x4500_07 35999999968).num 0x4500_07 + 32 = 36000000000 ∧
    (let s := startable; (∀ r ∈ stackRails 7, railGood s r = true) ∧ s.unitUp 3 7 = false ∧ s.node ≠ .sealed) := by decide +kernel

/-- A unit of group 5 (the whole device's power) at its throttle level. -/
def throttle0 (enforced : Bool) (cool : Nat) : Throttle := { group := 5, unit := 0, enforceAt := 0, enforced := enforced, cool := cool }
def throttled (watts : Nat) (t : Throttle) : State :=
  (modPower serving fun p => { p with throttles := [t] }).setNum 0x8000_03 watts

theorem witness_RailsAndThrottling :
    railState (setRail serving 40 1) 40 = 1 ∧
    (∀ w ∈ [0, 0x7F000000], let s := throttled w (throttle0 false 0)
     s.power.throttles = [throttle0 false 0] ∧ (throttle0 false 0).group = 5 ∧ (throttle0 false 0).unit = 0 ∧
     stampBefore s.now (throttle0 false 0).enforceAt = false ∧
     stillHot (modPower s fun p => { p with throttles := [] }) 5 0 = decide (w ≠ 0)) ∧
    (let t := throttle0 true 1000000; (throttled 0 t).num 0x8400_01 ≤ t.cool) ∧ serving.node ≠ .safe ∧ serving.sysHeld = false := by
  decide +kernel

theorem witness_OvervoltageOutcomes : serving.power.failing = false ∧ railGood (setRail serving 4 2) 4 = true ∧
    serving.node ≠ .safe ∧ serving.power.digOff.testBit 31 = false ∧ serving.power.anaOff.testBit 31 = false := by decide +kernel

def dipped (n : Nat) : State := { modPower serving fun p => { p with dips := [(n, 0)] } with up := 400000000000 }

theorem witness_PowerLossAndDips :
    { State.reset with sysHeld := true }.power.failLow = false ∧
    State.reset.power.failLow = false ∧ State.reset.sysHeld = false ∧ State.reset.node = .sealed ∧ serving.node ≠ .sealed ∧
    (modPower serving fun p => { p with failLow := true, failing := true }).power.failLow = true ∧
    (∀ v ∈ [Supply.rail 40, .digital 31, .analogue 0], let s := startable
     s.power.failing = false ∧ s.node ≠ .safe ∧ railWatched s v = true ∧ s.dipping (supplyNum v) = false ∧
     (dipped (supplyNum v)).dipping (supplyNum v) = true ∧
     ((dipped (supplyNum v)).power.dips.find? fun d => d.1 == supplyNum v) = some (supplyNum v, 0) ∧
     supplyNum v ∉ (dipped (supplyNum v)).power.long ∧
     (dipped (supplyNum v)).num 0xB200_08 ≤ (dipped (supplyNum v)).since 0 * 25 / 768) ∧
    (∀ r ∈ [(0 : Fin 41), 2, 4], railWatched startable (.rail r) = true) := by decide +kernel

theorem witness_ResetsAndSaves :
    Memory.wf serving.mem = true ∧ sparseWf dfltOf serving.objs = true ∧
    serving.refclk = true ∧ { serving with refclk := false }.refclk = false ∧ serving.sysHeld = false ∧ serving.node ≠ .safe ∧
    (let s := { serving with up := 110592000000 }
     sysRuns s = true ∧ 110592000000 ≤ s.since s.life.savedAt ∧ Memory.wf s.mem = true ∧ sparseWf dfltOf s.objs = true) ∧
    (let s := { serving with life := { Life.start with serving := 110592000000 } }
     s.node = .serving ∧ sysRuns s = true ∧ s.analog.trimAt + 110592000000 ≤ servingTicks s) ∧
    (let j := jPut JPart.empty 5 (mkEntry 1 0 1 0 [])
     sysRuns serving = true ∧ sparseWf (fun _ => mkEntry 0 0 0 0 []) j.entries = true ∧
     ∃ e ∈ (modJournal serving fun x => { x with own := j }).journal.own.entries, e.2.live = true) := by decide +kernel

/-! ## Converters, outputs and boot -/

/-- Converter 0 in the middle of its factory table. -/
theorem witness_ConversionsAndCalibration :
    (let s := serving; let u := passSkipped 0 130 s
     (converting u 0).isSome = true ∧ convRuns s 0 = true ∧ s.power.dips = [] ∧
     (∀ k ∈ (converting u 0).toList, k.test = false ∧ k.entry ≠ none ∧ ∀ i ∈ k.entry.toList, ((tableOf u 0)[i]?).isSome = true)) ∧
    (let s := modConv serving 0 fun (v : Conv) => { v with testing := true }
     ∃ k ∈ (converting (passSkipped 0 130 s) 0).toList, k.test = true) ∧
    (let s := modConv serving 0 fun (v : Conv) =>
       { v with urgent := [{ channel := 0, gain := 0, short := false, own := false }], urgentRunning := true }
     ∃ k ∈ (converting (passSkipped 0 130 s) 0).toList, k.test = false ∧ k.entry = none) ∧
    (accepts serving 0x9030 1 (leBytes 2 0) = true ∧ (urgentOf 0).isSome = true ∧ serving.analog.convs[(0 : Fin 4)].urgent = [] ∧
     serving.analog.convs[(0 : Fin 4)].stopped = false ∧ serving.analog.convs[(0 : Fin 4)].urgentRunning = false) ∧
    (let s := modConv serving 0 fun (v : Conv) => { v with stopped := true }
     accepts s 0x9030 1 (leBytes 2 0) = true ∧ s.analog.convs[(0 : Fin 4)].stopped = true) ∧
    (∀ ch ∈ [23, 170, 201], let s := ((expert .configuring).setNum 0x9040_01 ch).setNum 0x9040_02 0x3FC00000
     accepts s 0x9040 3 [1] = true ∧ accepts s 0x9040 3 [2] = true ∧ accepts s 0x9040 3 [3] = true ∧ s.analog.zeroed = none ∧
     (s.num 0x9040_01 % 256 < 24 ∨ (170 ≤ s.num 0x9040_01 % 256 ∧ s.num 0x9040_01 % 256 < 202)) ∧ s.num 0x9040_01 / 1024 % 8 ≤ 5 ∧
     (let u := heard (modAnalog s fun a => { a with zeroed := some (ch, 0) })
      (calFullScale u (Vector.replicate 16 6144000)).1 = 0)) := by decide +kernel

def entry0 (window : Bool) : Bytes := leBytes 2 170 ++ leBytes 2 (if window then 128 else 0) ++ zeros 12

theorem witness_WindowComparator :
    ((5 : Int) < 6 ∧ 0 ∉ serving.analog.convs[(0 : Fin 4)].outside) ∧
    (0 ∈ (modConv serving 0 fun (v : Conv) => { v with outside := [0] }).analog.convs[(0 : Fin 4)].outside) ∧
    ((5 : Int) ≤ 5 ∧ (170 : Nat) ≤ 201 ∧ 201 < 202 ∧ serving.analog.convs[(0 : Fin 4)].urgent = [] ∧
     ((tableOf serving 0)[0]?).isSome = true) ∧
    (let s := modConv serving 0 fun (v : Conv) => { v with table := [1] }
     s.analog.convs[(0 : Fin 4)].table ≠ loopTable s 0) := by decide +kernel

def play0 (loop : Nat) : Playback := { out := 15, wave := 0, scale := 0x3F800000, start := 0, next := 0, loop := loop, running := true, ahead := false }
/-- It plays waveform 0 of a table whose first entry has the loop count given. -/
def playing (loops loop : Nat) : State :=
  { modAnalog serving fun a => { a with plays := [play0 loop] } with
    now := 1000000, objs := [(0x9120_02, .bytes (leBytes 2 0 ++ leBytes 2 1 ++ leBytes 2 1 ++ [0] ++ leBytes 1 loops ++ zeros 248))] }

theorem witness_OutputsFollowTheirCodes :
    accepts serving 0x910F 1 (leBytes 2 65535) = true ∧ serving.analog.exts[(15 : Fin 16)].step = 0 ∧ playingOn serving 15 = none ∧
    accepts serving 0x910F 2 [1] = true ∧ accepts (expert .serving) 0x9120 3 (zeros 16) = true ∧ (zeros 16).length = 16 ∧
    (outOf (putOut serving 15 { code := 0, hold := some 9, kept := none, changedAt := 0 }) 15).hold = some 9 ∧
    (0 : Nat) / majorStep 15 ≠ 65535 / majorStep 15 ∧
    frozen serving = false ∧ (∀ n ∈ [1, 2], (modExt serving 15 fun e => { e with step := n }).analog.exts[(15 : Fin 16)].step = n) ∧
    (∀ n ∈ [0, 1], let s := playing 1 n
     s.analog.plays = [play0 n] ∧ (play0 n).running = true ∧ reached s ((play0 n).due (waveOf s 0)) = true) ∧
    (waveOf (playing 1 1) 0).loops ≤ (play0 1).loop ∧ (play0 0).loop < (waveOf (playing 1 0) 0).loops := by decide +kernel

theorem witness_BootAndImages :
    (let s := State.reset
     s.node = .sealed ∧ s.sysHeld = false ∧ s.refclk = true ∧ s.boot.candidate = none ∧ s.ring.remoteReset = 0) ∧
    (let s := { modBoot State.reset fun b => { b with candidate := some (0, true, false) } with up := 46080000 }
     s.boot.candidate = some (0, true, false) ∧ s.node = .sealed ∧ s.power.failLow = false ∧ s.sysHeld = false ∧
     46080000 ≤ s.since s.boot.startedAt) ∧
    accepts serving 0xC030 1 (zeros 32) = true ∧ accepts (serving.setNum 0xC020_01 2) 0xC020 2 (zeros 4096) = true ∧
    (let s := modBoot serving fun b => { b with signing := some (zeros 32) }
     s.boot.signing = some (zeros 32) ∧ inService s = true) ∧
    (let s := modBoot serving fun b => { b with staging := some (1, []) }
     s.boot.staging = some (1, []) ∧ s.sysHeld = false ∧ s.node ≠ .safe) ∧
    (let s := modBoot (serving.setNum 0xC000_01 1) fun b => { b with running := zeros 12 ++ [9] ++ zeros 100 }
     accepts s 0xC000 10 [1] = true ∧ s.num 0xC000_01 ≠ 2 ∧ s.num 0xC000_07 < fwSvn s.boot.running ∧
     fwSvn (zeros 112) ≤ s.num 0xC000_07 ∧ accepts serving 0xC000 10 [0] = true) := by decide +kernel

theorem witness_BootCodeFailures :
    (let s := { modBoot State.reset fun b => { b with candidate := some (0, false, false) } with up := 46080000 }
     s.node = .sealed ∧ s.power.failLow = false ∧ s.sysHeld = false ∧ 46080000 ≤ s.since s.boot.startedAt ∧
     s.boot.candidate = some (0, false, false)) ∧
    State.reset.boot.candidate = none ∧ State.reset.ring.remoteReset = 0 ∧
    (modBoot State.reset fun b => { b with candidate := some fallbackBoot }).boot.candidate = some fallbackBoot ∧
    State.reset.num 0xC000_03 = 255 ∧ serving.node ≠ .safe := by decide +kernel

theorem witness_CanonicalFormsAreKept : Memory.wf State.reset.mem = true ∧ sparseWf dfltOf State.reset.objs = true ∧
    (after (step State.reset)).isSome = true := by decide +kernel

end Sys2Proof.Tests
end

section
/-! PROOFS. The check of a pass (R61): both syndromes are one weighted row sum less two girdle codes, and an error in a compute
row shifts that sum by its weight times the error. -/

namespace Sys2Proof.Machine

/-- The sum over the rows of their codes, each times the weight of its row. -/
def weightedSum (w : Nat → Int) (p : List Int) : Int := (p.mapIdx fun r c => w r * c).sum

/-- A syndrome of R61 before its reduction: the weighted sum of the compute rows less girdle rows k and k + 1. -/
def syndrome (w : Nat → Int) (k : Nat) (codes : List Int) : Int :=
  weightedSum w (codes.take 512) - codes.getD (512 + k) 0 - 3 * codes.getD (512 + (k + 1)) 0

theorem weightedSum_one (p : List Int) : weightedSum (fun _ => 1) p = p.foldl (· + ·) 0 := by
  simp [weightedSum, List.mapIdx_eq_zipIdx_map, List.zipIdx_map_fst, List.sum_eq_foldl]

theorem weightedSum_girdleWeight (p : List Int) :
    weightedSum girdleWeight p = (p.zipIdx.map fun c => girdleWeight c.2 * c.1).foldl (· + ·) 0 := by
  rw [weightedSum, List.mapIdx_eq_zipIdx_map, List.sum_eq_foldl]

theorem weightedSum_set (w : Nat → Int) (p : List Int) (r : Nat) (v : Int) (hr : r < p.length) :
    weightedSum w (p.set r v) = weightedSum w p + w r * (v - p.getD r 0) := by
  have hr' : r < (p.mapIdx fun i c => w i * c).length := by simpa using hr
  simp only [weightedSum, List.mapIdx_set, List.sum_set', dif_pos hr', List.getElem_mapIdx, List.getD_eq_getElem p 0 hr]
  ring

/-! ## The verdict in terms of the syndromes -/

theorem verdictOf_d1 (codes : List Int) : ((verdictOf codes).d1 : Int) = syndrome (fun _ => 1) 0 codes % 9 := by
  rw [syndrome, weightedSum_one]
  exact Int.toNat_of_nonneg (Int.emod_nonneg _ (by decide))

theorem verdictOf_d2 (codes : List Int) : ((verdictOf codes).d2 : Int) = syndrome girdleWeight 2 codes % 9 := by
  rw [syndrome, weightedSum_girdleWeight]
  exact Int.toNat_of_nonneg (Int.emod_nonneg _ (by decide))

theorem Verdict.accepted_iff (v : Verdict) : v.accepted = true ↔ v.d1 = 0 ∧ v.d2 = 0 ∧ v.ranges = 0 := by
  simp [Verdict.accepted, and_assoc]

theorem verdictOf_ranges_eq_zero (codes : List Int) :
    (verdictOf codes).ranges = 0 ↔ ∀ c ∈ codes, -384 ≤ c ∧ c ≤ 384 := by
  have hcode (c : Int) : ¬ 384 < c.natAbs ↔ -384 ≤ c ∧ c ≤ 384 := by omega
  simp [verdictOf, List.filter_eq_nil_iff, ← hcode]

/-! ## Errors in compute rows -/

theorem syndrome_set (w : Nat → Int) (k : Nat) (codes : List Int) (r : Nat) (e : Int) (hlen : codes.length = 516)
    (hr : r < 512) : syndrome w k (codes.set r (codes.getD r 0 + e)) = syndrome w k codes + w r * e := by
  have hgirdle (i : Nat) : (codes.set r (codes.getD r 0 + e)).getD (512 + i) 0 = codes.getD (512 + i) 0 := by
    simp [List.getD_eq_getElem?_getD, List.getElem?_set_ne (show r ≠ 512 + i by omega)]
  have htake : (codes.take 512).getD r 0 = codes.getD r 0 := by
    simp [List.getD_eq_getElem?_getD, List.getElem?_take_of_lt hr]
  simp only [syndrome, hgirdle, List.take_set]
  rw [weightedSum_set w _ r _ (by simp [hlen, hr]), htake]
  ring

theorem syndrome_set_set (w : Nat → Int) (k : Nat) (codes : List Int) (r q : Nat) (e d : Int) (hlen : codes.length = 516)
    (hr : r < 512) (hq : q < 512) (hrq : r ≠ q) :
    syndrome w k ((codes.set r (codes.getD r 0 + e)).set q (codes.getD q 0 + d)) =
      syndrome w k codes + w r * e + w q * d := by
  have hrow : codes.getD q 0 = (codes.set r (codes.getD r 0 + e)).getD q 0 := by
    simp [List.getD_eq_getElem?_getD, List.getElem?_set_ne hrq]
  rw [hrow, syndrome_set w k _ q d (by simp [hlen]) hq, syndrome_set w k codes r e hlen hr]

theorem girdleWeight_eq_one_or_two (r : Nat) : girdleWeight r = 1 ∨ girdleWeight r = 2 := by
  unfold girdleWeight
  split
  · exact .inl rfl
  · exact .inr rfl

/-- The two weightings close each other's blind spots (R61): errors whose plain and weighted sums both vanish modulo 9 lie in
rows of one weight, or each vanishes modulo 9. -/
theorem cancelling_errors (r q : Nat) (e d : Int) (hplain : (9 : Int) ∣ e + d)
    (hweighted : (9 : Int) ∣ girdleWeight r * e + girdleWeight q * d) :
    (girdleWeight r = girdleWeight q ∧ (9 : Int) ∣ e + d) ∨ ((9 : Int) ∣ e ∧ (9 : Int) ∣ d) := by
  by_cases hw : girdleWeight r = girdleWeight q
  · exact .inl ⟨hw, hplain⟩
  · right
    have hr := girdleWeight_eq_one_or_two r
    have hq := girdleWeight_eq_one_or_two q
    have hdiffer : (girdleWeight r = 1 ∧ girdleWeight q = 2) ∨ (girdleWeight r = 2 ∧ girdleWeight q = 1) := by omega
    obtain ⟨hr, hq⟩ | ⟨hr, hq⟩ := hdiffer
    · rw [hr, hq] at hweighted
      omega
    · rw [hr, hq] at hweighted
      omega

theorem verdictOf_one_error (codes : List Int) (r : Nat) (e : Int) (hlen : codes.length = 516) (hr : r < 512)
    (h1 : (verdictOf codes).d1 = 0) (h2 : (verdictOf codes).d2 = 0) :
    let v := verdictOf (codes.set r (codes.getD r 0 + e))
    (v.d1 : Int) = e % 9 ∧ (v.d2 : Int) = girdleWeight r * e % 9 ∧ (¬ (9 : Int) ∣ e → v.accepted = false) := by
  intro v
  have hs1 := verdictOf_d1 codes
  have hs2 := verdictOf_d2 codes
  have hd1 : (v.d1 : Int) = e % 9 := by
    rw [verdictOf_d1, syndrome_set _ 0 codes r e hlen hr]
    omega
  have hd2 : (v.d2 : Int) = girdleWeight r * e % 9 := by
    rw [verdictOf_d2, syndrome_set _ 2 codes r e hlen hr]
    omega
  refine ⟨hd1, hd2, fun hne => Bool.eq_false_iff.mpr fun hacc => hne ?_⟩
  obtain ⟨hzero, -, -⟩ := v.accepted_iff.mp hacc
  omega

theorem verdictOf_two_errors (codes : List Int) (r q : Nat) (e d : Int) (hlen : codes.length = 516) (hr : r < 512)
    (hq : q < 512) (hrq : r ≠ q) (h1 : (verdictOf codes).d1 = 0) (h2 : (verdictOf codes).d2 = 0) :
    let v := verdictOf ((codes.set r (codes.getD r 0 + e)).set q (codes.getD q 0 + d))
    v.d1 = 0 → v.d2 = 0 → (girdleWeight r = girdleWeight q ∧ (9 : Int) ∣ e + d) ∨ ((9 : Int) ∣ e ∧ (9 : Int) ∣ d) := by
  intro v hv1 hv2
  have hs1 := verdictOf_d1 codes
  have hs2 := verdictOf_d2 codes
  have hd1 : (v.d1 : Int) = _ := verdictOf_d1 _
  have hd2 : (v.d2 : Int) = _ := verdictOf_d2 _
  rw [syndrome_set_set _ _ codes r q e d hlen hr hq hrq] at hd1 hd2
  exact cancelling_errors r q e d (by omega) (by omega)

/-- Settles O16: both syndromes are linear in the codes, so an error shows as its own weighted value modulo 9. -/
theorem checkOfAPass : Obligations.CheckOfAPass := by
  unfold Obligations.CheckOfAPass
  refine ⟨fun codes _ => ⟨?_, ?_, ?_⟩, verdictOf_one_error, verdictOf_two_errors, ?_, ?_⟩
  · rw [verdictOf_d1, syndrome, weightedSum_one]
  · rw [verdictOf_d2, syndrome, weightedSum_girdleWeight]
  · rw [Verdict.accepted_iff, verdictOf_ranges_eq_zero]
  · decide +kernel
  · decide +kernel

end Sys2Proof.Machine
end

section
/-! PROOFS. The merge of two elements (R124, R127): at every exponent q fine enough, the merge is the sum of the operands read at
q, rounded once to the window LSB. Each clause of the rule is then a fact about one rounding. -/

namespace Sys2Proof.Machine

/-! ## Rounding to nearest even -/

/-- A rounded quotient is the floor or the next integer; each with its remainder and the reason for the choice. -/
theorem rneDiv_cases (n : Int) (d : Nat) :
    (rneDiv n d = n / d ∧ rneDiv n d * d - n = -(n % d) ∧ (2 * (n % d) < d ∨ 2 * (n % d) = d ∧ n / d % 2 = 0)) ∨
    (rneDiv n d = n / d + 1 ∧ rneDiv n d * d - n = d - n % d ∧ (2 * (n % d) > d ∨ 2 * (n % d) = d ∧ n / d % 2 = 1)) := by
  have hdiv := Int.mul_ediv_add_emod n d
  have hchoice : (rneDiv n d = n / d ∧ (2 * (n % d) < d ∨ 2 * (n % d) = d ∧ n / d % 2 = 0)) ∨
      (rneDiv n d = n / d + 1 ∧ (2 * (n % d) > d ∨ 2 * (n % d) = d ∧ n / d % 2 = 1)) := by
    simp only [rneDiv]
    split_ifs <;> omega
  obtain ⟨h, hr⟩ | ⟨h, hr⟩ := hchoice
  · exact .inl ⟨h, by rw [h]; linarith, hr⟩
  · exact .inr ⟨h, by rw [h]; linarith, hr⟩

theorem rneDiv_nearest_even (n : Int) (d : Nat) (hd : 0 < d) :
    2 * (rneDiv n d * d - n).natAbs ≤ d ∧ (2 * (rneDiv n d * d - n).natAbs = d → rneDiv n d % 2 = 0) := by
  have hnonneg := Int.emod_nonneg n (b := d) (by omega)
  have hlt := Int.emod_lt_of_pos n (b := d) (by omega)
  have := rneDiv_cases n d
  omega

theorem rneDiv_mul_self (d : Nat) (x : Int) (hd : 0 < d) : rneDiv (d * x) d = x := by
  have hd' : (d : Int) ≠ 0 := by omega
  simp [rneDiv, hd, Int.mul_ediv_cancel_left x hd']

theorem rneDiv_mul_eq_iff (n : Int) (d : Nat) (hd : 0 < d) : rneDiv n d * d = n ↔ n % d = 0 := by
  constructor
  · intro h
    rw [← h, Int.mul_emod_left]
  · intro h
    obtain ⟨x, rfl⟩ := Int.dvd_of_emod_eq_zero h
    rw [rneDiv_mul_self d x hd, mul_comm]

theorem rneDiv_mul_mul_left (n : Int) (d k : Nat) (hk : 0 < k) : rneDiv (k * n) (k * d) = rneDiv n d := by
  have hk' : (0 : Int) < k := by omega
  have hlt : 2 * (k * (n % d)) < (k * d : Int) ↔ 2 * (n % d) < d := by
    rw [mul_left_comm, mul_lt_mul_iff_right₀ hk']
  have hgt : 2 * (k * (n % d)) > (k * d : Int) ↔ 2 * (n % d) > d := by
    rw [mul_left_comm, gt_iff_lt, mul_lt_mul_iff_right₀ hk']
  simp only [rneDiv, Nat.cast_mul, Int.mul_ediv_mul_of_pos _ _ hk', Int.mul_emod_mul_of_pos _ _ hk', hlt, hgt]

theorem natAbs_rneDiv_le (n : Int) (d x : Nat) (hd : 0 < d) (hn : n.natAbs ≤ x * d) : (rneDiv n d).natAbs ≤ x := by
  obtain ⟨herr, -⟩ := rneDiv_nearest_even n d hd
  have hmul : (rneDiv n d * d).natAbs < (x + 1) * d := by
    rw [add_mul]
    omega
  rw [Int.natAbs_mul, Int.natAbs_natCast] at hmul
  have := lt_of_mul_lt_mul_right hmul (Nat.zero_le d)
  omega

/-! ## An element read at a finer exponent -/

theorem two_pow_toNat_sub (x e q : Int) (he : e ≤ x) (hq : q ≤ e) :
    2 ^ (x - q).toNat = 2 ^ (e - q).toNat * 2 ^ (x - e).toNat := by
  rw [← pow_add, ← Int.toNat_add (by omega) (by omega), add_comm, sub_add_sub_cancel]

theorem Elem.natAbs_int (v : Elem) : v.int.natAbs = v.mag := by
  simp only [Elem.int, sMag]
  split <;> simp

theorem Elem.at_of_le (v : Elem) (q : Int) (hq : q ≤ v.exp) : v.at q = v.int * 2 ^ (v.exp - q).toNat := by
  simp [Elem.at, hq]

theorem Elem.natAbs_at (v : Elem) (q : Int) (hq : q ≤ v.exp) : (v.at q).natAbs = v.mag * 2 ^ (v.exp - q).toNat := by
  rw [v.at_of_le q hq, Int.natAbs_mul, v.natAbs_int, Int.natAbs_pow]
  rfl

theorem Elem.at_eq_at_mul (v : Elem) (e q : Int) (he : e ≤ v.exp) (hq : q ≤ e) :
    v.at q = (2 ^ (e - q).toNat : Nat) * v.at e := by
  have hpow := congrArg (Nat.cast (R := Int)) (two_pow_toNat_sub v.exp e q he hq)
  push_cast at hpow ⊢
  rw [v.at_of_le q (by omega), v.at_of_le e he, hpow]
  ring

theorem Elem.two_pow_lead_le (v : Elem) (q : Int) (hv : v.mag ≠ 0) (hq : q ≤ v.exp) :
    2 ^ (v.lead - q).toNat ≤ (v.at q).natAbs := by
  have hlead : (v.lead - q).toNat = Nat.log2 v.mag + (v.exp - q).toNat := by
    rw [Elem.lead]
    omega
  rw [v.natAbs_at q hq, hlead, pow_add]
  exact Nat.mul_le_mul_right _ (Nat.log2_self_le hv)

/-- A 64-bit magnitude whose leading bit is 62 places above the window LSB, or lower, stays half an LSB below 2^63 LSBs. -/
theorem Elem.two_mul_natAbs_at_le (v : Elem) (lsb q : Int) (hmag : v.mag < 2 ^ 64) (hq : q ≤ v.exp) (hlsb : q ≤ lsb)
    (hlead : v.lead ≤ lsb + 62) : 2 * (v.at q).natAbs ≤ (2 ^ 64 - 1) * 2 ^ (lsb - q).toNat := by
  rw [v.natAbs_at q hq]
  rw [Elem.lead] at hlead
  obtain hfine | hcoarse := lt_or_ge v.exp lsb
  · have hpow : 2 * 2 ^ (v.exp - q).toNat ≤ 2 ^ (lsb - q).toNat := by
      rw [← pow_succ']
      exact Nat.pow_le_pow_right (by decide) (by omega)
    calc 2 * (v.mag * 2 ^ (v.exp - q).toNat) = v.mag * (2 * 2 ^ (v.exp - q).toNat) := by ring
      _ ≤ (2 ^ 64 - 1) * 2 ^ (lsb - q).toNat := Nat.mul_le_mul (by omega) hpow
  · have hbits : v.mag * 2 ^ ((v.exp - lsb).toNat + 1) < 2 ^ 64 :=
      calc v.mag * 2 ^ ((v.exp - lsb).toNat + 1)
          < 2 ^ (Nat.log2 v.mag + 1) * 2 ^ ((v.exp - lsb).toNat + 1) :=
            Nat.mul_lt_mul_of_pos_right Nat.lt_log2_self (by positivity)
        _ = 2 ^ (Nat.log2 v.mag + 1 + ((v.exp - lsb).toNat + 1)) := (pow_add ..).symm
        _ ≤ 2 ^ 64 := Nat.pow_le_pow_right (by decide) (by omega)
    calc 2 * (v.mag * 2 ^ (v.exp - q).toNat)
        = v.mag * 2 ^ ((v.exp - lsb).toNat + 1) * 2 ^ (lsb - q).toNat := by
          rw [two_pow_toNat_sub v.exp lsb q hcoarse hlsb]
          ring
      _ ≤ (2 ^ 64 - 1) * 2 ^ (lsb - q).toNat := Nat.mul_le_mul_right _ (by omega)

/-! ## The merge as one rounding -/

/-- The exponent of the window LSB of a merge (R124, R127). -/
def windowLsb (m : Mode) (a b : Elem) : Int := max a.lead b.lead - (if m = .wide then 126 else 62)

theorem windowLsb_comm (m : Mode) (a b : Elem) : windowLsb m b a = windowLsb m a b := by
  rw [windowLsb, windowLsb, max_comm]

theorem lead_le_windowLsb_scaled (a b : Elem) :
    a.lead ≤ windowLsb .scaled a b + 62 ∧ b.lead ≤ windowLsb .scaled a b + 62 := by
  simp [windowLsb]

/-- The merge outside integer mode; of two non-zero elements it has two cases, by whether an operand reaches below the window
LSB. -/
theorem elemMerge_eq (m : Mode) (a b : Elem) (hm : m ≠ .integer) :
    let lsb := windowLsb m a b
    let e := min a.exp b.exp
    let s := a.at e + b.at e
    elemMerge m a b =
      if a.mag = 0 then b else if b.mag = 0 then a
      else if lsb ≤ e then Elem.ofInt (s * 2 ^ (e - lsb).toNat) lsb (a.inexact || b.inexact)
      else Elem.ofInt (rneDiv s (2 ^ (lsb - e).toNat)) lsb
        (a.inexact || b.inexact || decide (s % 2 ^ (lsb - e).toNat ≠ 0)) := by
  simp only [Elem.at_of_le _ _ (min_le_left a.exp b.exp), Elem.at_of_le _ _ (min_le_right a.exp b.exp)]
  cases m with
  | integer => exact absurd rfl hm
  | scaled => simp [elemMerge, windowLsb, magBits]
  | wide => simp [elemMerge, windowLsb, magBits]

/-- The rule itself (R124): read both operands at any exponent q at or below every exponent involved, add them exactly and
round the sum once to the window LSB. -/
theorem elemMerge_eq_ofInt_rneDiv (m : Mode) (a b : Elem) (q : Int) (hm : m ≠ .integer) (ha : a.mag ≠ 0) (hb : b.mag ≠ 0)
    (hqa : q ≤ a.exp) (hqb : q ≤ b.exp) (hq : q ≤ windowLsb m a b) :
    let w : Nat := 2 ^ (windowLsb m a b - q).toNat
    elemMerge m a b = Elem.ofInt (rneDiv (a.at q + b.at q) w) (windowLsb m a b)
      (a.inexact || b.inexact || decide ((a.at q + b.at q) % w ≠ 0)) := by
  have hqe : q ≤ min a.exp b.exp := le_min hqa hqb
  have hsum : a.at q + b.at q =
      (2 ^ (min a.exp b.exp - q).toNat : Nat) * (a.at (min a.exp b.exp) + b.at (min a.exp b.exp)) := by
    rw [a.at_eq_at_mul _ q (min_le_left ..) hqe, b.at_eq_at_mul _ q (min_le_right ..) hqe, mul_add]
  simp only [elemMerge_eq m a b hm, if_neg ha, if_neg hb, hsum]
  generalize windowLsb m a b = lsb at *
  generalize min a.exp b.exp = e at *
  generalize a.at e + b.at e = s
  split
  case isTrue hexact =>
    rw [two_pow_toNat_sub e lsb q hexact hq, Nat.cast_mul, mul_assoc, rneDiv_mul_self _ _ (by positivity)]
    simp [mul_comm s]
  case isFalse hround =>
    have hpos : (0 : Int) < (2 ^ (e - q).toNat : Nat) := by positivity
    rw [two_pow_toNat_sub lsb e q (by omega) hqe, rneDiv_mul_mul_left _ _ _ (by positivity), Nat.cast_mul,
      Int.mul_emod_mul_of_pos _ _ hpos]
    simp

theorem elemMerge_comm (m : Mode) (a b : Elem) (hm : m ≠ .integer) (ha : a.mag ≠ 0) (hb : b.mag ≠ 0) :
    elemMerge m b a = elemMerge m a b := by
  simp only [elemMerge_eq _ _ _ hm, if_neg ha, if_neg hb]
  rw [windowLsb_comm, min_comm b.exp, add_comm (b.at _), Bool.or_comm b.inexact]

theorem Elem.int_ofInt (i e : Int) (x : Bool) : (Elem.ofInt i e x).int = i := by
  simp only [Elem.ofInt, Elem.int, sMag, decide_eq_true_eq]
  split <;> omega

/-- A merge reads as its rounded sum, at the window LSB and INEXACT where the rounding missed the sum. -/
theorem elemMerge_rounds (m : Mode) (a b : Elem) (q : Int) (hm : m ≠ .integer) (ha : a.mag ≠ 0) (hb : b.mag ≠ 0)
    (hqa : q ≤ a.exp) (hqb : q ≤ b.exp) (hq : q ≤ windowLsb m a b) :
    let r := elemMerge m a b
    let w : Nat := 2 ^ (windowLsb m a b - q).toNat
    let off := (r.at q - (a.at q + b.at q)).natAbs
    r.exp = windowLsb m a b ∧ 2 * off ≤ w ∧ (2 * off = w → r.mag % 2 = 0) ∧
      (r.inexact = true ↔ a.inexact = true ∨ b.inexact = true ∨ off ≠ 0) ∧ (r.mag = 0 → r.neg = false) := by
  intro r w off
  have hw : 0 < w := by positivity
  have hr : r = Elem.ofInt (rneDiv (a.at q + b.at q) w) (windowLsb m a b)
      (a.inexact || b.inexact || decide ((a.at q + b.at q) % w ≠ 0)) :=
    elemMerge_eq_ofInt_rneDiv m a b q hm ha hb hqa hqb hq
  have hat : r.at q = rneDiv (a.at q + b.at q) w * w := by
    rw [hr, Elem.at_of_le _ q hq, Elem.int_ofInt]
    simp [w, Elem.ofInt]
  have hoff : off = (rneDiv (a.at q + b.at q) w * w - (a.at q + b.at q)).natAbs := by
    rw [← hat]
  obtain ⟨herr, heven⟩ := rneDiv_nearest_even (a.at q + b.at q) w hw
  refine ⟨by rw [hr, Elem.ofInt], hoff ▸ herr, fun htie => ?_, ?_, fun hmag => ?_⟩
  · have := heven (hoff ▸ htie)
    simp only [hr, Elem.ofInt]
    omega
  · have hexact : off = 0 ↔ (a.at q + b.at q) % w = 0 := by
      rw [hoff, Int.natAbs_eq_zero, sub_eq_zero, rneDiv_mul_eq_iff _ w hw]
    simp [hr, Elem.ofInt, hexact, or_assoc]
  · simp only [hr, Elem.ofInt, Int.natAbs_eq_zero] at hmag ⊢
    simp [hmag]

/-- The scaled window has room for the sum and its carry: MAG keeps to its 64 bits (R124). -/
theorem elemMerge_scaled_mag_lt (a b : Elem) (q : Int) (ha : a.mag ≠ 0) (hb : b.mag ≠ 0) (hqa : q ≤ a.exp)
    (hqb : q ≤ b.exp) (hq : q ≤ windowLsb .scaled a b) (ha64 : a.mag < 2 ^ 64) (hb64 : b.mag < 2 ^ 64) :
    (elemMerge .scaled a b).mag < 2 ^ 64 := by
  obtain ⟨hla, hlb⟩ := lead_le_windowLsb_scaled a b
  have hA := a.two_mul_natAbs_at_le _ q ha64 hqa hq hla
  have hB := b.two_mul_natAbs_at_le _ q hb64 hqb hq hlb
  have hsum := Int.natAbs_add_le (a.at q) (b.at q)
  rw [elemMerge_eq_ofInt_rneDiv .scaled a b q (by decide) ha hb hqa hqb hq]
  exact Nat.lt_of_le_pred (by decide) (natAbs_rneDiv_le _ _ (2 ^ 64 - 1) (by positivity) (by omega))

/-- The leading operand alone reaches 2^62 window LSBs. -/
theorem two_pow_windowLsb_le (a b : Elem) (q : Int) (ha : a.mag ≠ 0) (hb : b.mag ≠ 0) (hqa : q ≤ a.exp)
    (hqb : q ≤ b.exp) (hq : q ≤ windowLsb .scaled a b) :
    2 ^ 62 * 2 ^ (windowLsb .scaled a b - q).toNat ≤ (a.at q).natAbs + (b.at q).natAbs := by
  have hA := a.two_pow_lead_le q ha hqa
  have hB := b.two_pow_lead_le q hb hqb
  have hlead (v : Elem) (hv : windowLsb .scaled a b = v.lead - 62) :
      2 ^ 62 * 2 ^ (windowLsb .scaled a b - q).toNat = 2 ^ (v.lead - q).toNat := by
    rw [← pow_add]
    congr 1
    omega
  obtain hmax | hmax := max_choice a.lead b.lead
  · rw [hlead a (by simp [windowLsb, hmax])]
    omega
  · rw [hlead b (by simp [windowLsb, hmax])]
    omega

/-- Half an LSB of a scaled merge is at most 2^-63 of |A| + |B| (R124). -/
theorem elemMerge_scaled_error (a b : Elem) (q : Int) (ha : a.mag ≠ 0) (hb : b.mag ≠ 0) (hqa : q ≤ a.exp)
    (hqb : q ≤ b.exp) (hq : q ≤ windowLsb .scaled a b) :
    2 ^ 63 * ((elemMerge .scaled a b).at q - (a.at q + b.at q)).natAbs ≤ (a.at q).natAbs + (b.at q).natAbs := by
  obtain ⟨-, herr, -⟩ := elemMerge_rounds .scaled a b q (by decide) ha hb hqa hqb hq
  calc 2 ^ 63 * ((elemMerge .scaled a b).at q - (a.at q + b.at q)).natAbs
      = 2 ^ 62 * (2 * ((elemMerge .scaled a b).at q - (a.at q + b.at q)).natAbs) := by ring
    _ ≤ 2 ^ 62 * 2 ^ (windowLsb .scaled a b - q).toNat := Nat.mul_le_mul_left _ herr
    _ ≤ (a.at q).natAbs + (b.at q).natAbs := two_pow_windowLsb_le a b q ha hb hqa hqb hq

/-- Settles O18: the merge is one rounding of the exact sum, at any exponent fine enough to read the operands exactly. With both
magnitudes 0, where R124 names either operand, the first clause says what the model chose: B (log entry 101). -/
theorem mergeOfTwoElements : Obligations.MergeOfTwoElements := by
  unfold Obligations.MergeOfTwoElements
  intro m a b hm
  refine ⟨fun ha => ?_, fun hb ha => ?_, ?_⟩
  · rw [elemMerge_eq m a b hm, if_pos ha]
  · rw [elemMerge_eq m a b hm, if_neg ha, if_pos hb]
  intro q ha hb lsb r at_ off hqa hqb hq
  have hq : q ≤ windowLsb m a b := hq.le
  obtain ⟨hexp, herr, htie, hinexact, hzero⟩ := elemMerge_rounds m a b q hm ha hb hqa hqb hq
  have hA : at_ a = a.at q := (a.at_of_le q hqa).symm
  have hB : at_ b = b.at q := (b.at_of_le q hqb).symm
  have hR : at_ r = r.at q := (r.at_of_le q (hexp ▸ hq)).symm
  have hoff : off = (r.at q - (a.at q + b.at q)).natAbs := by rw [← hA, ← hB, ← hR]
  rw [hoff, hA, hB]
  refine ⟨hexp, herr, htie, hinexact, hzero, elemMerge_comm m a b hm ha hb, ?_⟩
  rintro rfl ha64 hb64
  exact ⟨elemMerge_scaled_mag_lt a b q ha hb hqa hqb hq ha64 hb64, elemMerge_scaled_error a b q ha hb hqa hqb hq⟩

end Sys2Proof.Machine
end

section
/-! PROOFS. Over-voltage and reset-level crossings (R498, R518, R519): what the two commands do to each kind of supply. -/

namespace Sys2Proof.Machine

theorem State.raise_now (s : State) (code unit : Nat) (data : Bytes) : (s.raise code unit data).now = s.now := by
  obtain ⟨_, _, h⟩ := s.raise_frame code unit data
  rw [h]

/-! ## OVERVOLTAGE outside the power-fail sequence (R519) -/

section
variable {s : State} (running : s.power.failing = false)
include running

theorem execOvervoltage_boardRail (r : Fin 41) (hr : r.val < 4) : execOvervoltage (.rail r) s = .next (enterSafe s 5) := by
  simp [execOvervoltage, running, hr]

theorem execOvervoltage_goodRail (r : Fin 41) (hr : 4 ≤ r.val) (good : railGood s r.val = true) :
    execOvervoltage (.rail r) s = .next (loseRail ((setRail s r.val 5).raise 0x8011 0xFF (leBytes 1 r.val)) r.val) := by
  simp [execOvervoltage, running, hr.not_gt, good, supplyNum]

theorem execOvervoltage_digital (f : FacetId) (on : s.power.digOff.testBit f.val = false) :
    execOvervoltage (.digital f) s = .next (loseDomain (s.raise 0x8011 0xFF (leBytes 1 (64 + f.val))) f.val true) := by
  simp [execOvervoltage, running, on, supplyNum]

theorem execOvervoltage_analogue (f : FacetId) (on : s.power.anaOff.testBit f.val = false) :
    execOvervoltage (.analogue f) s = .next (loseDomain (s.raise 0x8011 0xFF (leBytes 1 (96 + f.val))) f.val false) := by
  simp [execOvervoltage, running, on, supplyNum]

/-- A rail above the board's that crosses its reset level first ends its dip, then its units lose it (R498, R518). -/
theorem execResetLevelCrossing_goodRail (r : Fin 41) (hr : 4 ≤ r.val) (good : railGood s r.val = true) :
    execResetLevelCrossing (.rail r) s =
      .next (loseRail (setRail (dipOver (s.inc 0xB200_07) r.val 0 []) r.val 4) r.val) := by
  have hSys : ¬ r.val < 2 := by omega
  simp [execResetLevelCrossing, railWatched, running, good, supplyNum, hSys, hr.not_gt]

end

/-- A domain lost just after an event degrades its facet with the stamp of that moment: the event takes no time. -/
theorem loseDomain_raise (s : State) (f code unit : Nat) (data : Bytes) (digital : Bool) :
    loseDomain (s.raise code unit data) f digital =
      settleAllFacets (degradeFacet (s.raise code unit data) f 0x3FF 0x3FF 0 s.now digital) := by
  rw [loseDomain, State.raise_now]

/-- Settles O51: one equation of the two commands for each kind of supply. That the event of a facet degraded with no failed
symbol carries rows 3FFh, syndromes 0 and the present stamp is the model's choice (log entry 97); the clause on the reset level
is R498 and R518. -/
theorem overvoltageOutcomes : Obligations.OvervoltageOutcomes := by
  unfold Obligations.OvervoltageOutcomes
  intro s running
  refine ⟨fun r hr good => ⟨?_, ?_⟩, fun r hr => ?_, fun hn => ?_, fun f on => ?_, fun f on => ?_⟩
  · exact execOvervoltage_goodRail running r hr good
  · exact execResetLevelCrossing_goodRail running r hr good
  · exact execOvervoltage_boardRail running r hr
  · exact (enterSafe_off s 5 hn).1
  · rw [← loseDomain_raise]
    exact execOvervoltage_digital running f on
  · rw [← loseDomain_raise]
    exact execOvervoltage_analogue running f on

end Sys2Proof.Machine
end

section
/-! PROOFS. The window comparator of a sequence entry (R545): what one result does to it in each of its three cases, and the
results that pass through it. -/

namespace Sys2Proof.Machine

/-! ## A converter's own state -/

theorem modConv_convs_self (s : State) (c : Fin 4) (g : Conv → Conv) :
    (modConv s c g).analog.convs[c] = g s.analog.convs[c] := by
  simp [modConv, modAnalog]

theorem modConv_unchanged (s : State) (c : Fin 4) : (modConv s c fun v => v) = s := by
  simp [modConv, modAnalog]

@[simp] theorem modConv_events (s : State) (c : Fin 4) (g : Conv → Conv) : (modConv s c g).events = s.events := rfl

@[simp] theorem State.raise_analog (s : State) (code unit : Nat) (data : Bytes) : (s.raise code unit data).analog = s.analog := by
  obtain ⟨_, _, h⟩ := s.raise_frame code unit data
  rw [h]

@[simp] theorem putResult_convs (s : State) (ch : Nat) (r : ChanResult) : (putResult s ch r).analog.convs = s.analog.convs := rfl

/-! ## The comparator by the entry's previous result and the present one -/

section
variable (s : State) (c : Fin 4) (i ch : Nat) (e : SeqEntry) (code : Int)

/-- A result outside after one inside: the entry is noted as outside, and WINDOW_EXIT is raised. -/
theorem judgeWindow_departs (out : code < e.low ∨ e.high < code) (wasIn : i ∉ s.analog.convs[c].outside) :
    judgeWindow s c i ch e code = (modConv s c fun v => { v with outside := v.outside ++ [i] }).raise 0x9010 0xFF
      (leBytes 1 c.val ++ leBytes 1 i ++ leBytes 1 ch ++ leBytes 4 (unsignedOf 32 code)) := by
  simp [judgeWindow, out, wasIn, -Fin.getElem_fin]

/-- A result outside after one outside changes nothing. -/
theorem judgeWindow_staysOutside (out : code < e.low ∨ e.high < code) (wasOut : i ∈ s.analog.convs[c].outside) :
    judgeWindow s c i ch e code = s := by
  simp [judgeWindow, out, wasOut, modConv_unchanged, -Fin.getElem_fin]

/-- A result inside re-arms the comparator of its entry. -/
theorem judgeWindow_inside (low : e.low ≤ code) (high : code ≤ e.high) :
    judgeWindow s c i ch e code = modConv s c fun v => { v with outside := v.outside.filter (· != i) } := by
  simp [judgeWindow, low.not_gt, high.not_gt]

/-- The comparator changes no queue of urgent requests. -/
theorem judgeWindow_urgent : (judgeWindow s c i ch e code).analog.convs[c].urgent = s.analog.convs[c].urgent := by
  by_cases out : code < e.low ∨ e.high < code
  · by_cases was : i ∈ s.analog.convs[c].outside
    · rw [judgeWindow_staysOutside s c i ch e code out was]
    · rw [judgeWindow_departs s c i ch e code out was, State.raise_analog, modConv_convs_self]
  · obtain ⟨low, high⟩ := not_or.mp out
    rw [judgeWindow_inside s c i ch e code (not_lt.mp low) (not_lt.mp high), modConv_convs_self]

end

/-! ## The results that reach it -/

/-- Channels 170 to 201 are read by no sensor, rail or output: their results are stored only. -/
theorem useResult_unused (s : State) (c : Fin 4) (k : Conversion) (code : Int) (low : 170 ≤ k.channel) (high : k.channel < 202) :
    useResult s c k code = s := by
  have pin : ¬ k.channel < 24 := by omega
  have temp : ¬ k.channel < 88 := by omega
  have volt : ¬ k.channel < 129 := by omega
  have current : ¬ k.channel < 170 := by omega
  simp [useResult, pin, temp, volt, current, high]

/-- A result of a table's entry on such a channel: the comparator where the entry has WINDOW, then the result is stored. -/
theorem storeResult_unused (s : State) (c : Fin 4) (i ch gain : Nat) (raw : Int) (e : SeqEntry) (entry : (tableOf s c)[i]? = some e)
    (low : 170 ≤ ch) (high : ch < 202) (idle : s.analog.convs[c].urgent = []) :
    ∃ flags, storeResult s c { channel := ch, gain := gain, short := false, entry := some i, test := false } raw false =
      putResult (if e.window then judgeWindow s c i ch e (calCode s ch gain raw).1 else s) ch
        { code := (calCode s ch gain raw).1, flags := flags, conv := c.val, age := 0 } := by
  have still : (if e.window then judgeWindow s c i ch e (calCode s ch gain raw).1 else s).analog.convs[c].urgent = [] := by
    split
    · rw [judgeWindow_urgent, idle]
    · exact idle
  simp only [storeResult, Bool.false_and, Bool.false_eq_true, if_false, Option.bind_some, entry, putResult_convs, still]
  exact ⟨_, useResult_unused _ c _ _ low high⟩

/-- A loop that begins with a table which was not in force takes every entry's previous result as inside. -/
theorem newLoop_outside_of_table_ne (s : State) (c : Fin 4) (changed : s.analog.convs[c].table ≠ loopTable s c) :
    (newLoop s c).analog.convs[c].outside = [] := by
  simp [newLoop, modConv_convs_self, changed, -Fin.getElem_fin]

/-- Settles O55: the three cases of the comparator, the results that pass through it, and its state after a new table. -/
theorem windowComparator : Obligations.WindowComparator := by
  unfold Obligations.WindowComparator
  refine ⟨fun c i ch e code s => ⟨?_, fun out wasOut => ?_, fun low high => ?_⟩, ?_, fun c s => newLoop_outside_of_table_ne s c⟩
  · exact judgeWindow_departs s c i ch e code
  · rw [judgeWindow_staysOutside s c i ch e code out wasOut]
    exact ⟨rfl, rfl⟩
  · rw [judgeWindow_inside s c i ch e code low high, modConv_convs_self]
    refine ⟨modConv_events _ _ _, by simp, fun k other => ?_⟩
    simp [other]
  · exact fun c i ch gain raw e s => storeResult_unused s c i ch gain raw e

end Sys2Proof.Machine
end

section
/-! PROOFS. Boot code failures (R574): what the boot timeout does while a boot is open, how a boot goes on once its self-check has
passed, and what a failed start-up test leads to from there. -/

namespace Sys2Proof.Machine

/-! ## The two commands -/

theorem exec_boot (selfCheckOk testsOk : Bool) (lines : List (PairId × Nat)) (facets : BitVec 32) (s : State) :
    exec (.boot selfCheckOk testsOk lines facets) s = execBoot selfCheckOk testsOk lines facets s := rfl

theorem exec_bootTimeout (s : State) : exec .bootTimeout s = execBootTimeout s := rfl

/-! ## The power-up count changes records only -/

theorem RecordsOnly.ring {s t : State} (h : RecordsOnly s t) : t.ring = s.ring := by
  obtain ⟨_, _, _, _, rfl⟩ := h
  rfl

theorem countPowerUp_records (s : State) : RecordsOnly s (countPowerUp s) := by
  unfold countPowerUp
  split
  · exact (RecordsOnly.setNum _ _ _).trans (RecordsOnly.save _ _)
  · exact RecordsOnly.refl s

/-- A boot that begins again is no further power-up. -/
theorem countPowerUp_of_candidate {s : State} {c : Nat × Bool × Bool} (h : s.boot.candidate = some c) : countPowerUp s = s := by
  simp [countPowerUp, h]

/-! ## The two ends of a failed boot, and the start-up tests as their cause -/

theorem bootFailed_named (s : State) :
    bootFailed s true = modBoot s fun b => { b with candidate := some fallbackBoot, running := [] } := rfl

theorem bootFailed_other (s : State) : bootFailed s false = enterSafe s 3 := rfl

/-- Step 4 of R573 on the image of a source, before the start-up tests: the image runs, and BOOT_FALLBACK is raised where the
cause is the fallback. -/
def startImage (s : State) (src cause : Nat) (fromNext : Bool) : State :=
  let img := (imageIn s src).getD []
  let s := modBoot s fun b => { b with candidate := some (src, fromNext, cause == 2), running := img }
  let s := ((s.setNum 0xC000_01 src).setNum 0xC000_08 cause).setNum 0x0000_08 (fwVersion img)
  if cause = 2 then s.raise 0xC011 0xFF (leBytes 1 src) else s

theorem runImage_testsFailed (s : State) (src cause : Nat) (fromNext : Bool) (lines : List (PairId × Nat)) (facets : Nat) :
    runImage s src cause fromNext false lines facets = bootFailed (startImage s src cause fromNext) fromNext := rfl

/-! ## BOOT after its self-check (R572, R573) -/

/-- A boot as it begins: the power-up is counted, and the time of step 1 (R573) is kept. -/
def bootBegun (s : State) : State := modBoot (countPowerUp s) fun b => { b with startedAt := (countPowerUp s).up }

theorem bootBegun_remoteReset (s : State) : (bootBegun s).ring.remoteReset = s.ring.remoteReset :=
  congrArg Ring.remoteReset (countPowerUp_records s).ring

/-- The choice of R572: BOOT_NEXT is cleared, and the candidates are tried in order. -/
def bootChoice (s : State) : State × Option (Nat × Nat) := chooseImage (s.setNum 0xC000_03 255) (candidates s) 0

theorem candidates_unnamed {s : State} (unnamed : s.num 0xC000_03 = 255) :
    candidates s = [s.num 0xC000_02, 1 - s.num 0xC000_02] := by
  simp [candidates, unnamed]

/-- BOOT_CAUSE (C000h.08): of a restarted boot or not, BOOT_NEXT named or not, by the place of the accepted candidate. -/
def bootCause (again named : Bool) (k : Nat) : Nat := if again || k != 0 then 2 else if named then 1 else 0

theorem bootCause_first (named : Bool) (k : Nat) :
    bootCause false named k = if k ≠ 0 then 2 else if named then 1 else 0 := by
  simp [bootCause]

/-- A first boot falls back exactly where an earlier candidate was rejected. -/
theorem bootCause_first_eq_two_iff (named : Bool) (k : Nat) : bootCause false named k = 2 ↔ k ≠ 0 := by
  by_cases rejected : k = 0
  · cases named <;> simp [bootCause_first, rejected]
  · simp [bootCause_first, rejected]

theorem bootCause_again (named : Bool) (k : Nat) : bootCause true named k = 2 := rfl

theorem bootReady_of_candidate {s : State} (sealed : s.node = .sealed) (awake : s.sysHeld = false) (clock : s.refclk = true)
    (starts : s.boot.candidate = none ∨ s.boot.candidate = some fallbackBoot) : bootReady s = true := by
  rcases starts with closed | again
  · simp [bootReady, sealed, awake, clock, closed]
  · simp [bootReady, sealed, awake, clock, again]

section
variable {s : State} (ready : bootReady s = true) (noReset : s.ring.remoteReset = 0) (testsOk : Bool)
  (lines : List (PairId × Nat)) (facets : BitVec 32)
include ready noReset

theorem execBoot_noImage (none_accepted : (bootChoice (bootBegun s)).2 = none) :
    execBoot true testsOk lines facets s = .next (enterSafe (bootChoice (bootBegun s)).1 3) := by
  have quiet := (bootBegun_remoteReset s).trans noReset
  unfold bootChoice bootBegun at *
  simp [execBoot, ready, quiet, none_accepted]

theorem execBoot_image (again : Bool) (restarts : (s.boot.candidate == some fallbackBoot) = again) (src k : Nat)
    (accepted : (bootChoice (bootBegun s)).2 = some (src, k)) :
    execBoot true testsOk lines facets s = .next (runImage (bootChoice (bootBegun s)).1 src
      (bootCause again ((bootBegun s).num 0xC000_03 != 255) k) ((bootBegun s).num 0xC000_03 != 255 && k == 0)
      testsOk lines facets.toNat) := by
  have quiet := (bootBegun_remoteReset s).trans noReset
  unfold bootChoice bootBegun at *
  simp [execBoot, ready, quiet, accepted, restarts, bootCause]

end

/-! ## BOOT_TIMEOUT -/

/-- Without a seal in 1,500 ms (46,080,000 ticks) the boot of the image that runs has failed. -/
theorem execBootTimeout_due {s : State} {src : Nat} {fromNext slow : Bool}
    (opened : s.boot.candidate = some (src, fromNext, slow)) (sealed : s.node = .sealed)
    (runs : src ≠ 3) (powered : s.power.failLow = false) (awake : s.sysHeld = false)
    (late : 46080000 ≤ s.since s.boot.startedAt) : execBootTimeout s = .next (bootFailed s fromNext) := by
  simp [execBootTimeout, opened, sealed, runs, powered, awake, late]

/-! ## The statement -/

/-- Settles O58: BOOT_TIMEOUT by the source of the image, then a first boot whose tests fail and a restarted boot, each by whether
a candidate is accepted, and the end of a restarted boot whose tests fail. The restarted boot is stated with BOOT_NEXT clear,
as the choice of the boot before it leaves it, so that its own failure is that of any other image. -/
theorem bootCodeFailures : Obligations.BootCodeFailures := by
  unfold Obligations.BootCodeFailures
  refine ⟨?timeout, ?testsFail, ?restarted, ?fallbackFails, fun s outside => (enterSafe_off s 3 outside).1⟩
  case timeout =>
    intro src slow s sealed runs powered awake late
    rw [exec_bootTimeout, ← bootFailed_named, ← bootFailed_other]
    exact ⟨fun opened => execBootTimeout_due opened sealed runs powered awake late,
      fun opened => execBootTimeout_due opened sealed runs powered awake late⟩
  case testsFail =>
    intro lines facets s sealed awake clock closed noReset u r named
    have ready := bootReady_of_candidate sealed awake clock (.inl closed)
    have fresh : (s.boot.candidate == some fallbackBoot) = false := by rw [closed]; rfl
    rcases found : r.2 with _ | ⟨src, k⟩
    · rw [exec_boot, execBoot_noImage ready noReset false lines facets found]
      rfl
    · rw [exec_boot, execBoot_image ready noReset false lines facets false fresh src k found, runImage_testsFailed]
      simp only [startImage, bootCause_first_eq_two_iff]
      rw [bootCause_first]
      rfl
  case restarted =>
    intro ok lines facets s sealed awake clock again noReset unnamed u r
    have ready := bootReady_of_candidate sealed awake clock (.inr again)
    have restarts : (s.boot.candidate == some fallbackBoot) = true := beq_iff_eq.mpr again
    have begun : bootBegun s = u := by rw [bootBegun, countPowerUp_of_candidate again]
    have cleared : (u.num 0xC000_03 != 255) = false := bne_eq_false_iff_eq.mpr unnamed
    refine ⟨candidates_unnamed unnamed, ?_⟩
    rcases found : r.2 with _ | ⟨src, k⟩
    · rw [exec_boot, execBoot_noImage ready noReset ok lines facets (begun ▸ found), begun]
      rfl
    · rw [exec_boot, execBoot_image ready noReset ok lines facets true restarts src k (begun ▸ found), begun, bootCause_again,
        cleared, Bool.false_and]
      rfl
  case fallbackFails =>
    intro v src lines facets
    exact runImage_testsFailed v src 2 false lines facets

end Sys2Proof.Machine
end

section
/-! PROOFS. The canonical form of memory and objects: the rules for the shapes of a state's expression. -/

namespace Sys2Proof.Machine

/-! ## Rules for the shapes of a state's expression -/

theorem canonical_of_eq {s t : State} (h : Canonical s) (mem : t.mem = s.mem) (objs : t.objs = s.objs) : Canonical t := by
  unfold Canonical; rw [mem, objs]; exact h

theorem canonical_ite {c : Prop} [Decidable c] {a b : State} (ha : Canonical a) (hb : Canonical b) :
    Canonical (if c then a else b) := by
  split
  · exact ha
  · exact hb

theorem canonical_foldl {α : Type} {f : State → α → State} {l : List α} {s : State}
    (hf : ∀ t x, Canonical t → Canonical (f t x)) (h : Canonical s) : Canonical (l.foldl f s) :=
  List.foldlRecOn l f h fun t ht x _ => hf t x ht

theorem canonical_foldl_fst {α β : Type} {f : State × β → α → State × β} {l : List α} {p : State × β}
    (hf : ∀ q x, Canonical q.1 → Canonical (f q x).1) (h : Canonical p.1) : Canonical (l.foldl f p).1 :=
  List.foldlRecOn l f (motive := fun q => Canonical q.1) h fun q hq x _ => hf q x hq

theorem canonical_of_fst_eq {α : Type} {p : State × α} {t : State} {a : α} (e : p = (t, a)) (h : Canonical p.1) :
    Canonical t := by rw [e] at h; exact h

theorem canonical_of_snd_eq {α : Type} {p : α × State} {t : State} {a : α} (e : p = (a, t)) (h : Canonical p.2) :
    Canonical t := by rw [e] at h; exact h

/-- The state that an operation gives, where it gives one, is canonical. -/
def CanonicalOpt : Option State → Prop
  | some t => Canonical t
  | none => True

theorem canonicalOpt_some {t : State} (h : Canonical t) : CanonicalOpt (some t) := h
theorem canonicalOpt_none : CanonicalOpt none := trivial

theorem CanonicalOpt.get {o : Option State} {t : State} (h : CanonicalOpt o) (e : o = some t) : Canonical t := by
  rw [e] at h; exact h

theorem canonical_getD {o : Option State} {s : State} (ho : CanonicalOpt o) (h : Canonical s) : Canonical (o.getD s) := by
  cases o with
  | none => exact h
  | some t => exact ho

/-- As `CanonicalOpt`, where the state comes with more. -/
def CanonicalOptFst {α : Type} : Option (State × α) → Prop
  | some p => Canonical p.1
  | none => True

theorem CanonicalOptFst.get {α : Type} {o : Option (State × α)} {t : State} {a : α} (h : CanonicalOptFst o)
    (e : o = some (t, a)) : Canonical t := by
  rw [e] at h; exact h

/-- The next state, where the outcome is one. Irreducible: no proof unfolds a command's meaning to see what it comes to. -/
@[irreducible] def CanonicalNext : Host.Outcome State Fault Refusal → Prop
  | .next t => Canonical t
  | _ => True

theorem canonicalNext_next_iff {t : State} : CanonicalNext (.next t) ↔ Canonical t := by unfold CanonicalNext; rfl
theorem canonicalNext_next {t : State} (h : Canonical t) : CanonicalNext (.next t) := canonicalNext_next_iff.2 h
theorem canonicalNext_fault {r : Fault} : CanonicalNext (.fault r) := by unfold CanonicalNext; trivial

/-- What a command at a head comes to. -/
def CanonicalJudge : Judge → Prop
  | .wait t => Canonical t
  | .done t => Canonical t
  | .bad _ => True

theorem canonicalJudge_done {t : State} (h : Canonical t) : CanonicalJudge (.done t) := h
theorem canonicalJudge_wait {t : State} (h : Canonical t) : CanonicalJudge (.wait t) := h
theorem canonicalJudge_bad {n} : CanonicalJudge (.bad n) := trivial


theorem canonicalOptFst_some {α : Type} {p : State × α} (h : Canonical p.1) : CanonicalOptFst (some p) := h
theorem canonicalOptFst_none {α : Type} : CanonicalOptFst (none : Option (State × α)) := trivial

theorem canonicalOpt_map {α : Type} {o : Option α} {f : α → State} (hf : ∀ a, Canonical (f a)) : CanonicalOpt (o.map f) := by
  cases o with
  | none => trivial
  | some a => exact hf a

theorem canonicalOpt_mapSt {o : Option State} {f : State → State} (ho : CanonicalOpt o)
    (hf : ∀ t, Canonical t → Canonical (f t)) : CanonicalOpt (o.map f) := by
  cases o with
  | none => trivial
  | some t => exact hf t ho

theorem canonicalOptFst_mapFst {α β : Type} {o : Option (State × α)} {f : State × α → State × β} (ho : CanonicalOptFst o)
    (hf : ∀ p, Canonical p.1 → Canonical (f p).1) : CanonicalOptFst (o.map f) := by
  cases o with
  | none => trivial
  | some p => exact hf p ho

section
variable {c : Prop} [Decidable c] {α : Type}

theorem canonical_fst_ite {a b : State × α} (ha : Canonical a.1) (hb : Canonical b.1) :
    Canonical (if c then a else b).1 := by split <;> assumption
theorem canonical_snd_ite {a b : α × State} (ha : Canonical a.2) (hb : Canonical b.2) :
    Canonical (if c then a else b).2 := by split <;> assumption
theorem canonicalOpt_ite {a b : Option State} (ha : CanonicalOpt a) (hb : CanonicalOpt b) :
    CanonicalOpt (if c then a else b) := by split <;> assumption
theorem canonicalOptFst_ite {a b : Option (State × α)} (ha : CanonicalOptFst a) (hb : CanonicalOptFst b) :
    CanonicalOptFst (if c then a else b) := by split <;> assumption
theorem canonicalNext_ite {a b : Host.Outcome State Fault Refusal} (ha : CanonicalNext a) (hb : CanonicalNext b) :
    CanonicalNext (if c then a else b) := by split <;> assumption
theorem canonicalJudge_ite {a b : Judge} (ha : CanonicalJudge a) (hb : CanonicalJudge b) :
    CanonicalJudge (if c then a else b) := by split <;> assumption
end

end Sys2Proof.Machine
end

section
/-! PROOFS. The canonical form is kept, file by file of the model: Machine/State.lean to Machine/Service.lean. -/

namespace Sys2Proof.Machine

variable {s : State}


/-! ### `Machine/State.lean` -/

/-! ### `Machine/Ops.lean` -/

theorem clearErrs_canonical {p} (h : Canonical s) : Canonical (clearErrs s p) := canonical_ite h h

theorem storeMem_canonical {a b} (h : Canonical s) : Canonical (storeMem s a b) :=
  clearErrs_canonical ⟨memWrite_wf _ _ _ h.1, h.2⟩

theorem State.drawBool_canonical (h : Canonical s) : Canonical (s.drawBool).2 := h

theorem State.drawNat_canonical {n} (h : Canonical s) : Canonical (s.drawNat n).2 := h

theorem State.setVal_canonical {oid v} (h : Canonical s) : Canonical (s.setVal oid v) :=
  ⟨h.1, State.setVal_wf s oid v h.2⟩

theorem State.setNum_canonical {oid v} (h : Canonical s) : Canonical (s.setNum oid v) := State.setVal_canonical h

theorem State.setBlob_canonical {oid b} (h : Canonical s) : Canonical (s.setBlob oid b) := State.setVal_canonical h

theorem State.add_canonical {oid n} (h : Canonical s) : Canonical (s.add oid n) := State.setNum_canonical h

theorem State.inc_canonical {oid} (h : Canonical s) : Canonical (s.inc oid) := State.add_canonical h

theorem State.record_canonical {oid v better} (h : Canonical s) : Canonical (s.record oid v better) :=
  canonical_ite (State.setNum_canonical h) (canonical_ite (State.setNum_canonical h) h)

theorem State.raiseTo_canonical {oid v} (h : Canonical s) : Canonical (s.raiseTo oid v) :=
  canonical_ite (State.setNum_canonical h) h

theorem State.raiseIn_canonical {lnk code unit data} (h : Canonical s) : Canonical (s.raiseIn lnk code unit data) :=
  canonical_ite (State.inc_canonical h) h

theorem State.raise_canonical {code unit data} (h : Canonical s) : Canonical (s.raise code unit data) :=
  State.raiseIn_canonical h

theorem State.setUnits_canonical {sub mask} (h : Canonical s) : Canonical (s.setUnits sub mask) :=
  canonical_ite h (State.raise_canonical (State.setNum_canonical h))

theorem State.setFacets_canonical {mask} (h : Canonical s) : Canonical (s.setFacets mask) :=
  State.setUnits_canonical (State.setUnits_canonical h)

theorem State.save_canonical {oid} (h : Canonical s) : Canonical (s.save oid) :=
  canonical_ite (State.raise_canonical (State.inc_canonical h)) (State.inc_canonical h)

theorem State.setSaved_canonical {oid v} (h : Canonical s) : Canonical (s.setSaved oid v) :=
  State.save_canonical (State.setNum_canonical h)

theorem State.addSaved_canonical {oid n} (h : Canonical s) : Canonical (s.addSaved oid n) :=
  State.save_canonical (State.add_canonical h)

theorem State.lastFault_canonical {cls} (h : Canonical s) : Canonical (s.lastFault cls) :=
  State.setNum_canonical (State.setNum_canonical h)

theorem State.faultCorrected_canonical {n} (h : Canonical s) : Canonical (s.faultCorrected n) := State.add_canonical h

theorem State.faultRetried_canonical (h : Canonical s) : Canonical (s.faultRetried) := State.inc_canonical h

theorem State.faultAborted_canonical {replay} (h : Canonical s) : Canonical (s.faultAborted replay) :=
  State.lastFault_canonical (State.inc_canonical h)

theorem State.faultDegraded_canonical (h : Canonical s) : Canonical (s.faultDegraded) :=
  State.lastFault_canonical (State.addSaved_canonical h)

theorem State.faultSafe_canonical (h : Canonical s) : Canonical (s.faultSafe) :=
  State.lastFault_canonical (State.addSaved_canonical h)

theorem emit_canonical {p f} (h : Canonical s) : Canonical (emit s p f) := State.inc_canonical h

theorem sendOwn_canonical {f} (h : Canonical s) : Canonical (sendOwn s f) := by
  unfold sendOwn
  split
  · exact h
  · exact emit_canonical h

theorem sendPlain_canonical {type arg payload} (h : Canonical s) : Canonical (sendPlain s type arg payload) :=
  sendOwn_canonical h

theorem pumpTx_canonical {n} (h : Canonical s) : Canonical (pumpTx n s) := by
  induction n generalizing s with
  | zero => exact h
  | succ n ih =>
    unfold pumpTx
    split
    · exact h
    · split
      · exact h
      · exact ih (sendOwn_canonical h)

theorem sendConfirmed_canonical {type arg payload} (h : Canonical s) : Canonical (sendConfirmed s type arg payload) :=
  pumpTx_canonical h

theorem sendAck_canonical {seq type status} (h : Canonical s) : Canonical (sendAck s seq type status) :=
  sendPlain_canonical h

theorem sendResp_canonical {xfer result index sub total payload} (h : Canonical s) : Canonical
    (sendResp s xfer result index sub total payload) :=
  sendConfirmed_canonical h

theorem setNode_canonical {n cause} (h : Canonical s) : Canonical (setNode s n cause) :=
  State.raise_canonical (State.inc_canonical (State.setNum_canonical h))

theorem dropExpert_canonical (h : Canonical s) : Canonical (dropExpert s) :=
  canonical_ite (State.raise_canonical (State.setNum_canonical h)) h

/-! ### `Machine/MemErr.lean` -/

theorem logError_canonical {m unit kind symbol address action task context} (h : Canonical s) : Canonical
    (logError s m unit kind symbol address action task context) :=
  State.inc_canonical (State.setBlob_canonical h)

theorem memEvent_canonical {m unit kind address action} (h : Canonical s) : Canonical
    (memEvent s m unit kind address action) :=
  State.raise_canonical h

theorem modMaint_canonical {g} (h : Canonical s) : Canonical (modMaint s g) := h

theorem qualifyUnit_canonical {n unit} (h : Canonical s) : Canonical (qualifyUnit s n unit) :=
  canonical_ite h (canonical_ite (canonical_ite h (State.raise_canonical (modMaint_canonical h)))
    (modMaint_canonical h))

theorem hbmHit_canonical {n address} (h : Canonical s) : Canonical (hbmHit s n address) :=
  canonical_ite (qualifyUnit_canonical (modMaint_canonical h)) (modMaint_canonical h)

theorem listLine_canonical {n line} (h : Canonical s) : Canonical (listLine s n line) :=
  canonical_ite h (canonical_ite (State.raise_canonical h)
    (State.raise_canonical (State.setSaved_canonical (modMaint_canonical h))))

theorem shelfHit_canonical {n address} (h : Canonical s) : Canonical (shelfHit s n address) :=
  canonical_ite (listLine_canonical (modMaint_canonical h)) (modMaint_canonical h)

theorem noteCorrected_canonical {m unit address symbol scrub} (h : Canonical s) : Canonical
    (noteCorrected s m unit address symbol scrub) := by
  unfold noteCorrected
  dsimp only
  split
  · exact hbmHit_canonical (logError_canonical (State.faultCorrected_canonical (State.inc_canonical h)))
  · exact shelfHit_canonical (logError_canonical (State.faultCorrected_canonical (State.inc_canonical h)))
  · exact logError_canonical (State.faultCorrected_canonical (State.inc_canonical h))

theorem noteReread_canonical {m unit address} (h : Canonical s) : Canonical (noteReread s m unit address) :=
  logError_canonical (canonical_ite (State.inc_canonical h) h)

theorem addErr_canonical {w o} (h : Canonical s) : Canonical (addErr s w o) := modMaint_canonical h

theorem dropErr_canonical {w} (h : Canonical s) : Canonical (dropErr s w) := modMaint_canonical h

theorem readErrs_canonical {m unit es} (h : Canonical s) : Canonical (readErrs m unit es s).1 := by
  induction es generalizing s with
  | nil => exact h
  | cons e es ih =>
    obtain ⟨w, o⟩ := e
    cases o with
    | clean => exact ih h
    | corrected k => exact ih (noteCorrected_canonical (dropErr_canonical h))
    | reread => exact ih (noteReread_canonical (dropErr_canonical h))
    | uncorrectable => exact h

theorem checkRead_canonical {m unit a n} (h : Canonical s) : Canonical (checkRead s m unit a n).1 :=
  readErrs_canonical h

theorem checkRanges_canonical {m unit l} (h : Canonical s) : Canonical (checkRanges m unit l s).1 := by
  induction l generalizing s with
  | nil => exact h
  | cons r l ih =>
    unfold checkRanges
    split
    next _ e => exact ih (canonical_of_fst_eq e (checkRead_canonical h))
    next => exact checkRead_canonical h

theorem checkRows_canonical {f row rows lo n} (h : Canonical s) : Canonical (checkRows s f row rows lo n).1 :=
  readErrs_canonical h

theorem clearAcc_canonical {f lo n} (h : Canonical s) : Canonical (clearAcc s f lo n) := clearErrs_canonical h

theorem upset_canonical (h : Canonical s) : Canonical (upset s) := by
  unfold upset
  dsimp only
  refine canonical_ite ?_ ?_
  · exact State.drawBool_canonical h
  · exact addErr_canonical (State.drawNat_canonical
      (State.drawNat_canonical (State.drawNat_canonical (State.drawNat_canonical (State.drawBool_canonical h)))))

/-! ### `Machine/PeerOps.lean` -/

theorem modPeer_canonical {p g} (h : Canonical s) : Canonical (modPeer s p g) := h

theorem peerOut_canonical {p f} (h : Canonical s) : Canonical (peerOut s p f) := State.inc_canonical h

theorem sendLink_canonical {p type flags payload} (h : Canonical s) : Canonical (sendLink s p type flags payload) :=
  peerOut_canonical h

theorem peerSend_canonical {p f} (h : Canonical s) : Canonical (peerSend s p f) := by
  unfold peerSend
  refine canonical_ite ?_ ?_
  · dsimp only
    split
    · exact sendLink_canonical (peerOut_canonical (modPeer_canonical h))
    · exact peerOut_canonical (modPeer_canonical h)
  · exact modPeer_canonical h

theorem pumpPeer_canonical {p} (h : Canonical s) : Canonical (pumpPeer s p) :=
  canonical_foldl (fun _ _ => peerSend_canonical) (modPeer_canonical h)

theorem sendFreeing_canonical {frees src ord type flags channel arg payload} (h : Canonical s) : CanonicalOpt
    (sendFreeing s frees src ord type flags channel arg payload) := by
  unfold sendFreeing
  split
  · exact canonicalOpt_none
  · exact canonicalOpt_some (peerSend_canonical h)

theorem sendTo_canonical {ord type flags channel arg payload} (h : Canonical s) : CanonicalOpt
    (sendTo s ord type flags channel arg payload) :=
  sendFreeing_canonical h

theorem sendToOr_canonical {ord type flags channel arg payload} (h : Canonical s) : Canonical
    (sendToOr s ord type flags channel arg payload) :=
  canonical_getD (sendTo_canonical h) h

theorem sendPart_canonical {src ord type arg payload} (h : Canonical s) : Canonical
    (sendPart s src ord type arg payload) :=
  canonical_getD (sendFreeing_canonical h) h

theorem refreshPorts_canonical (h : Canonical s) : Canonical (refreshPorts s) := State.setUnits_canonical h

/-! ### `Machine/Journal.lean` -/

theorem modJournal_canonical {g} (h : Canonical s) : Canonical (modJournal s g) := h

theorem modGang_canonical {g} (h : Canonical s) : Canonical (modGang s g) := h

theorem mirrorLost_canonical {cause} (h : Canonical s) : Canonical (mirrorLost s cause) :=
  canonical_ite h (State.raise_canonical (modGang_canonical (State.setNum_canonical h)))

theorem mirrorSend_canonical {pos} (h : Canonical s) : Canonical (mirrorSend s pos) := by
  unfold mirrorSend
  split
  · exact h
  · split
    · exact mirrorLost_canonical h
    next t0 e1 =>
      have k2 := (sendTo_canonical h).get e1
      exact modGang_canonical k2

theorem mirrorAppend_canonical {pos} (h : Canonical s) : Canonical (mirrorAppend s pos) :=
  canonical_ite (mirrorSend_canonical h) h

theorem mirrorResync_canonical (h : Canonical s) : Canonical (mirrorResync s) := by
  unfold mirrorResync
  refine canonical_ite ?_ ?_
  · exact modGang_canonical (State.setNum_canonical h)
  · extract_lets _ _ t0
    have k1 : Canonical t0 := modGang_canonical (State.setNum_canonical h)
    exact canonical_ite (canonical_ite (State.raise_canonical (modGang_canonical (State.setNum_canonical k1)))
      (canonical_foldl (fun _ _ => mirrorSend_canonical) k1)) (mirrorLost_canonical k1)

theorem journalMark_canonical (h : Canonical s) : Canonical (journalMark s) :=
  canonical_ite (canonical_ite h (State.raise_canonical (modJournal_canonical h)))
    (canonical_ite (modJournal_canonical h) h)

theorem jAppend_canonical {e} (h : Canonical s) : CanonicalOpt (jAppend s e) :=
  canonicalOpt_ite canonicalOpt_none
    (canonicalOpt_some (journalMark_canonical (mirrorAppend_canonical (modJournal_canonical h))))

theorem jFree_canonical {dead} (h : Canonical s) : Canonical (jFree s dead) :=
  canonical_foldl (fun _ _ k0 => canonical_getD (jAppend_canonical k0) k0) (modJournal_canonical h)

theorem modRequest_canonical {jsn g} (h : Canonical s) : Canonical (modRequest s jsn g) := h

theorem modSession_canonical {n g} (h : Canonical s) : Canonical (modSession s n g) := h

theorem flagOpen_canonical {jsns bit} (h : Canonical s) : Canonical (flagOpen s jsns bit) :=
  canonical_foldl (fun _ _ => mirrorAppend_canonical) (modJournal_canonical h)

theorem overflowTake_canonical {x} (h : Canonical s) : Canonical (overflowTake s x) := by
  unfold overflowTake
  extract_lets _ t u v
  have hv : Canonical v := canonical_foldl (fun _ _ => modRequest_canonical) (flagOpen_canonical (jFree_canonical h))
  exact State.inc_canonical (canonical_ite (modSession_canonical hv) (canonical_ite hv hv))

theorem overflowFor_canonical {k n taken} (h : Canonical s) : Canonical (overflowFor k n s taken).1 := by
  induction k generalizing s taken with
  | zero => exact h
  | succ k ih =>
    unfold overflowFor
    split
    · exact h
    · split
      · exact h
      · exact ih (overflowTake_canonical h)

theorem jAppendAll_canonical {es} (h : Canonical s) : CanonicalOpt (jAppendAll s es) := by
  unfold jAppendAll
  split
  next t taken e =>
    have ht := canonical_of_fst_eq e (overflowFor_canonical h)
    extract_lets u
    have hu : Canonical u := canonical_ite ht (State.raise_canonical ht)
    split
    · refine List.foldlRecOn es _ (canonicalOpt_some hu) fun o ho x _ => ?_
      cases o with
      | none => exact canonicalOpt_none
      | some u => exact jAppend_canonical ho
    · exact canonicalOpt_none

theorem jNote_canonical {es} (h : Canonical s) : Canonical (jNote s es) := canonical_getD (jAppendAll_canonical h) h

theorem doneAdd_canonical {id result} (h : Canonical s) : Canonical (doneAdd s id result) := by
  unfold doneAdd
  dsimp only
  refine jFree_canonical ?_
  split
  · exact canonical_ite (mirrorAppend_canonical (modJournal_canonical (modJournal_canonical h)))
      (jNote_canonical (modJournal_canonical h))
  · exact jNote_canonical (modJournal_canonical h)

/-! ### `Machine/CtxOps.lean` -/

theorem setCtx_canonical {n c} (h : Canonical s) : Canonical (setCtx s n c) := h

theorem modSlot_canonical {n b g} (h : Canonical s) : Canonical (modSlot s n b g) := setCtx_canonical h

theorem saveReg_canonical {n} (h : Canonical s) : Canonical (saveReg s n) := h

theorem dropCache_canonical {ctx copy} (h : Canonical s) : Canonical (dropCache s ctx copy) := h

theorem clearSlot_canonical {n b} (h : Canonical s) : Canonical (clearSlot s n b) :=
  dropCache_canonical (modSlot_canonical h)

theorem dropPipe_canonical {n b} (h : Canonical s) : Canonical (dropPipe s n b) := setCtx_canonical h

theorem retireSlot_canonical {n b} (h : Canonical s) : Canonical (retireSlot s n b) :=
  State.raise_canonical (State.inc_canonical (dropPipe_canonical (clearSlot_canonical h)))

theorem buildFailed_canonical {n b cause} (h : Canonical s) : Canonical (buildFailed s n b cause) :=
  State.raise_canonical h

theorem pruneNeeded_canonical (h : Canonical s) : Canonical (pruneNeeded s) := h

theorem refreshNeeded_canonical (h : Canonical s) : Canonical (refreshNeeded s) :=
  canonical_foldl (fun _ _ => State.raise_canonical) h

theorem settleCtx_canonical {n} (h : Canonical s) : Canonical (settleCtx s n) := by
  unfold settleCtx
  extract_lets go t
  have hgo : ∀ {u b}, Canonical u → Canonical (go u b) := fun hu => canonical_ite (retireSlot_canonical hu) hu
  have ht : Canonical t := pruneNeeded_canonical (hgo (hgo h))
  exact canonical_ite (State.raise_canonical (saveReg_canonical (setCtx_canonical ht))) ht

theorem settleAll_canonical (h : Canonical s) : Canonical (settleAll s) :=
  canonical_foldl (fun _ _ => settleCtx_canonical) h

/-! ### `Machine/Service.lean` -/

theorem respond_canonical {r tokenIndex count result cause retry flags stop outKind data} (h : Canonical s) :
    Canonical (respond s r tokenIndex count result cause retry flags stop outKind data) :=
  sendConfirmed_canonical h

theorem respondPart_canonical {r flags kind data final n seg off} (h : Canonical s) :
    Canonical (respondPart s r flags kind data final n seg off).1 := by
  induction n generalizing s seg off with
  | zero => exact h
  | succ n ih =>
    unfold respondPart
    dsimp only
    split
    · exact respond_canonical h
    · exact ih (respond_canonical h)

theorem respondAll_canonical {r inexact seg l} (h : Canonical s) : Canonical (respondAll s r inexact seg l) := by
  induction l generalizing s seg with
  | nil => exact h
  | cons b l ih =>
    obtain ⟨kind, data⟩ := b
    unfold respondAll
    split
    next t _ e => exact ih (canonical_of_fst_eq e (respondPart_canonical h))

theorem noteBusy_canonical (h : Canonical s) : Canonical (noteBusy s) := canonical_ite (State.raise_canonical h) h

theorem rearmBusy_canonical (h : Canonical s) : Canonical (rearmBusy s) := canonical_ite h h

theorem awaitAdmission_canonical {jsn g} (h : Canonical s) : Canonical (awaitAdmission s jsn g) :=
  noteBusy_canonical (modRequest_canonical h)

theorem freeSession_canonical {x} (h : Canonical s) : Canonical (freeSession s x) := by
  unfold freeSession
  dsimp only
  split
  · exact jFree_canonical (canonical_ite h h)
  · exact canonical_ite h h

theorem openSession_canonical {tag context seed} (h : Canonical s) : CanonicalOptFst
    (openSession s tag context seed) := by
  unfold openSession
  extract_lets t0
  have k1 : Canonical t0 := by
    unfold t0
    refine canonical_ite ?_ ?_
    · split
      · exact State.inc_canonical (freeSession_canonical h)
      · exact h
    · exact h
  split
  · exact canonicalOptFst_none
  · exact canonicalOptFst_some k1

theorem tableFull_canonical {id} (h : Canonical s) : Canonical (tableFull s id) :=
  canonical_ite h (State.raise_canonical h)

theorem extendHistory_canonical {r x} (h : Canonical s) : Canonical (extendHistory s r x) := by
  unfold extendHistory
  dsimp only
  split
  · exact modSession_canonical h
  · split <;> exact modSession_canonical (jNote_canonical h)

theorem finishRequest_canonical {r result send} (h : Canonical s) (hsend : ∀ t, Canonical t → Canonical (send t)) :
    Canonical (finishRequest s r result send) := by
  unfold finishRequest
  extract_lets _ t0 t2 _ t4
  have k1 : Canonical t0 := doneAdd_canonical (hsend _ (jNote_canonical h))
  have k3 : Canonical t2 := by
    unfold t2
    split
    · exact canonical_ite (extendHistory_canonical k1) k1
    · exact k1
  have k5 : Canonical t4 := canonical_ite (State.setNum_canonical (jFree_canonical k3)) (jFree_canonical k3)
  exact k5

theorem endFrame_canonical {r result cause retry stop} (h : Canonical s) : Canonical
    (endFrame r result cause retry stop s) :=
  canonical_ite h (respond_canonical h)

theorem reopenSession_canonical {tag} (h : Canonical s) : Canonical (reopenSession s tag) := by
  unfold reopenSession
  split
  · exact h
  · split
    · exact h
    next t0 _ e1 =>
      have k2 := (openSession_canonical h).get e1
      exact canonical_of_eq (canonical_foldl
        (fun _ _ k3 => finishRequest_canonical (State.inc_canonical k3) (fun _ k4 => endFrame_canonical k4)) k2) rfl
          rfl

theorem settleSession_canonical {n close} (h : Canonical s) : Canonical (settleSession s n close) := by
  unfold settleSession
  split
  · exact h
  · exact canonical_ite h (canonical_ite (reopenSession_canonical (freeSession_canonical h)) (modSession_canonical h))

theorem complete_canonical {r result send} (h : Canonical s) (hsend : ∀ t, Canonical t → Canonical (send t)) :
    Canonical (complete s r result send) := by
  unfold complete
  extract_lets t1 t3
  have k2 : Canonical t1 := finishRequest_canonical h (fun _ k0 => hsend _ k0)
  have k4 : Canonical t3 := by
    unfold t3
    split
    · exact settleSession_canonical k2
    · exact k2
  exact rearmBusy_canonical (settleAll_canonical k4)

theorem endRequest_canonical {jsn result cause retry stop} (h : Canonical s) : Canonical
    (endRequest s jsn result cause retry stop) := by
  unfold endRequest
  split
  · exact h
  · exact complete_canonical (canonical_ite (State.inc_canonical h) h) (fun _ k0 => endFrame_canonical k0)

end Sys2Proof.Machine
end

section
/-! PROOFS. The canonical form is kept, file by file of the model: Machine/Stream.lean to Machine/Admit.lean. -/

namespace Sys2Proof.Machine

variable {s : State}


/-! ### `Machine/Stream.lean` -/

theorem modTask_canonical {n g} (h : Canonical s) : Canonical (modTask s n g) := h

theorem touch_canonical {n} (h : Canonical s) : Canonical (touch s n) := modTask_canonical h

theorem modStation_canonical {f g} (h : Canonical s) : Canonical (modStation s f g) := by
  unfold modStation
  split
  · exact h
  · exact h

theorem setQueue_canonical {f q l} (h : Canonical s) : Canonical (setQueue s f q l) := modStation_canonical h

theorem modStream_canonical {eic n g} (h : Canonical s) : Canonical (modStream s eic n g) := h

theorem takeBuf_canonical {eic n bytes tag isRecord} (h : Canonical s) : CanonicalOptFst
    (takeBuf s eic n bytes tag isRecord) := by
  unfold takeBuf
  split
  · exact canonicalOptFst_none
  · exact canonicalOptFst_ite canonicalOptFst_none
      (canonicalOptFst_ite (canonicalOptFst_some (modStream_canonical h))
        (canonicalOptFst_ite (canonicalOptFst_some (touch_canonical (modStream_canonical h)))
          (canonicalOptFst_ite (canonicalOptFst_some (touch_canonical (modStream_canonical h)))
            canonicalOptFst_none)))

theorem starve_canonical {eic n} (h : Canonical s) : Canonical (starve s eic n) := modStream_canonical h

theorem storeBlocks_canonical {eic bs data} (h : Canonical s) : Canonical (storeBlocks s eic bs data) := by
  induction bs generalizing s data with
  | nil => exact h
  | cons b bs ih => exact ih (storeMem_canonical h)

theorem checkBlocks_canonical {eic bs bytes} (h : Canonical s) : Canonical (checkBlocks s eic bs bytes).1 :=
  checkRanges_canonical h

theorem dropBuf_canonical {eic n serial} (h : Canonical s) : Canonical (dropBuf s eic n serial) :=
  modStream_canonical h

theorem releaseBuf_canonical {eic n serial idx} (h : Canonical s) : Canonical (releaseBuf s eic n serial idx) := by
  unfold releaseBuf
  split
  · exact h
  · split
    · exact h
    · refine canonical_ite ?_ ?_
      · dsimp only
        split
        · exact canonical_ite (dropBuf_canonical (touch_canonical (modStream_canonical h)))
            (sendToOr_canonical (dropBuf_canonical (touch_canonical (modStream_canonical h))))
        · exact dropBuf_canonical (touch_canonical (modStream_canonical h))
      · exact touch_canonical (modStream_canonical h)

theorem missDeadline_canonical {jsn} (h : Canonical s) : Canonical (missDeadline s jsn) :=
  State.raise_canonical (State.inc_canonical (endRequest_canonical h))

theorem deliverOutput_canonical {task kind data} (h : Canonical s) : Canonical (deliverOutput s task kind data) := by
  unfold deliverOutput
  split
  · exact h
  · split
    · exact h
    · exact canonical_ite h (canonical_ite (missDeadline_canonical h)
        (canonical_ite (modTask_canonical h)
          (complete_canonical (modTask_canonical h) (fun _ k0 => respondAll_canonical k0))))

theorem sendData_canonical {frees ord eic n idx tag k block data} (h : Canonical s) :
    Canonical (sendData s frees ord eic n idx tag k block data) := by
  induction k generalizing s block data with
  | zero => exact h
  | succ k ih =>
    unfold sendData
    extract_lets _ t
    have ht : Canonical t := canonical_getD (sendFreeing_canonical h) h
    exact canonical_ite ht (ih ht)

theorem pumpData_canonical {eic n idx fuel} (h : Canonical s) : Canonical (pumpData s eic n idx fuel) := by
  induction fuel generalizing s with
  | zero => exact h
  | succ fuel ih =>
    unfold pumpData
    split
    · exact h
    · split
      · exact h
      · split
        · exact h
        · split
          · exact h
          · refine canonical_ite h ?_
            split
            · exact h
            next _ e => exact ih (sendData_canonical (modStream_canonical (canonical_of_fst_eq e (checkBlocks_canonical h))))

theorem releaseSent_canonical {eic n serial idx} (h : Canonical s) : Canonical (releaseSent s eic n serial idx) := by
  unfold releaseSent
  split
  · exact h
  · exact canonical_ite (releaseBuf_canonical (modStream_canonical h)) h

theorem releaseOutput_canonical {id seg ends} (h : Canonical s) : Canonical (releaseOutput s id seg ends) :=
  canonical_foldl (fun _ _ => releaseBuf_canonical) h

theorem withdraw_canonical {f q eic n} (h : Canonical s) : Canonical (withdraw s f q eic n) :=
  modStation_canonical (setQueue_canonical h)

theorem removeReceiver_canonical {x idx r nextSerial} (h : Canonical s) : Canonical
    (removeReceiver s x idx r nextSerial) :=
  State.raise_canonical (State.inc_canonical
    (canonical_of_eq (canonical_foldl (fun _ _ => releaseBuf_canonical) (canonical_ite h (withdraw_canonical h))) rfl
      rfl))

theorem pushTo_canonical {x b bf idx r} (h : Canonical s) : Canonical (pushTo s x b bf idx r) := by
  unfold pushTo
  refine canonical_ite ?_ ?_
  · refine canonical_ite ?_ ?_
    · split
      · exact sendData_canonical h
      · exact pumpData_canonical (modStream_canonical (modStream_canonical h))
    · dsimp only
      split
      · exact releaseBuf_canonical (modStream_canonical h)
      · exact canonical_ite (releaseBuf_canonical (modStream_canonical h)) (deliverOutput_canonical h)
  · dsimp only
    split
    · split
      · exact h
      · exact setQueue_canonical (modStation_canonical h)
    · exact setQueue_canonical (modStream_canonical h)

theorem dropSlow_canonical {eic n serial blocks} (h : Canonical s) : Canonical (dropSlow s eic n serial blocks) := by
  unfold dropSlow
  split
  · exact h
  · exact canonical_ite h (canonical_foldl (fun _ _ k0 => by
    refine canonical_ite ?_ ?_
    · split
      · exact removeReceiver_canonical k0
      · exact k0
    · exact k0) h)

theorem giveBiscuit_canonical {x b bf rs} (h : Canonical s) : Canonical (giveBiscuit s x b bf rs) :=
  canonical_foldl (fun _ _ k0 => canonical_ite k0 (modStream_canonical (pushTo_canonical k0))) h

theorem donePush_canonical {x b bf drop} (h : Canonical s) : Canonical (donePush s x b bf drop) := by
  unfold donePush
  extract_lets _ t0 t2
  have k1 : Canonical t0 := canonical_ite (dropBuf_canonical h) h
  have k3 : Canonical t2 := canonical_ite (State.inc_canonical k1) k1
  exact touch_canonical k3

theorem pushOne_canonical {eic n} (h : Canonical s) : Canonical (pushOne s eic n).1 := by
  unfold pushOne
  split
  · exact h
  · split
    · exact h
    · split
      · exact modStream_canonical h
      · generalize hd' : dropSlow s eic n _ _ = d
        have hd : Canonical d := hd' ▸ dropSlow_canonical h
        dsimp only
        split
        · exact hd
        · refine canonical_fst_ite ?_ (canonical_fst_ite hd ?_)
          · exact canonical_fst_ite (donePush_canonical (giveBiscuit_canonical hd)) (giveBiscuit_canonical hd)
          · exact canonical_foldl (fun _ _ => pushTo_canonical) (donePush_canonical (modStream_canonical hd))

theorem pushAll_canonical {eic n k} (h : Canonical s) : Canonical (pushAll s eic n k) := by
  induction k generalizing s with
  | zero => exact h
  | succ k ih =>
    unfold pushAll
    split
    next _ e => exact canonical_of_fst_eq e (pushOne_canonical h)
    next _ e => exact ih (canonical_of_fst_eq e (pushOne_canonical h))

theorem finishBuf_canonical {eic n serial kind data} (h : Canonical s) : Canonical
    (finishBuf s eic n serial kind data) := by
  unfold finishBuf
  split
  · exact h
  · exact pushAll_canonical (modStream_canonical (canonical_ite h (storeBlocks_canonical h)))

theorem placeArrived_canonical {eic n k} (h : Canonical s) : Canonical (placeArrived s eic n k) := by
  induction k generalizing s with
  | zero => exact h
  | succ k ih =>
    unfold placeArrived
    split
    · exact h
    · split
      · exact h
      next _ _ e => exact ih (finishBuf_canonical (modStream_canonical ((takeBuf_canonical h).get e)))

theorem placeAll_canonical (h : Canonical s) : Canonical (placeAll s) :=
  canonical_foldl (fun _ _ => placeArrived_canonical) h

theorem popItem_canonical {f q i} (h : Canonical s) : Canonical (popItem s f q i) := by
  unfold popItem
  dsimp only
  split
  · exact pushAll_canonical (touch_canonical
      (canonical_ite (modStation_canonical (setQueue_canonical h)) (setQueue_canonical h)))
  · exact canonical_ite (modStation_canonical (setQueue_canonical h)) (setQueue_canonical h)

theorem popQueue_canonical {f q} (h : Canonical s) : Canonical (popQueue s f q) := by
  unfold popQueue
  split
  · exact h
  · exact popItem_canonical h

theorem checkItem_canonical {i} (h : Canonical s) : Canonical (checkItem s i).1 := by
  unfold checkItem
  refine canonical_fst_ite ?_ ?_
  · exact h
  · split
    · exact checkBlocks_canonical h
    · exact h

theorem releaseHold_canonical {hd} (h : Canonical s) : Canonical (releaseHold s hd) := by
  unfold releaseHold
  split
  · split
    · exact releaseBuf_canonical h
    · exact h
  · exact h

/-! ### `Machine/FacetOps.lean` -/

theorem modFacet_canonical {f g} (h : Canonical s) : Canonical (modFacet s f g) := by
  unfold modFacet
  split
  · exact h
  · exact h

theorem modEngine_canonical {e g} (h : Canonical s) : Canonical (modEngine s e g) := by
  unfold modEngine
  split
  · exact h
  · exact h

theorem modQueue_canonical {e prio g} (h : Canonical s) : Canonical (modQueue s e prio g) := modEngine_canonical h

theorem saveRowMap_canonical {f} (h : Canonical s) : Canonical (saveRowMap s f) :=
  State.save_canonical (State.setBlob_canonical h)

theorem facetEvent_canonical {f code phys logical synd at_} (h : Canonical s) : Canonical
    (facetEvent s f code phys logical synd at_) :=
  State.raise_canonical h

theorem sparesLow_canonical {f before p logical synd at_} (h : Canonical s) : Canonical
    (sparesLow s f before p logical synd at_) :=
  canonical_ite (facetEvent_canonical h) h

theorem popInput_canonical {f r} (h : Canonical s) : Canonical (popInput s f r).1 := by
  unfold popInput
  split
  · exact h
  · exact popItem_canonical h

theorem endPass_canonical {f r} (h : Canonical s) : Canonical (endPass s f r) :=
  canonical_ite h (State.inc_canonical (modEngine_canonical h))

theorem finishRuns_canonical {f} (h : Canonical s) : Canonical (finishRuns s f) := by
  unfold finishRuns
  extract_lets _ _ _ t1
  have k2 : Canonical t1 := canonical_foldl (fun _ _ => releaseHold_canonical) (modFacet_canonical h)
  clear_value t1
  split
  · exact k2
  · exact canonical_ite k2 (canonical_ite (modFacet_canonical k2) (releaseHold_canonical (modFacet_canonical k2)))

theorem stopFacet_canonical {f} (h : Canonical s) : Canonical (stopFacet s f) := modFacet_canonical h

theorem restartFacet_canonical {f} (h : Canonical s) : Canonical (restartFacet s f) := by
  unfold restartFacet
  extract_lets x t due restore u
  have ht : Canonical t := canonical_ite (State.inc_canonical (modFacet_canonical h)) h
  have hu : Canonical u := canonical_ite (State.inc_canonical (modFacet_canonical ht)) ht
  exact canonical_ite h (canonical_ite ht (State.faultRetried_canonical (State.add_canonical (modFacet_canonical hu))))

theorem resumeFill_canonical {f} (h : Canonical s) : Canonical (resumeFill s f) :=
  canonical_ite (modFacet_canonical h) h

theorem reloadShadow_canonical {f} (h : Canonical s) : Canonical (reloadShadow s f) := by
  unfold reloadShadow
  refine canonical_ite ?_ ?_
  · exact h
  · split
    · exact modFacet_canonical h
    · refine canonical_ite ?_ ?_
      · exact h
      · dsimp only
        split
        · refine canonical_ite ?_ ?_
          · exact modFacet_canonical h
          · split
            · exact modFacet_canonical h
            · exact h
        · split
          · exact modFacet_canonical h
          · exact h

theorem noteIdle_canonical {f} (h : Canonical s) : Canonical (noteIdle s f) := by
  unfold noteIdle
  split
  · exact modFacet_canonical h
  · exact State.add_canonical (modFacet_canonical h)
  · exact h

/-! ### `Machine/Waves.lean` -/

theorem modAnalog_canonical {g} (h : Canonical s) : Canonical (modAnalog s g) := h

theorem putOut_canonical {key o} (h : Canonical s) : Canonical (putOut s key o) := modAnalog_canonical h

theorem setOut_canonical {key code} (h : Canonical s) : Canonical (setOut s key code) := putOut_canonical h

theorem connectOut_canonical {key code} (h : Canonical s) : Canonical (connectOut s key code) := putOut_canonical h

theorem releaseOuts_canonical (h : Canonical s) : Canonical (releaseOuts s) :=
  canonical_foldl (fun _ _ k0 => by
    split
    · exact putOut_canonical k0
    · exact k0) h

theorem addPlay_canonical {out wave scale start ahead} (h : Canonical s) : Canonical
    (addPlay s out wave scale start ahead) :=
  canonical_ite (State.inc_canonical h) h

theorem feedForward_canonical {f up num den start ahead} (h : Canonical s) : Canonical
    (feedForward s f up num den start ahead) :=
  canonical_ite h (canonical_foldl (fun _ _ => addPlay_canonical) h)

theorem retuneAt_canonical {old new f k} (h : Canonical s) : Canonical (retuneAt s old new f k) := by
  rw [retuneAt]
  refine canonical_ite h (canonical_ite ?_ ?_)
  · split
    · exact feedForward_canonical h
    · exact h
  · split
    · exact feedForward_canonical (canonical_of_eq h rfl rfl)
    · exact h

theorem retune_canonical {old} (h : Canonical s) : Canonical (retune s old) :=
  canonical_foldl (fun _ _ => retuneAt_canonical) h

theorem setTables_canonical {tables} (h : Canonical s) : Canonical (setTables s tables) := retune_canonical h

theorem fillWave_canonical {f task up} (h : Canonical s) : Canonical (fillWave s f task up) := by
  unfold fillWave
  split
  · exact h
  · refine canonical_ite ?_ ?_
    · exact h
    · dsimp only
      exact feedForward_canonical (State.drawNat_canonical h)

/-! ### `Machine/Task.lean` -/

theorem endStreams_canonical {n} (h : Canonical s) : Canonical (endStreams s n) := h

theorem flagEvent_canonical {t} (h : Canonical s) : Canonical (flagEvent s t) :=
  canonical_ite (canonical_foldl (fun _ _ k0 => canonical_ite k0 (State.raise_canonical k0)) h) h

theorem endGangTask_canonical {t} (h : Canonical s) : Canonical (endGangTask s t) :=
  canonical_ite h (modGang_canonical h)

theorem removeTask_canonical {t} (h : Canonical s) : Canonical (removeTask s t) :=
  setTables_canonical (endGangTask_canonical (canonical_of_eq (flagEvent_canonical h) rfl rfl))

theorem afterAbort_canonical {t after} (h : Canonical s) : Canonical (afterAbort s t after) := by
  unfold afterAbort
  split
  · exact h
  · dsimp only
    split
    · exact endRequest_canonical h
    · exact modRequest_canonical h
    · refine canonical_ite ?_ ?_
      · exact endRequest_canonical h
      · refine canonical_ite ?_ ?_
        · exact endRequest_canonical h
        · split
          · exact canonical_ite (awaitAdmission_canonical h) (missDeadline_canonical h)
          · exact canonical_ite (modRequest_canonical
              (State.raise_canonical (State.inc_canonical (awaitAdmission_canonical h)))) (awaitAdmission_canonical h)
          · exact awaitAdmission_canonical h

theorem gangTell_canonical {gt ord cause others} (h : Canonical s) : Canonical (gangTell s gt ord cause others) := by
  unfold gangTell
  dsimp only
  exact canonical_foldl (fun _ _ => sendPart_canonical)
    (State.raise_canonical (State.inc_canonical (canonical_snd_ite h (State.drawNat_canonical h))))

theorem abortOne_canonical {n after cause} (h : Canonical s) : Canonical (abortOne s n after cause) := by
  unfold abortOne
  split
  · exact h
  · extract_lets _ t1 t4 _ _ t6 t8
    have k2 : Canonical t1 := canonical_foldl (fun _ _ => State.inc_canonical) h
    clear_value t1
    have k5 : Canonical t4 := canonical_foldl (fun _ _ k3 => canonical_ite k3 (State.add_canonical k3)) k2
    clear_value t4
    have k7 : Canonical t6 := State.faultAborted_canonical (removeTask_canonical k5)
    have k9 : Canonical t8 := by
      unfold t8
      split
      · exact gangTell_canonical k7
      · exact k7
    exact afterAbort_canonical k9

theorem abortTask_canonical {n after cause} (h : Canonical s) : Canonical (abortTask s n after cause) :=
  canonical_foldl (fun _ _ => abortOne_canonical) (abortOne_canonical h)

theorem refusePart_canonical {gt ord cause} (h : Canonical s) : Canonical (refusePart s gt ord cause) := by
  unfold refusePart
  dsimp only
  split
  · exact abortTask_canonical (gangTell_canonical h)
  · exact gangTell_canonical h

theorem recertOne_canonical {c n cause lost} (h : Canonical s) : Canonical (recertOne s c n cause lost).1 := by
  unfold recertOne
  split
  · exact h
  · refine canonical_fst_ite ?_ ?_
    · exact canonical_fst_ite (abortTask_canonical h) h
    · extract_lets t0
      have k1 : Canonical t0 := State.raise_canonical (State.inc_canonical h)
      exact canonical_fst_ite (State.inc_canonical (modTask_canonical (setTables_canonical k1)))
        (abortTask_canonical k1)

theorem recertify_canonical {ns cause lost announce} (h : Canonical s) :
    Canonical (recertify s ns cause lost announce) := by
  have each {l : List Task} {a : State × Recert} (ha : Canonical a.1) :
      Canonical (l.foldl (fun (a : State × Recert) t => recertOne a.1 a.2 t.num cause lost) a).1 :=
    List.foldlRecOn l _ (motive := fun (a : State × Recert) => Canonical a.1) ha fun _ hb _ _ => recertOne_canonical hb
  exact canonical_ite (State.raise_canonical (each h)) (each h)

theorem chargeFacet_canonical {f symbols ticks} (h : Canonical s) : Canonical (chargeFacet s f symbols ticks) :=
  canonical_ite (recertify_canonical (modFacet_canonical h)) (modFacet_canonical h)

theorem openRings_canonical {f} (h : Canonical s) : Canonical (openRings s f) :=
  canonical_of_eq (modFacet_canonical h) rfl rfl

theorem openRow_canonical {f p} (h : Canonical s) : Canonical (openRow s f p) :=
  canonical_of_eq (modFacet_canonical h) rfl rfl

theorem loseDigital_canonical {f} (h : Canonical s) : Canonical (loseDigital s f) := State.setUnits_canonical h

theorem degradeFacet_canonical {f phys logical synd stamp digital} (h : Canonical s) : Canonical
    (degradeFacet s f phys logical synd stamp digital) := by
  unfold degradeFacet
  refine canonical_ite ?_ ?_
  · exact canonical_ite (recertify_canonical (loseDigital_canonical h)) h
  · extract_lets _ t0 _ _ t2 t4 t6
    have k1 : Canonical t0 := modFacet_canonical (openRings_canonical h)
    have k3 : Canonical t2 := facetEvent_canonical (State.faultDegraded_canonical k1)
    have k5 : Canonical t4 := State.setFacets_canonical k3
    have k7 : Canonical t6 := canonical_ite (loseDigital_canonical k5) k5
    exact recertify_canonical k7

theorem loseUnits_canonical {fs others} (h : Canonical s) : Canonical (loseUnits s fs others) :=
  recertify_canonical (canonical_of_eq (State.setFacets_canonical h) rfl rfl)

theorem loseFacets_canonical {fs} (h : Canonical s) : Canonical (loseFacets s fs) := loseUnits_canonical h

theorem predictRing_canonical {f row lane} (h : Canonical s) : Canonical (predictRing s f row lane) :=
  canonical_ite h (modFacet_canonical (setOut_canonical (State.drawBool_canonical (State.drawNat_canonical (n := 2047) h))))

theorem predictRings_canonical {f} (h : Canonical s) : Canonical (predictRings s f) :=
  canonical_ite h (canonical_foldl (fun _ _ => predictRing_canonical) h)

theorem startRelockAt_canonical {f triggers acquires synd symAt} (h : Canonical s) : Canonical
    (startRelockAt s f triggers acquires synd symAt) :=
  canonical_ite h (predictRings_canonical (modFacet_canonical (stopFacet_canonical h)))

theorem startRelock_canonical {f triggers acquires} (h : Canonical s) : Canonical
    (startRelock s f triggers acquires) :=
  startRelockAt_canonical h

theorem slotError_canonical {f task op rowTile slot rule} (h : Canonical s) : Canonical
    (slotError s f task op rowTile slot rule) := by
  unfold slotError
  split
  · exact abortTask_canonical (State.raise_canonical (State.inc_canonical h))

theorem tileError_canonical {f r} (h : Canonical s) : Canonical (tileError s f r) :=
  abortTask_canonical (State.raise_canonical (State.inc_canonical h))

/-- What the issue of a symbol comes to. -/
def CanonicalIssue : IssueStep → Prop
  | .next t => Canonical t
  | _ => True

theorem canonicalIssue_ite {c : Prop} [Decidable c] {a b : IssueStep} (ha : CanonicalIssue a) (hb : CanonicalIssue b) :
    CanonicalIssue (if c then a else b) := by split <;> assumption

theorem CanonicalIssue.get {i : IssueStep} {t : State} (h : CanonicalIssue i) (e : i = .next t) : Canonical t := by
  rw [e] at h; exact h

theorem issueStep_canonical {f} (h : Canonical s) : CanonicalIssue (issueStep s f) := by
  unfold issueStep
  dsimp only
  refine canonicalIssue_ite trivial ?_
  split
  · trivial
  · refine canonicalIssue_ite trivial (canonicalIssue_ite trivial ?_)
    split
    · trivial
    · trivial
    · have hp {g r} : Canonical (popInput (modFacet s f g) f r).1 := popInput_canonical (modFacet_canonical h)
      refine canonicalIssue_ite ?_ ?_
      · exact touch_canonical (State.inc_canonical (modFacet_canonical (endPass_canonical (modFacet_canonical hp))))
      · exact touch_canonical (State.inc_canonical (modFacet_canonical (endPass_canonical (modFacet_canonical hp))))

theorem pump_canonical {f k} (h : Canonical s) : Canonical (pump f k s) := by
  induction k generalizing s with
  | zero => exact h
  | succ k ih =>
    unfold pump
    split
    · exact h
    next e => exact ih ((issueStep_canonical h).get e)
    · exact slotError_canonical h
    · exact tileError_canonical h

theorem reissueFacet_canonical {f} (h : Canonical s) : Canonical (reissueFacet s f) :=
  canonical_ite (restartFacet_canonical h) (chargeFacet_canonical (restartFacet_canonical h))

theorem settleFacet_canonical {f} (h : Canonical s) : Canonical (settleFacet s f) :=
  noteIdle_canonical (finishRuns_canonical
    (pump_canonical (resumeFill_canonical (reloadShadow_canonical (reissueFacet_canonical h)))))

/-! ### `Machine/Image.lean` -/

theorem damageCopy_canonical {n b blks} (h : Canonical s) : Canonical (damageCopy s n b blks) :=
  State.raise_canonical (modSlot_canonical h)

/-! ### `Machine/Safe.lean` -/

theorem modLight_canonical {g} (h : Canonical s) : Canonical (modLight s g) := h

theorem modInput_canonical {i g} (h : Canonical s) : Canonical (modInput s i g) := modLight_canonical h

theorem setInput_canonical {i st} (h : Canonical s) : Canonical (setInput s i st) :=
  canonical_ite h (State.raise_canonical (modInput_canonical h))

theorem darkInput_canonical {i} (h : Canonical s) : Canonical (darkInput s i) :=
  canonical_ite (setInput_canonical h) h

theorem enterSafe_canonical {cause} (h : Canonical s) : Canonical (enterSafe s cause) := by
  unfold enterSafe
  refine canonical_ite ?_ ?_
  · exact h
  · extract_lets _ _ _ _ t0 t2
    have k1 : Canonical t0 := canonical_foldl (fun _ _ => darkInput_canonical)
      (State.setNum_canonical (dropExpert_canonical h))
    clear_value t0
    have k3 : Canonical t2 := State.setNum_canonical (State.setNum_canonical k1)
    exact setNode_canonical (State.faultSafe_canonical k3)

/-! ### `Machine/Admit.lean` -/

theorem countRefusal_canonical {cause} (h : Canonical s) : Canonical (countRefusal s cause) :=
  State.setBlob_canonical h

theorem evictSession_canonical {n} (h : Canonical s) : Canonical (evictSession s n) :=
  State.inc_canonical (modSession_canonical h)

theorem evictFor_canonical {context need k} (h : Canonical s) : Canonical (evictFor context need k s).1 := by
  induction k generalizing s with
  | zero => exact h
  | succ k ih =>
    unfold evictFor
    refine canonical_fst_ite h ?_
    split
    · exact h
    · exact ih (evictSession_canonical h)

theorem setLineage_canonical {r pages lineage} (h : Canonical s) : Canonical (setLineage s r pages lineage) := by
  unfold setLineage
  split
  · exact modSession_canonical h
  · exact h

theorem reservePages_canonical {r pages onStacks} (h : Canonical s) : Canonical (reservePages s r pages onStacks).1 :=
    by
  unfold reservePages
  refine canonical_fst_ite ?_ ?_
  · exact h
  · split
    next t0 e1 =>
      have k2 := canonical_of_fst_eq e1 (evictFor_canonical h)
      exact k2
    next t3 e4 =>
      have k5 := canonical_of_fst_eq e4 (evictFor_canonical h)
      dsimp only
      split
      · exact modSession_canonical k5
      · exact modRequest_canonical k5

theorem refuseKv_canonical {r pages} (h : Canonical s) : Canonical (refuseKv s r pages) :=
  endRequest_canonical (canonical_ite h (State.raise_canonical h))

theorem openStream_canonical {task jsn cls d} (h : Canonical s) : Canonical (openStream s task jsn cls d) := h

theorem noteSlack_canonical {slack} (h : Canonical s) : Canonical (noteSlack s slack) := State.record_canonical h

theorem admitTask_canonical {g cls bound p gang ordinal} (h : Canonical s) : Canonical
    (admitTask s g cls bound p gang ordinal) := by
  unfold admitTask
  extract_lets _ _ _ _ _ _ t1 _ t3 t5
  have k2 : Canonical t1 := canonical_foldl (fun _ _ => openStream_canonical) h
  clear_value t1
  have k4 : Canonical t3 := canonical_ite (State.inc_canonical k2) (noteSlack_canonical (State.inc_canonical k2))
  have k6 : Canonical t5 := placeAll_canonical (setTables_canonical k4)
  exact canonical_ite (modGang_canonical k6) k6

theorem admitPlanned_canonical {r g bound p} (h : Canonical s) : Canonical (admitPlanned s r g bound p) := by
  unfold admitPlanned
  dsimp only
  split
  next t0 e1 =>
    have k2 := canonical_of_fst_eq e1 (reservePages_canonical (canonical_ite (setLineage_canonical h) h))
    exact refuseKv_canonical (by
    split
    · exact canonical_ite (setLineage_canonical k2) k2
    · exact k2)
  next t3 e4 =>
    have k5 := canonical_of_fst_eq e4 (reservePages_canonical (canonical_ite (setLineage_canonical h) h))
    exact admitTask_canonical k5

theorem admitRequest_canonical {r g} (h : Canonical s) : Canonical (admitRequest s r g) := by
  unfold admitRequest
  refine canonical_ite ?_ ?_
  · exact endRequest_canonical h
  · refine canonical_ite ?_ ?_
    · exact modRequest_canonical h
    · split
      · exact canonical_ite (missDeadline_canonical h) (endRequest_canonical (countRefusal_canonical h))
      · exact admitPlanned_canonical h

theorem execTaskAdmission_canonical {graph} (h : Canonical s) : CanonicalNext (execTaskAdmission graph s) := by
  unfold execTaskAdmission
  refine canonicalNext_ite ?_ ?_
  · exact canonicalNext_next h
  · split
    · refine canonicalNext_ite ?_ ?_
      · exact canonicalNext_next h
      · split
        · exact canonicalNext_next (countRefusal_canonical h)
        · exact canonicalNext_next (admitTask_canonical h)
    · split
      · exact canonicalNext_ite (canonicalNext_next (rearmBusy_canonical (admitRequest_canonical h)))
          (canonicalNext_next h)
      · exact canonicalNext_next h

theorem settleAllFacets_canonical (h : Canonical s) : Canonical (settleAllFacets s) :=
  canonical_foldl (fun _ _ => settleFacet_canonical) h

theorem execTaskAbort_canonical {task cause} (h : Canonical s) : CanonicalNext (execTaskAbort task cause s) :=
  canonicalNext_next (settleAllFacets_canonical (abortTask_canonical h))

theorem mitre_canonical {n batch} (h : Canonical s) : Canonical (mitre s n batch) := by
  unfold mitre
  dsimp only
  split
  · exact h
  · exact settleCtx_canonical (State.raise_canonical (State.inc_canonical (setCtx_canonical h)))

theorem timedMitres_canonical (h : Canonical s) : Canonical (timedMitres s) :=
  canonical_foldl (fun _ _ k0 => canonical_ite (mitre_canonical k0) k0) h

theorem recordCopy_canonical {r copy} (h : Canonical s) : Canonical (recordCopy s r copy) := by
  unfold recordCopy
  extract_lets +onlyGivenNames _ t0
  have k1 : Canonical t0 := canonical_ite h (modRequest_canonical (jNote_canonical h))
  split
  · exact k1
  · refine canonical_ite ?_ ?_
    · exact k1
    · refine canonical_ite ?_ ?_
      · exact modRequest_canonical (modSession_canonical k1)
      · extract_lets _ _ t2
        have k3 : Canonical t2 := by
          unfold t2
          split
          · exact jNote_canonical (jFree_canonical (jNote_canonical k1))
          · exact jNote_canonical k1
        exact State.inc_canonical (modRequest_canonical (modSession_canonical k3))

theorem admitPart_canonical {gt ord g model stage copy bound} (h : Canonical s) : Canonical
    (admitPart s gt ord g model stage copy bound) := by
  unfold admitPart
  dsimp only
  split
  · exact refusePart_canonical (State.faultAborted_canonical h)
  · refine canonical_ite ?_ ?_
    · exact refusePart_canonical (State.faultAborted_canonical h)
    · split
      · exact refusePart_canonical (countRefusal_canonical h)
      · exact canonical_foldl (fun _ _ k0 => canonical_getD (sendFreeing_canonical k0) k0) (admitTask_canonical h)

theorem takeBatch_canonical {gt ord g model stage copy bound} (h : Canonical s) : Canonical
    (takeBatch s gt ord g model stage copy bound) :=
  canonical_ite (refusePart_canonical h) (admitPart_canonical h)

theorem sendBatches_canonical {t copy} (h : Canonical s) : Canonical (sendBatches s t copy) := by
  unfold sendBatches
  dsimp only
  split
  · exact h
  · exact canonical_ite h (canonical_foldl
      (fun _ _ k0 => canonical_ite (takeBatch_canonical k0) (sendPart_canonical k0)) h)

theorem execBatchIssue_canonical {context batch tasks} (h : Canonical s) : CanonicalNext
    (execBatchIssue context batch tasks s) := by
  unfold execBatchIssue
  refine canonicalNext_ite ?_ ?_
  · exact canonicalNext_next h
  · dsimp only
    split
    · exact canonicalNext_next (canonical_foldl (fun _ _ => abortTask_canonical)
        (canonical_ite (mitre_canonical h) h))
    · exact canonicalNext_next (settleAll_canonical (canonical_foldl (fun _ _ k1 => by
    split
    · exact recordCopy_canonical (sendBatches_canonical (modTask_canonical k1))
    · exact sendBatches_canonical (modTask_canonical k1))
        (canonical_of_eq (canonical_ite (mitre_canonical h) h) rfl rfl)))

theorem endCancelled_canonical {jsn} (h : Canonical s) : Canonical (endCancelled s jsn) := by
  unfold endCancelled
  split
  · exact canonical_ite (endRequest_canonical h) h
  · exact h

theorem execBatchEnd_canonical {batch} (h : Canonical s) : CanonicalNext (execBatchEnd batch s) := by
  unfold execBatchEnd
  split
  · exact canonicalNext_next h
  · extract_lets _ _ t0 t3
    have k1 : Canonical t0 := by
      unfold t0
      split
      · exact modSlot_canonical h
      · exact h
    have k4 : Canonical t3 := canonical_foldl (fun _ _ k2 => endCancelled_canonical (removeTask_canonical k2)) k1
    clear_value t3
    exact canonicalNext_next (settleCtx_canonical k4)

theorem diverged_canonical {r token} (h : Canonical s) : Canonical (diverged s r token) := by
  unfold diverged
  extract_lets _ t0 t2
  have k1 : Canonical t0 := State.raise_canonical (State.inc_canonical h)
  have k3 : Canonical t2 := by
    unfold t2
    split
    · exact abortTask_canonical k1
    · exact endRequest_canonical k1
  exact canonical_ite k3 (enterSafe_canonical k3)

theorem tokenFrame_canonical {r k token stop inexact} (h : Canonical s) : Canonical
    (tokenFrame s r k token stop inexact) :=
  respond_canonical h

theorem nextStep_canonical {jsn} (h : Canonical s) : Canonical (nextStep s jsn) := awaitAdmission_canonical h

theorem releaseToken_canonical {r t inexact} (h : Canonical s) : Canonical (releaseToken s r t inexact) := by
  have hn {e} : Canonical ((jNote s e).inc 0x6010_05) := State.inc_canonical (jNote_canonical h)
  refine canonical_ite (canonical_ite (diverged_canonical h) (canonical_ite ?_ ?_)) (canonical_ite ?_ ?_)
  · exact complete_canonical (modRequest_canonical h) fun _ k => canonical_ite k (tokenFrame_canonical k)
  · exact nextStep_canonical (canonical_ite (modRequest_canonical h) (tokenFrame_canonical (modRequest_canonical h)))
  · exact complete_canonical (modRequest_canonical hn) fun _ k => tokenFrame_canonical k
  · exact settleAll_canonical (modRequest_canonical
      (nextStep_canonical (tokenFrame_canonical (modRequest_canonical hn))))

theorem execTokenRelease_canonical {jsn token inexact} (h : Canonical s) : CanonicalNext
    (execTokenRelease jsn token inexact s) := by
  unfold execTokenRelease
  split
  · exact canonicalNext_ite (canonicalNext_next h) (canonicalNext_next (releaseToken_canonical h))
  · exact canonicalNext_next h

theorem execRepairTimeout_canonical {context slot} (h : Canonical s) : CanonicalNext
    (execRepairTimeout context slot s) :=
  canonicalNext_ite (canonicalNext_next h) (canonicalNext_next (canonical_foldl (fun _ _ => endRequest_canonical) h))

end Sys2Proof.Machine
end

section
/-! PROOFS. The canonical form is kept, file by file of the model: Machine/Outputs.lean to Machine/Contexts.lean. -/

namespace Sys2Proof.Machine

variable {s : State}


/-! ### `Machine/Outputs.lean` -/

theorem execDeglitchHoldEnd_canonical {o} (h : Canonical s) : CanonicalNext (execDeglitchHoldEnd o s) := by
  unfold execDeglitchHoldEnd
  dsimp only
  split
  · exact canonicalNext_next (canonical_ite h (connectOut_canonical h))
  · exact canonicalNext_next h

theorem modConv_canonical {c g} (h : Canonical s) : Canonical (modConv s c g) := modAnalog_canonical h

theorem pushUrgent_canonical {c r} (h : Canonical s) : CanonicalOpt (pushUrgent s c r) :=
  canonicalOpt_ite canonicalOpt_none (canonicalOpt_some (modConv_canonical (canonical_ite h (State.inc_canonical h))))

theorem modExt_canonical {k g} (h : Canonical s) : Canonical (modExt s k g) := modAnalog_canonical h

theorem playCode_canonical {k c} (h : Canonical s) : Canonical (playCode s k c) :=
  canonical_ite (setOut_canonical (canonical_ite (State.inc_canonical h) h)) (canonical_ite (State.inc_canonical h) h)

theorem aoutCode_canonical {k v} (h : Canonical s) : Canonical (aoutCode s k v) := by
  unfold aoutCode
  refine canonical_ite ?_ ?_
  · exact modExt_canonical (State.setNum_canonical h)
  · split
    · exact setOut_canonical (modExt_canonical (State.setNum_canonical h))
    · exact canonical_ite (modExt_canonical (State.setNum_canonical h))
        (playCode_canonical (modExt_canonical (State.setNum_canonical h)))

theorem spanStart_canonical {k v} (h : Canonical s) : Canonical (spanStart s k v) :=
  setOut_canonical (modExt_canonical (modAnalog_canonical h))

theorem spanWrite_canonical {k v} (h : Canonical s) : Canonical (spanWrite s k v) :=
  spanStart_canonical (State.setNum_canonical h)

theorem execSpanStep_canonical {k} (h : Canonical s) : CanonicalNext (execSpanStep k s) :=
  canonicalNext_ite (canonicalNext_next h)
    (canonicalNext_ite (canonicalNext_next (modExt_canonical h))
      (canonicalNext_next (canonical_getD (pushUrgent_canonical h) h)))

theorem releaseFreeze_canonical (h : Canonical s) : Canonical (releaseFreeze s) :=
  canonical_ite h (canonical_foldl (fun _ _ k0 => canonical_ite (setOut_canonical k0) k0) (releaseOuts_canonical h))

theorem triggerOut_canonical {v} (h : Canonical s) : Canonical (triggerOut s v).2 := by
  unfold triggerOut
  dsimp only
  split
  · exact h
  · exact canonical_snd_ite h (canonical_snd_ite h (addPlay_canonical h))

theorem sampleExternal_canonical {k} (h : Canonical s) : Canonical (sampleExternal s k) := by
  unfold sampleExternal
  dsimp only
  split
  · exact h
  · exact canonical_ite (canonical_ite (setOut_canonical (modAnalog_canonical h)) (modAnalog_canonical h))
      (playCode_canonical (modExt_canonical (modAnalog_canonical h)))

theorem freeHeater_canonical {key} (h : Canonical s) : Canonical (freeHeater s key) := by
  unfold freeHeater
  dsimp only
  exact setOut_canonical (State.drawNat_canonical h)

theorem playHeater_canonical {key due} (h : Canonical s) : Canonical (playHeater s key due) :=
  State.add_canonical (modAnalog_canonical h)

theorem sampleRegion_canonical {key} (h : Canonical s) : Canonical (sampleRegion s key) := by
  unfold sampleRegion
  refine canonical_ite ?_ ?_
  · exact h
  · dsimp only
    exact canonical_ite (State.inc_canonical
      (State.drawBool_canonical (freeHeater_canonical (playHeater_canonical h))))
        (State.drawBool_canonical (freeHeater_canonical (playHeater_canonical h)))

theorem execWaveSample_canonical {o} (h : Canonical s) : CanonicalNext (execWaveSample o s) := by
  unfold execWaveSample
  split
  · exact canonicalNext_next (sampleExternal_canonical h)
  · exact canonicalNext_next (sampleRegion_canonical h)
  · exact canonicalNext_next h

/-! ### `Machine/MemOps.lean` -/

theorem emptyCache_canonical {n place} (h : Canonical s) : Canonical (emptyCache s n place).1 := canonical_fst_ite h h

theorem shelfData_canonical {n place} (h : Canonical s) : Canonical (shelfData s n place).1 := by
  unfold shelfData
  split
  · exact damageCopy_canonical h
  · split
    · exact emptyCache_canonical h
    · exact h

theorem noteShelfBad_canonical {n address kind task} (h : Canonical s) : Canonical
    (noteShelfBad s n address kind task) := by
  unfold noteShelfBad
  dsimp only
  exact memEvent_canonical (logError_canonical (listLine_canonical (shelfData_canonical (State.inc_canonical h))))

theorem noteHbmBad_canonical {n address kind task action ctx} (h : Canonical s) : Canonical
    (noteHbmBad s n address kind task action ctx) :=
  memEvent_canonical (logError_canonical (qualifyUnit_canonical (State.inc_canonical h)))

theorem noteTaskBad_canonical {m unit address task} (h : Canonical s) : Canonical
    (noteTaskBad s m unit address task) :=
  memEvent_canonical (logError_canonical (State.inc_canonical h))

/-! ### `Machine/Heads.lean` -/

theorem takeCmd_canonical {e prio} (h : Canonical s) : Canonical (takeCmd s e prio) := by
  unfold takeCmd
  extract_lets t0
  have k1 : Canonical t0 := by
    unfold t0
    split
    · exact touch_canonical h
    · exact h
  exact modQueue_canonical k1

theorem countCmd_canonical {f} (h : Canonical s) : Canonical (countCmd s f) := State.inc_canonical h

theorem popCmd_canonical {e prio} (h : Canonical s) : Canonical (popCmd s e prio) :=
  canonical_ite (countCmd_canonical (takeCmd_canonical h))
    (canonical_ite (State.inc_canonical (takeCmd_canonical h)) (takeCmd_canonical h))

theorem markWait_canonical {e prio} (h : Canonical s) : Canonical (markWait s e prio) := modQueue_canonical h

theorem dropTask_canonical {e prio n} (h : Canonical s) : Canonical (dropTask s e prio n) := modEngine_canonical h

theorem cmdErrors_canonical {e n w cause} (h : Canonical s) : Canonical (cmdErrors s e n w cause) :=
  canonical_ite (State.setNum_canonical (State.add_canonical h)) (State.add_canonical h)

theorem malformedEvent_canonical {e context copy task w cause position} (h : Canonical s) : Canonical
    (malformedEvent s e context copy task w cause position) :=
  State.raise_canonical h

theorem malformed_canonical {e prio w b cause} (h : Canonical s) : Canonical (malformed s e prio w b cause) :=
  dropTask_canonical (abortTask_canonical (malformedEvent_canonical (cmdErrors_canonical h)))

theorem discardUnbound_canonical {e prio w} (h : Canonical s) : Canonical (discardUnbound s e prio w) :=
  modQueue_canonical (canonical_ite (cmdErrors_canonical h) (malformedEvent_canonical (cmdErrors_canonical h)))

theorem Judge.map_canonical {j : Judge} {g} (hj : CanonicalJudge j) (hg : ∀ t, Canonical t → Canonical (g t)) :
    CanonicalJudge (j.map g) := by
  cases j with
  | done t => exact hg _ hj
  | wait t => exact hj
  | bad c => trivial

theorem settleRuns_canonical {f} (h : Canonical s) : Canonical (settleRuns s f) :=
  canonical_foldl (fun _ _ k0 => canonical_ite k0 (fillWave_canonical k0)) (settleFacet_canonical h)

theorem settleEngine_canonical {e} (h : Canonical s) : Canonical (settleEngine s e) :=
  canonical_ite (settleRuns_canonical h) h

theorem runHead_canonical {e prio mine body} (h : Canonical s) (hb : ∀ w b, CanonicalJudge (body s w b)) :
    Canonical (runHead s e prio mine body) := by
  unfold runHead
  refine canonical_ite h ?_
  split
  · exact h
  next w _ =>
    refine canonical_ite h ?_
    split
    · exact canonical_ite h (discardUnbound_canonical h)
    next b _ =>
      refine canonical_ite (settleEngine_canonical (malformed_canonical h))
        (canonical_ite (settleEngine_canonical (malformed_canonical h)) ?_)
      have hj := hb w b
      split
      next e => rw [e] at hj; exact settleEngine_canonical hj
      next => exact settleEngine_canonical (malformed_canonical h)
      next e => rw [e] at hj; exact settleEngine_canonical hj

theorem preempt_canonical {f} (h : Canonical s) : Canonical (preempt s f) := by
  unfold preempt
  dsimp only
  split
  · exact h
  · exact canonical_ite h (fillWave_canonical (State.inc_canonical (modFacet_canonical h)))

theorem takeShadow_canonical {f p} (h : Canonical s) : Canonical (takeShadow s f p) :=
  canonical_foldl (fun _ _ k0 => canonical_ite k0 (releaseHold_canonical k0)) (modFacet_canonical h)

theorem lockCheck_canonical {f} (h : Canonical s) : Canonical (lockCheck s f) :=
  canonical_ite (startRelock_canonical h) h

theorem flipIn_canonical {f} (h : Canonical s) : Canonical (flipIn s f) := by
  unfold flipIn
  dsimp only
  split
  · exact h
  next p _ =>
    have hp : Canonical (if p.plane.prio then preempt s f else s) := canonical_ite (preempt_canonical h) h
    refine canonical_ite (reloadShadow_canonical (finishRuns_canonical (modFacet_canonical h))) ?_
    refine lockCheck_canonical (reloadShadow_canonical (finishRuns_canonical ?_))
    split
    · exact canonical_ite (modFacet_canonical hp) (releaseHold_canonical (modFacet_canonical hp))
    · exact modFacet_canonical hp

theorem readAbort_canonical {m unit address e prio task} (h : Canonical s) : Canonical
    (readAbort s m unit address e prio task) :=
  dropTask_canonical (abortTask_canonical (noteTaskBad_canonical h))

/-! ### `Machine/Jigs.lean` -/

theorem modJig_canonical {eic stream g} (h : Canonical s) : Canonical (modJig s eic stream g) := h

theorem jigFault_canonical {eic engine jig stream task entry addr} (h : Canonical s) : Canonical
    (jigFault s eic engine jig stream task entry addr) :=
  abortTask_canonical (State.raise_canonical (State.inc_canonical h))

theorem endJig_canonical {eic stream total} (h : Canonical s) : Canonical (endJig s eic stream total) := by
  unfold endJig
  split
  · exact h
  · exact canonical_ite (State.inc_canonical (modJig_canonical h)) h

theorem jigPush_canonical {j sh serial data} (h : Canonical s) : Canonical (jigPush s j sh serial data) :=
  finishBuf_canonical (modJig_canonical h)

theorem modConvert_canonical {n g} (h : Canonical s) : Canonical (modConvert s n g) := h

theorem jigDeliver_canonical {j data} (h : Canonical s) : Canonical (jigDeliver s j data) := by
  unfold jigDeliver
  refine canonical_ite ?_ ?_
  · exact modJig_canonical (modConvert_canonical (State.inc_canonical h))
  · dsimp only
    split
    · exact endJig_canonical (canonical_ite (jigPush_canonical (modJig_canonical (State.inc_canonical h)))
        (modJig_canonical (State.inc_canonical h)))
    · exact modJig_canonical (State.inc_canonical h)

theorem countPort_canonical {engine stack n write} (h : Canonical s) : Canonical (countPort s engine stack n write) :=
  State.add_canonical h

theorem countGather_canonical {engine sh} (h : Canonical s) : Canonical (countGather s engine sh) := by
  unfold countGather
  split
  · exact canonical_ite h (countPort_canonical h)
  · exact h

theorem dropPages_canonical {task} (h : Canonical s) : Canonical (dropPages s task) := by
  unfold dropPages
  split
  · exact h
  · dsimp only
    split
    · exact modSession_canonical (modRequest_canonical h)
    · exact modRequest_canonical h

theorem jigUncorrectable_canonical {j sh w} (h : Canonical s) : Canonical (jigUncorrectable s j sh w) := by
  unfold jigUncorrectable
  dsimp only
  split
  · split
    · exact noteHbmBad_canonical h
    · refine abortTask_canonical ?_
      split
      · exact noteHbmBad_canonical h
      · split
        · exact noteHbmBad_canonical h
        · exact damageCopy_canonical (noteHbmBad_canonical h)
  · exact abortTask_canonical (dropPages_canonical (noteHbmBad_canonical h))
  · exact abortTask_canonical (noteHbmBad_canonical h)

theorem findErrors_canonical {stack a len errors} (h : Canonical s) : Canonical (findErrors s stack a len errors) :=
  canonical_foldl (fun _ _ k0 => canonical_ite (addErr_canonical k0) k0) h

theorem jigRead_canonical {j sh a errors} (h : Canonical s) : Canonical (jigRead s j sh a errors) := by
  unfold jigRead
  dsimp only
  split
  next t0 _ e1 =>
    have k2 := canonical_of_fst_eq e1
      (checkRead_canonical (findErrors_canonical
        (canonical_ite (State.add_canonical (countPort_canonical h)) (countPort_canonical h))))
    exact jigUncorrectable_canonical k2
  next t3 e4 =>
    have k5 := canonical_of_fst_eq e4
      (checkRead_canonical (findErrors_canonical
        (canonical_ite (State.add_canonical (countPort_canonical h)) (countPort_canonical h))))
    exact jigDeliver_canonical k5

theorem askBlocks_canonical {model stage copy k first n} (h : Canonical s) :
    Canonical (askBlocks s model stage copy k first n) := by
  induction k generalizing s first n with
  | zero => exact h
  | succ k ih => exact canonical_ite h (ih (sendConfirmed_canonical h))

theorem jigFetch_canonical {j sh a} (h : Canonical s) : CanonicalOpt (jigFetch s j sh a) := by
  unfold jigFetch
  split
  · refine canonicalOpt_ite ?_ ?_
    · split
      · exact canonicalOpt_none
      · exact canonicalOpt_ite canonicalOpt_none (canonicalOpt_some (modJig_canonical (sendToOr_canonical h)))
    · exact canonicalOpt_some (modJig_canonical (askBlocks_canonical h))
  · exact canonicalOpt_none

theorem jigReceive_canonical {j part} (h : Canonical s) : Canonical (jigReceive s j part) :=
  canonical_ite (modJig_canonical h) (jigDeliver_canonical (modJig_canonical h))

theorem cachePut_canonical {n id rec'} (h : Canonical s) : Canonical (cachePut s n id rec') := by
  unfold cachePut
  dsimp only
  split
  · exact h
  · exact storeMem_canonical h

theorem pushRecords_canonical {eic stream sh l} (h : Canonical s) : Canonical (pushRecords s eic stream sh l).1 := by
  induction l generalizing s with
  | nil => exact h
  | cons r l ih =>
    unfold pushRecords
    split
    · exact h
    · split
      · exact starve_canonical h
      next _ _ e => exact ih (jigPush_canonical ((takeBuf_canonical h).get e))

theorem endConvert_canonical {c rest} (h : Canonical s) : Canonical (endConvert s c rest) :=
  canonical_ite (modJig_canonical (modConvert_canonical h)) (modConvert_canonical h)

/-! ### `Machine/Time.lean` -/

theorem timeCheck_canonical {offset} (h : Canonical s) : Canonical (timeCheck s offset) := by
  unfold timeCheck
  extract_lets _ _ t0
  have k1 : Canonical t0 := canonical_of_eq (State.inc_canonical (State.setNum_canonical h)) rfl rfl
  refine canonical_ite ?_ ?_
  · exact k1
  · refine canonical_ite ?_ ?_
    · exact canonical_ite (State.raise_canonical (State.setNum_canonical k1)) k1
    · split
      · exact k1
      · exact State.raise_canonical (State.setNum_canonical k1)

theorem setCounter_canonical {t} (h : Canonical s) : Canonical (setCounter s t) :=
  State.raise_canonical (State.setNum_canonical h)

theorem edgeCheck_canonical {frac} (h : Canonical s) : Canonical (edgeCheck s frac) := timeCheck_canonical h

theorem execFrameInEdge_canonical {frac valid} (h : Canonical s) : CanonicalNext (execFrameInEdge frac valid s) :=
  canonicalNext_ite (canonicalNext_next (State.inc_canonical h))
    (canonicalNext_ite (canonicalNext_next (edgeCheck_canonical h)) (canonicalNext_next h))

theorem execPpsInEdge_canonical {frac valid} (h : Canonical s) : CanonicalNext (execPpsInEdge frac valid s) :=
  canonicalNext_ite (canonicalNext_next (State.inc_canonical h))
    (canonicalNext_ite (canonicalNext_next (edgeCheck_canonical h)) (canonicalNext_next h))

theorem execTimeHoldover_canonical (h : Canonical s) : CanonicalNext (execTimeHoldover s) :=
  canonicalNext_ite (canonicalNext_next (State.raise_canonical (State.setNum_canonical h))) (canonicalNext_next h)

theorem timeReset_canonical {v} (h : Canonical s) : Canonical (timeReset s v) :=
  canonical_ite h (canonical_ite (canonical_of_eq (State.setNum_canonical h) rfl rfl) h)

theorem heard_canonical (h : Canonical s) : Canonical (heard s) := h

theorem dropPair_canonical (h : Canonical s) : Canonical (dropPair s) := State.setNum_canonical h

theorem execProbe_canonical {dir payload frac} (h : Canonical s) : CanonicalNext (execProbe dir payload frac s) := by
  unfold execProbe
  refine canonicalNext_ite ?_ ?_
  · exact canonicalNext_next (State.inc_canonical (heard_canonical h))
  · dsimp only
    split
    · exact canonicalNext_ite (canonicalNext_next (State.inc_canonical h)) (canonicalNext_next h)
    · exact canonicalNext_next h

theorem execTime_canonical {dir wrapped payload frac} (h : Canonical s) :
    CanonicalNext (execTime dir wrapped payload frac s) := by
  unfold execTime
  extract_lets t
  have ht : Canonical t := h
  clear_value t
  refine canonicalNext_ite (canonicalNext_next (State.inc_canonical ht)) ?_
  split
  · refine canonicalNext_ite (canonicalNext_next ht) ?_
    extract_lets _ _ u _ v
    have hu : Canonical u := State.setNum_canonical
      (State.setNum_canonical (State.setNum_canonical (State.setNum_canonical (State.setNum_canonical ht))))
    have hv : Canonical v := timeCheck_canonical hu
    exact canonicalNext_ite (canonicalNext_next (setCounter_canonical hv)) (canonicalNext_next hv)
  · exact canonicalNext_next ht

/-! ### `Machine/Links.lean` -/

theorem modEye_canonical {e g} (h : Canonical s) : Canonical (modEye s e g) := h

theorem setWrapped_canonical {p w} (h : Canonical s) : Canonical (setWrapped s p w) :=
  canonical_ite h (State.raise_canonical (State.setNum_canonical h))

theorem portChanged_canonical {port} (h : Canonical s) : Canonical (portChanged s port) :=
  canonical_ite (refreshPorts_canonical h) (recertify_canonical (refreshPorts_canonical h))

theorem settleWraps_canonical (h : Canonical s) : Canonical (settleWraps s) :=
  canonical_foldl (fun _ _ => setWrapped_canonical) h

theorem ringUp_canonical {p mask} (h : Canonical s) : Canonical (ringUp s p mask) :=
  settleWraps_canonical (portChanged_canonical
    (State.raise_canonical (dropPair_canonical (State.setNum_canonical (State.setNum_canonical h)))))

theorem ringDown_canonical {p st cause} (h : Canonical s) : Canonical (ringDown s p st cause) := by
  unfold ringDown
  extract_lets _ t0
  have k1 : Canonical t0 := dropPair_canonical (State.setNum_canonical (State.setNum_canonical h))
  exact settleWraps_canonical (canonical_ite (portChanged_canonical (State.raise_canonical k1)) k1)

theorem execLinkUp_canonical {port missing} (h : Canonical s) : CanonicalNext (execLinkUp port missing s) :=
  canonicalNext_ite (canonicalNext_next (ringUp_canonical (canonical_ite (ringDown_canonical h) h)))
    (canonicalNext_next h)

theorem signalLane_canonical {port lane} (h : Canonical s) : Canonical (signalLane s port lane) := h

theorem execLaneFail_canonical {port lane} (h : Canonical s) : CanonicalNext (execLaneFail port lane s) :=
  canonicalNext_ite (canonicalNext_next h)
    (canonicalNext_ite (canonicalNext_next (ringUp_canonical (State.raise_canonical (State.inc_canonical h))))
      (canonicalNext_ite (canonicalNext_next (ringDown_canonical h)) (canonicalNext_next h)))

theorem laneRestore_canonical {p v} (h : Canonical s) : Canonical (laneRestore s p v) :=
  canonical_ite (ringUp_canonical h) h

theorem routesChanged_canonical (h : Canonical s) : Canonical (routesChanged s) := by
  unfold routesChanged
  extract_lets _ t1 t3
  have k2 : Canonical t1 := canonical_foldl (fun _ _ => abortTask_canonical) h
  clear_value t1
  have k4 : Canonical t3 := canonical_ite k2 (settleAllFacets_canonical k2)
  exact canonical_ite k4 (canonical_ite (mirrorLost_canonical k4) (canonical_ite (mirrorResync_canonical k4) k4))

theorem peerLinkUp_canonical {p mask} (h : Canonical s) : Canonical (peerLinkUp s p mask) :=
  routesChanged_canonical (pumpPeer_canonical
    (portChanged_canonical (State.raise_canonical (State.setNum_canonical (State.setNum_canonical h)))))

theorem peerDown_canonical {p st} (h : Canonical s) : Canonical (peerDown s p st) :=
  canonical_ite (routesChanged_canonical
    (portChanged_canonical (State.raise_canonical (State.setNum_canonical (State.setNum_canonical h)))))
      (State.setNum_canonical (State.setNum_canonical h))

theorem sendHello_canonical {p} (h : Canonical s) : Canonical (sendHello s p) :=
  modPeer_canonical (sendLink_canonical h)

theorem execPeerLinkTrained_canonical {p missing} (h : Canonical s) : CanonicalNext
    (execPeerLinkTrained p missing s) :=
  canonicalNext_ite (canonicalNext_next (sendHello_canonical (State.setNum_canonical (State.setNum_canonical h))))
    (canonicalNext_next h)

theorem execPeerLaneFail_canonical {p lane} (h : Canonical s) : CanonicalNext (execPeerLaneFail p lane s) :=
  canonicalNext_ite (canonicalNext_next h)
    (canonicalNext_ite (canonicalNext_next (peerLinkUp_canonical (State.raise_canonical (State.inc_canonical h))))
      (canonicalNext_ite (canonicalNext_next (peerDown_canonical h)) (canonicalNext_next h)))

theorem peerLaneRestore_canonical {p v} (h : Canonical s) : Canonical (peerLaneRestore s p v) :=
  canonical_ite (peerLinkUp_canonical h) h

theorem peerEnable_canonical {p v} (h : Canonical s) : Canonical (peerEnable s p v) :=
  canonical_ite (canonical_ite (State.setNum_canonical h) (peerDown_canonical (State.setNum_canonical h)))
    (canonical_ite (canonical_ite (peerDown_canonical (State.setNum_canonical h))
      (peerDown_canonical (State.setNum_canonical h))) (State.setNum_canonical h))

theorem execLossOfLight_canonical {port} (h : Canonical s) : CanonicalNext (execLossOfLight port s) := by
  unfold execLossOfLight
  dsimp only
  split
  · exact canonicalNext_ite (canonicalNext_next (modEye_canonical h))
      (canonicalNext_next (ringDown_canonical (State.raise_canonical (State.inc_canonical (modEye_canonical h)))))
  · exact canonicalNext_ite (canonicalNext_next (modEye_canonical h))
      (canonicalNext_next (peerDown_canonical (State.raise_canonical (State.inc_canonical (modEye_canonical h)))))
  · exact canonicalNext_next h

theorem execLightReturn_canonical {port} (h : Canonical s) : CanonicalNext (execLightReturn port s) := by
  unfold execLightReturn
  dsimp only
  split
  · exact canonicalNext_ite (canonicalNext_next (dropPair_canonical (State.setNum_canonical (modEye_canonical h))))
      (canonicalNext_next h)
  · exact canonicalNext_ite (canonicalNext_next (State.setNum_canonical (modEye_canonical h)))
      (canonicalNext_ite (canonicalNext_next (modEye_canonical h)) (canonicalNext_next h))
  · exact canonicalNext_next h

theorem execEyeProbe_canonical {port} (h : Canonical s) : CanonicalNext (execEyeProbe port s) :=
  canonicalNext_ite (canonicalNext_next h) (canonicalNext_next h)

theorem execHelloResend_canonical {p} (h : Canonical s) : CanonicalNext (execHelloResend p s) :=
  canonicalNext_ite (canonicalNext_next (sendHello_canonical h)) (canonicalNext_next h)

/-! ### `Machine/Light.lean` -/

theorem settleDark_canonical (h : Canonical s) : Canonical (settleDark s) :=
  canonical_foldl (fun _ _ k0 => canonical_ite k0
    (canonical_ite (canonical_ite k0
      (canonical_ite (startRelock_canonical (modFacet_canonical k0)) (modFacet_canonical k0)))
        (canonical_ite k0 (canonical_ite (modFacet_canonical (stopFacet_canonical k0)) (modFacet_canonical k0))))) h

theorem noteHeadroom_canonical {path db} (h : Canonical s) : Canonical (noteHeadroom s path db) :=
  canonical_ite (canonical_ite (State.setNum_canonical h)
    (State.raise_canonical (modLight_canonical (State.setNum_canonical h))))
      (canonical_ite (modLight_canonical (State.setNum_canonical h)) (modLight_canonical (State.setNum_canonical h)))

theorem sampleHeadroom_canonical (h : Canonical s) : Canonical (sampleHeadroom s) := by
  unfold sampleHeadroom
  refine canonical_ite ?_ ?_
  · exact State.setNum_canonical h
  · dsimp only
    exact noteHeadroom_canonical (State.drawNat_canonical (State.drawNat_canonical h))

theorem headroomFrame_canonical (h : Canonical s) : Canonical (headroomFrame s) := by
  unfold headroomFrame
  dsimp only
  split
  · exact canonical_ite (modLight_canonical (sampleHeadroom_canonical h)) (sampleHeadroom_canonical h)
  · exact sampleHeadroom_canonical h

theorem setAmps_canonical {amps} (h : Canonical s) : Canonical (setAmps s amps) :=
  canonical_ite h (sampleHeadroom_canonical (modLight_canonical h))

theorem moveBuses_canonical {buses} (h : Canonical s) : Canonical (moveBuses s buses) := State.setNum_canonical h

theorem moveOver_canonical {buses} (h : Canonical s) : Canonical (moveOver s buses) :=
  modLight_canonical (moveBuses_canonical h)

theorem settleLight_canonical (h : Canonical s) : Canonical (settleLight s) :=
  canonical_foldl (fun _ _ => startRelock_canonical)
    (settleDark_canonical (setAmps_canonical
      (canonical_ite h (State.raise_canonical (State.add_canonical (moveOver_canonical h))))))

theorem changeSource_canonical {f} (h : Canonical s) : Canonical (changeSource s f) :=
  canonical_ite h (startRelock_canonical
    (settleDark_canonical (setAmps_canonical (State.add_canonical (moveBuses_canonical h)))))

theorem writeSourceMap_canonical {v} (h : Canonical s) : Canonical (writeSourceMap s v) := by
  unfold writeSourceMap
  extract_lets t0
  have k1 : Canonical t0 := modLight_canonical (State.setNum_canonical h)
  exact canonical_ite (modLight_canonical k1)
    (settleLight_canonical (canonical_foldl (fun _ _ => changeSource_canonical) (modLight_canonical k1)))

theorem sourceFrame_canonical (h : Canonical s) : Canonical (sourceFrame s) := by
  unfold sourceFrame
  split
  · exact h
  · exact canonical_ite h (settleLight_canonical (changeSource_canonical (modLight_canonical h)))

theorem takeLight_canonical {i} (h : Canonical s) : Canonical (takeLight s i) :=
  canonical_ite h (canonical_ite (setInput_canonical h) h)

theorem inputBits_canonical {v rearm} (h : Canonical s) : Canonical (inputBits s v rearm) :=
  settleLight_canonical (canonical_foldl (fun _ _ k0 => by
    refine canonical_ite ?_ ?_
    · exact setInput_canonical k0
    · split
      · exact canonical_ite (setInput_canonical k0) (setInput_canonical k0)
      · exact canonical_ite (takeLight_canonical k0) k0
      · exact k0) (State.setNum_canonical h))

theorem inputEnable_canonical {v} (h : Canonical s) : Canonical (inputEnable s v) := inputBits_canonical h

theorem tripInput_canonical {i feed cause} (h : Canonical s) : Canonical (tripInput s i feed cause) :=
  canonical_ite h (settleLight_canonical (setInput_canonical (State.raise_canonical (State.inc_canonical h))))

theorem execInterlockOpen_canonical {i} (h : Canonical s) : CanonicalNext (execInterlockOpen i s) :=
  canonicalNext_next (tripInput_canonical (modInput_canonical h))

theorem execInterlockClosed_canonical {i} (h : Canonical s) : CanonicalNext (execInterlockClosed i s) :=
  canonicalNext_next (canonical_ite (takeLight_canonical (modInput_canonical h)) (modInput_canonical h))

theorem noteMax_canonical {oid v} (h : Canonical s) : Canonical (noteMax s oid v) :=
  canonical_ite h (State.record_canonical h)

theorem execReturnPowerTrip_canonical {i feed seen} (h : Canonical s) : CanonicalNext
    (execReturnPowerTrip i feed seen s) :=
  canonicalNext_next (canonical_ite (tripInput_canonical (noteMax_canonical h)) (noteMax_canonical h))

theorem setFeeds_canonical {i mw} (h : Canonical s) : Canonical (setFeeds s i mw) :=
  canonical_ite h (sampleHeadroom_canonical (State.setBlob_canonical h))

theorem setFeed_canonical {i feed mw} (h : Canonical s) : Canonical (setFeed s i feed mw) := setFeeds_canonical h

theorem execFeedOverPower_canonical {i feed mw} (h : Canonical s) : CanonicalNext (execFeedOverPower i feed mw s) :=
  canonicalNext_next (canonical_ite (setFeed_canonical h) (tripInput_canonical (setFeed_canonical h)))

theorem execFeedValid_canonical {i mw} (h : Canonical s) : CanonicalNext (execFeedValid i mw s) := by
  unfold execFeedValid
  extract_lets t
  have ht : Canonical t := setFeeds_canonical h
  clear_value t
  exact canonicalNext_ite (canonicalNext_next (settleLight_canonical (setInput_canonical (modInput_canonical ht))))
    (canonicalNext_next ht)

theorem execFeedLow_canonical {i feed mw} (h : Canonical s) : CanonicalNext (execFeedLow i feed mw s) :=
  canonicalNext_ite (canonicalNext_next
    (settleLight_canonical (setInput_canonical (modInput_canonical (setFeed_canonical h)))))
      (canonicalNext_next (setFeed_canonical h))

theorem execSourceFailover_canonical {bus headroomDb} (h : Canonical s) : CanonicalNext
    (execSourceFailover bus headroomDb s) := by
  unfold execSourceFailover
  refine canonicalNext_ite ?_ ?_
  · refine canonicalNext_ite ?_ ?_
    · exact canonicalNext_next (settleLight_canonical (modLight_canonical h))
    · dsimp only
      exact canonicalNext_next (noteHeadroom_canonical
        (State.drawNat_canonical (settleLight_canonical (modLight_canonical h))))
  · exact canonicalNext_next h

/-! ### `Machine/Power.lean` -/

theorem modPower_canonical {g} (h : Canonical s) : Canonical (modPower s g) := h

theorem setRail_canonical {r st} (h : Canonical s) : Canonical (setRail s r st) :=
  State.setNum_canonical (State.setNum_canonical h)

theorem nextSeqStep_canonical (h : Canonical s) : Canonical (nextSeqStep s) := by
  unfold nextSeqStep
  dsimp only
  split
  · exact modPower_canonical h
  · exact canonical_foldl (fun _ _ => setRail_canonical) (modPower_canonical h)

theorem startSeq_canonical (h : Canonical s) : Canonical (startSeq s) :=
  canonical_ite h (canonical_ite (nextSeqStep_canonical (canonical_foldl (fun _ _ => setRail_canonical) h))
    (canonical_foldl (fun _ _ => setRail_canonical) h))

theorem advanceSeq_canonical (h : Canonical s) : Canonical (advanceSeq s) := canonical_ite h (nextSeqStep_canonical h)

theorem unitsFromRails_canonical (h : Canonical s) : Canonical (unitsFromRails s) :=
  State.setUnits_canonical (State.setUnits_canonical h)

theorem railTable_canonical {v} (h : Canonical s) : Canonical (railTable s v) :=
  startSeq_canonical (State.setBlob_canonical h)

theorem pmbusFault_canonical {r fails command} (h : Canonical s) : Canonical (pmbusFault s r fails command) :=
  canonical_ite h (State.raise_canonical (State.inc_canonical h))

theorem execRailGood_canonical {rail pmbusFailures} (h : Canonical s) : CanonicalNext
    (execRailGood rail pmbusFailures s) :=
  canonicalNext_ite (canonicalNext_next
    (settleLight_canonical (unitsFromRails_canonical
      (advanceSeq_canonical (pmbusFault_canonical (setRail_canonical h)))))) (canonicalNext_next h)

theorem execRailFault_canonical {rail volts} (h : Canonical s) : CanonicalNext (execRailFault rail volts s) :=
  canonicalNext_ite (canonicalNext_next
    (advanceSeq_canonical (State.raise_canonical (State.setNum_canonical (setRail_canonical h)))))
      (canonicalNext_next h)

theorem dropStackPages_canonical {n} (h : Canonical s) : Canonical (dropStackPages s n) := h

theorem stackFailed_canonical {n} (h : Canonical s) : Canonical (stackFailed s n) := by
  unfold stackFailed
  refine canonical_ite ?_ ?_
  · exact h
  · extract_lets t0 _ t2 t6
    have k1 : Canonical t0 := State.faultDegraded_canonical (State.setUnits_canonical h)
    have k3 : Canonical t2 := loseUnits_canonical (State.raise_canonical k1)
    have k7 : Canonical t6 := canonical_foldl
      (fun _ _ k4 => canonical_foldl (fun _ _ k5 => canonical_ite (damageCopy_canonical k5) k5) k4) k3
    clear_value t6
    exact canonical_foldl (fun _ _ k8 => by
    dsimp only
    exact canonical_ite (State.drawBool_canonical k8) (State.drawBool_canonical k8)) k7

theorem loseShelf_canonical {n} (h : Canonical s) : Canonical (loseShelf s n) :=
  canonical_foldl (fun _ _ k0 => canonical_foldl (fun _ _ k1 => canonical_ite (damageCopy_canonical k1) k1) k0) h

theorem losePairs_canonical {ns} (h : Canonical s) : Canonical (losePairs s ns) := by
  unfold losePairs
  extract_lets _ _ _ t1 t3 t6
  have k2 : Canonical t1 := canonical_foldl
    (fun _ _ k0 => modFacet_canonical (openRings_canonical (stopFacet_canonical k0))) h
  clear_value t1
  have k4 : Canonical t3 := State.setUnits_canonical k2
  have k7 : Canonical t6 := canonical_foldl (fun _ _ k5 => stackFailed_canonical (loseShelf_canonical k5)) k4
  clear_value t6
  exact settleAllFacets_canonical (loseUnits_canonical k7)

theorem loseLc_canonical {k} (h : Canonical s) : Canonical (loseLc s k) :=
  settleLight_canonical (State.setUnits_canonical h)

theorem loseRail_canonical {r} (h : Canonical s) : Canonical (loseRail s r) :=
  canonical_ite (canonical_foldl (fun _ _ => stackFailed_canonical) h)
    (canonical_ite (stackFailed_canonical h)
      (canonical_ite (stackFailed_canonical h)
        (canonical_ite (losePairs_canonical h)
          (canonical_ite (losePairs_canonical h) (canonical_ite (loseFacets_canonical h) (loseLc_canonical h))))))

theorem loseDomain_canonical {f digital} (h : Canonical s) : Canonical (loseDomain s f digital) :=
  settleAllFacets_canonical (degradeFacet_canonical h)

theorem execOvervoltage_canonical {supply} (h : Canonical s) : CanonicalNext (execOvervoltage supply s) := by
  unfold execOvervoltage
  refine canonicalNext_ite ?_ ?_
  · exact canonicalNext_next h
  · dsimp only
    split
    · exact canonicalNext_ite (canonicalNext_next (enterSafe_canonical h))
        (canonicalNext_ite (canonicalNext_next (loseRail_canonical (State.raise_canonical (setRail_canonical h))))
          (canonicalNext_next h))
    · exact canonicalNext_ite (canonicalNext_next h)
        (canonicalNext_next (loseDomain_canonical (State.raise_canonical h)))
    · exact canonicalNext_ite (canonicalNext_next h)
        (canonicalNext_next (loseDomain_canonical (State.raise_canonical h)))

theorem closeAverages_canonical (h : Canonical s) : Canonical (closeAverages s) := modPower_canonical h

theorem crossCheck_canonical (h : Canonical s) : Canonical (crossCheck s) := by
  refine canonical_foldl (fun t _ ht => canonical_ite ht ?_) h
  split
  · exact ht
  · exact canonical_ite ht (State.raise_canonical (canonical_ite (State.inc_canonical ht) ht))

theorem requestThrottle_canonical {g unit v} (h : Canonical s) : Canonical (requestThrottle s g unit v) :=
  State.raise_canonical (modPower_canonical h)

theorem railsDown_canonical {k} (h : Canonical s) : Canonical (railsDown s k) :=
  modPower_canonical (canonical_foldl (fun _ _ => setRail_canonical) h)

theorem railsOff_canonical (h : Canonical s) : Canonical (railsOff s) := canonical_ite (railsDown_canonical h) h

theorem criticalAction_canonical {g unit} (h : Canonical s) : Canonical (criticalAction s g unit) :=
  canonical_ite (loseLc_canonical (modPower_canonical h)) (railsDown_canonical (enterSafe_canonical h))

theorem judgeUnit_canonical {g unit before} (h : Canonical s) : Canonical (judgeUnit s g unit before) := by
  unfold judgeUnit
  split
  · exact h
  · extract_lets _ _ _ t0 _ _ t2
    have k1 : Canonical t0 := canonical_ite
      (canonical_ite (State.setNum_canonical h)
        (State.raise_canonical (modPower_canonical (State.setNum_canonical h))))
          (canonical_ite (modPower_canonical (State.setNum_canonical h)) (State.setNum_canonical h))
    have k3 : Canonical t2 := canonical_ite (requestThrottle_canonical k1) k1
    exact canonical_ite (criticalAction_canonical k3)
      (canonical_ite (settleLight_canonical (unitsFromRails_canonical (modPower_canonical k3))) k3)

theorem compensate_canonical {i} (h : Canonical s) : Canonical (compensate s i) := by
  unfold compensate
  split
  · exact canonical_ite h (modPower_canonical h)
  · exact h

theorem noteTemp_canonical {i celsius} (h : Canonical s) : Canonical (noteTemp s i celsius) :=
  canonical_foldl (fun _ _ => judgeUnit_canonical)
    (canonical_ite (State.setNum_canonical (compensate_canonical (modPower_canonical h)))
      (compensate_canonical (modPower_canonical h)))

theorem execStackTemperatureRead_canonical {n celsius} (h : Canonical s) : CanonicalNext
    (execStackTemperatureRead n celsius s) :=
  canonicalNext_ite (canonicalNext_next h) (canonicalNext_next (noteTemp_canonical h))

theorem notePower_canonical (h : Canonical s) : Canonical (notePower s) := by
  unfold notePower
  extract_lets _ _ t0
  have k1 : Canonical t0 := canonical_ite (State.setNum_canonical h)
    (State.record_canonical (State.setNum_canonical h))
  exact canonical_ite (requestThrottle_canonical k1) k1

theorem setCaps_canonical (h : Canonical s) : Canonical (setCaps s) :=
  canonical_foldl (fun _ _ => State.setNum_canonical) h

theorem execThrottleEnforced_canonical {group unit} (h : Canonical s) :
    CanonicalNext (execThrottleEnforced group unit s) := by
  unfold execThrottleEnforced
  split
  · exact canonicalNext_next h
  · extract_lets t capped u m v
    have ht : Canonical t := modPower_canonical h
    have hu : Canonical u := setCaps_canonical (modPower_canonical ht)
    have hv : Canonical v := recertify_canonical hu
    clear_value v
    exact canonicalNext_ite (canonicalNext_next ht) (canonicalNext_next (settleAllFacets_canonical (State.raise_canonical hv)))

theorem execThrottleReleased_canonical {group unit} (h : Canonical s) : CanonicalNext
    (execThrottleReleased group unit s) := by
  unfold execThrottleReleased
  split
  · exact canonicalNext_next h
  · exact canonicalNext_next (State.raise_canonical (setCaps_canonical (modPower_canonical h)))

theorem throttleFrame_canonical (h : Canonical s) : Canonical (throttleFrame s) :=
  canonical_foldl (fun _ _ k0 => canonical_ite k0 (State.inc_canonical k0)) (modPower_canonical h)

theorem slotCapFrame_canonical (h : Canonical s) : Canonical (slotCapFrame s) :=
  canonical_foldl (fun _ _ k0 => canonical_ite (State.setNum_canonical k0)
    (modPower_canonical (State.setNum_canonical k0))) (modPower_canonical h)

/-! ### `Machine/Contexts.lean` -/

theorem refuseImage_canonical {n b cause} (h : Canonical s) : Canonical (refuseImage s n b cause) :=
  clearSlot_canonical (buildFailed_canonical (State.raise_canonical h))

theorem writePins_canonical {x pins} (h : Canonical s) : Canonical (writePins s x pins) :=
  canonical_foldl (fun _ _ k0 => by
    split
    · exact k0
    · exact storeMem_canonical k0) h

theorem takeSpace_canonical {n b} (h : Canonical s) : Canonical (takeSpace s n b) :=
  canonical_ite h (canonical_ite (clearSlot_canonical (buildFailed_canonical h))
    (canonical_ite (modSlot_canonical h) (State.raise_canonical (modSlot_canonical h))))

theorem settleBuild_canonical {n b} (h : Canonical s) : Canonical (settleBuild s n b) := by
  unfold settleBuild
  refine canonical_ite ?_ ?_
  · exact h
  · split
    · exact refuseImage_canonical h
    · exact canonical_ite (modSlot_canonical h)
        (canonical_ite (writePins_canonical (modSlot_canonical (takeSpace_canonical (modSlot_canonical h))))
          (takeSpace_canonical (modSlot_canonical h)))

theorem countBlock_canonical {model stage copy block} (h : Canonical s) : Canonical
    (countBlock s model stage copy block) :=
  State.add_canonical h

theorem blockInto_canonical {n b block data} (h : Canonical s) : Canonical (blockInto s n b block data) :=
  canonical_ite h (settleBuild_canonical (modSlot_canonical (countBlock_canonical h)))

theorem libBlock_canonical {model stage copy block port data} (h : Canonical s) : Canonical
    (libBlock s model stage copy block port data).2 := by
  unfold libBlock
  split
  · exact h
  · exact canonical_snd_ite h (canonical_snd_ite h
      (canonical_snd_ite h (canonical_of_eq (countBlock_canonical h) rfl rfl)))

theorem forwardBlock_canonical {model stage copy block port data} (h : Canonical s) : Canonical
    (forwardBlock s model stage copy block port data) :=
  canonical_foldl (fun _ _ k0 => canonical_ite k0 (peerSend_canonical k0)) h

theorem receiveBlock_canonical {model stage copy block port data} (h : Canonical s) :
    Canonical (receiveBlock s model stage copy block port data).2 :=
  libBlock_canonical (canonical_foldl (fun _ _ => jigReceive_canonical)
    (canonical_foldl (fun _ _ => blockInto_canonical) h))

theorem releaseWaiting_canonical {n copy} (h : Canonical s) : Canonical (releaseWaiting s n copy) :=
  canonical_foldl (fun _ _ => awaitAdmission_canonical) h

theorem endBuild_canonical {n b} (h : Canonical s) : Canonical (endBuild s n b) :=
  canonical_ite (clearSlot_canonical (buildFailed_canonical h))
    (settleCtx_canonical (pruneNeeded_canonical (State.raise_canonical (modSlot_canonical h))))

theorem endRepair_canonical {n b} (h : Canonical s) : Canonical (endRepair s n b) :=
  canonical_ite (modSlot_canonical h)
    (releaseWaiting_canonical (State.raise_canonical (modSlot_canonical (writePins_canonical h))))

theorem execBuildVerifyComplete_canonical {context slot} (h : Canonical s) : CanonicalNext
    (execBuildVerifyComplete context slot s) :=
  canonicalNext_ite (canonicalNext_next (endBuild_canonical h))
    (canonicalNext_ite (canonicalNext_next (endRepair_canonical h)) (canonicalNext_next h))

theorem execBuildStall_canonical {context slot} (h : Canonical s) : CanonicalNext (execBuildStall context slot s) :=
  canonicalNext_ite (canonicalNext_next (modSlot_canonical (buildFailed_canonical h))) (canonicalNext_next h)

theorem copyLib_canonical {n b e only} (h : Canonical s) : Canonical (copyLib s n b e only) :=
  canonical_foldl (fun _ _ k0 => canonical_ite (blockInto_canonical (countBlock_canonical k0)) k0) h

theorem cmdBuild_canonical {n b source copy d} (h : Canonical s) : Canonical (cmdBuild s n b source copy d).2 := by
  unfold cmdBuild
  refine canonical_snd_ite ?_ ?_
  · exact h
  · refine canonical_snd_ite ?_ ?_
    · exact h
    · refine canonical_snd_ite ?_ ?_
      · exact h
      · refine canonical_snd_ite ?_ ?_
        · exact h
        · refine canonical_snd_ite ?_ ?_
          · exact h
          · refine canonical_snd_ite ?_ ?_
            · exact settleBuild_canonical (modSlot_canonical (setCtx_canonical h))
            · split
              · exact copyLib_canonical (modSlot_canonical
                  (settleBuild_canonical (modSlot_canonical (setCtx_canonical h))))
              · exact settleBuild_canonical (modSlot_canonical (setCtx_canonical h))

theorem cmdDeregister_canonical {n} (h : Canonical s) : Canonical (cmdDeregister s n).2 := by
  unfold cmdDeregister
  extract_lets c stop t
  have hstop : ∀ {u b}, Canonical u → Canonical (stop u b) := by
    intro u b hu
    dsimp only [stop]
    split
    · exact clearSlot_canonical (buildFailed_canonical hu)
    · exact clearSlot_canonical (buildFailed_canonical hu)
    · exact clearSlot_canonical hu
    · exact hu
  exact canonical_snd_ite h (settleCtx_canonical (hstop (hstop (saveReg_canonical (setCtx_canonical h)))))

theorem cmdSwitch_canonical {n b notBefore} (h : Canonical s) : Canonical (cmdSwitch s n b notBefore).2 := by
  have mitred {c t} [Decidable c] (ht : Canonical t) : Canonical (if c then mitre t n none else t) :=
    canonical_ite (mitre_canonical ht) ht
  exact canonical_snd_ite h (canonical_snd_ite (settleCtx_canonical (setCtx_canonical h))
    (canonical_snd_ite h (canonical_snd_ite h (settleCtx_canonical (mitred (setCtx_canonical h))))))

theorem cmdDiscard_canonical {n b} (h : Canonical s) : Canonical (cmdDiscard s n b).2 := by
  unfold cmdDiscard
  refine canonical_snd_ite ?_ ?_
  · exact h
  · split
    · exact settleCtx_canonical (dropPipe_canonical (clearSlot_canonical (buildFailed_canonical h)))
    · exact settleCtx_canonical (dropPipe_canonical (clearSlot_canonical (buildFailed_canonical h)))
    · exact settleCtx_canonical (dropPipe_canonical (clearSlot_canonical h))
    · exact settleCtx_canonical (retireSlot_canonical h)
    · exact h

theorem cmdRepair_canonical {n b source copy d} (h : Canonical s) : Canonical (cmdRepair s n b source copy d).2 := by
  unfold cmdRepair
  refine canonical_snd_ite ?_ ?_
  · exact h
  · refine canonical_snd_ite ?_ ?_
    · exact h
    · refine canonical_snd_ite ?_ ?_
      · exact h
      · dsimp only
        split
        · exact canonical_ite (copyLib_canonical (modSlot_canonical h)) (modSlot_canonical h)
        · exact modSlot_canonical h

theorem cmdAbandon_canonical {model stage copy} (h : Canonical s) : Canonical (cmdAbandon s model stage copy).2 :=
  canonical_snd_ite h (settleAll_canonical (State.raise_canonical (canonical_of_eq (canonical_foldl (fun _ _ k0 => by
    split
    · exact abortTask_canonical k0
    · exact endRequest_canonical k0) h) rfl rfl)))

theorem cmdStore_canonical {source model stage copy d} (h : Canonical s) : Canonical
    (cmdStore s source model stage copy d).2 :=
  canonical_snd_ite h (canonical_snd_ite h (canonical_snd_ite h (canonical_snd_ite h h)))

theorem cmdUnstore_canonical {model stage copy} (h : Canonical s) : Canonical (cmdUnstore s model stage copy).2 :=
  canonical_snd_ite h h

theorem mapAdopted_canonical {n} (h : Canonical s) : Canonical (mapAdopted s n) :=
  canonical_foldl (fun _ _ => endRequest_canonical) (canonical_foldl (fun _ _ => awaitAdmission_canonical) h)

theorem cmdRegister_canonical {n model stage} (h : Canonical s) : Canonical (cmdRegister s n model stage).2 :=
  canonical_snd_ite h (mapAdopted_canonical (saveReg_canonical (setCtx_canonical h)))

theorem ctxRefused_canonical {op} (h : Canonical s) : Canonical (ctxRefused s op) :=
  State.setNum_canonical (canonical_ite h h)

theorem ctxCommand_canonical {op n b source copy} (h : Canonical s) :
    Canonical (ctxCommand s op n b source copy).2 := by
  unfold ctxCommand
  extract_lets d t
  have ht : Canonical t := canonical_ite h h
  clear_value t
  refine State.setNum_canonical (canonical_snd_ite ht (canonical_snd_ite ht (canonical_snd_ite ht ?_)))
  split
  · exact cmdRegister_canonical ht
  · exact cmdDeregister_canonical ht
  · exact cmdBuild_canonical ht
  · exact cmdSwitch_canonical ht
  · exact cmdDiscard_canonical ht
  · exact cmdRepair_canonical ht
  · exact cmdAbandon_canonical ht
  · exact cmdStore_canonical ht
  · exact cmdUnstore_canonical ht

end Sys2Proof.Machine
end

section
/-! PROOFS. The canonical form is kept, file by file of the model: Machine/Engine.lean to Machine/MemRows.lean. -/

namespace Sys2Proof.Machine

variable {s : State}


/-! ### `Machine/Engine.lean` -/

theorem execCommandEnqueue_canonical {e prio w} (h : Canonical s) : CanonicalNext (execCommandEnqueue e prio w s) :=
    by
  unfold execCommandEnqueue
  refine canonicalNext_ite ?_ ?_
  · exact canonicalNext_next h
  · split
    · exact canonicalNext_next h
    · exact canonicalNext_next (modEngine_canonical h)

theorem execBind_canonical {e prio} (h : Canonical s) : CanonicalNext (execBind e prio s) := by
  unfold execBind
  refine canonicalNext_ite ?_ ?_
  · exact canonicalNext_next h
  · split
    · exact canonicalNext_next h
    · exact canonicalNext_ite (canonicalNext_next (runHead_canonical h fun _ _ => canonicalJudge_wait h))
        (canonicalNext_ite (canonicalNext_next (settleEngine_canonical (malformed_canonical h)))
          (canonicalNext_next (settleEngine_canonical (popCmd_canonical (modQueue_canonical h)))))

theorem touchCache_canonical {n place} (h : Canonical s) : Canonical (touchCache s n place) := by
  unfold touchCache
  dsimp only
  split
  · exact State.inc_canonical h
  · exact h

theorem shelfAbort_canonical {f prio task address} (h : Canonical s) : Canonical (shelfAbort s f prio task address) :=
  dropTask_canonical (abortTask_canonical (noteShelfBad_canonical h))

theorem preloadBody_canonical {f prio w b} (h : Canonical s) : CanonicalJudge (preloadBody f prio s w b) := by
  unfold preloadBody
  refine canonicalJudge_ite ?_ ?_
  · exact canonicalJudge_bad
  · refine canonicalJudge_ite ?_ ?_
    · exact canonicalJudge_wait (markWait_canonical h)
    · refine canonicalJudge_ite ?_ ?_
      · dsimp only
        split
        next t0 _ e1 =>
          have k2 := canonical_of_fst_eq e1 (checkRead_canonical h)
          exact canonicalJudge_done (shelfAbort_canonical k2)
        next t3 e4 =>
          have k5 := canonical_of_fst_eq e4 (checkRead_canonical h)
          exact canonicalJudge_done (takeShadow_canonical (touchCache_canonical (popCmd_canonical k5)))
      · split
        · exact canonicalJudge_wait (markWait_canonical h)
        · refine canonicalJudge_ite ?_ ?_
          · exact canonicalJudge_bad
          · refine canonicalJudge_ite ?_ ?_
            · exact canonicalJudge_bad
            · split
              next t6 _ e7 =>
                have k8 := canonical_of_fst_eq e7 (checkItem_canonical h)
                exact canonicalJudge_done (readAbort_canonical k8)
              next t9 e10 =>
                have k11 := canonical_of_fst_eq e10 (checkItem_canonical h)
                exact canonicalJudge_done (takeShadow_canonical (popQueue_canonical (popCmd_canonical k11)))

theorem execPreload_canonical {f prio} (h : Canonical s) : CanonicalNext (execPreload f prio s) :=
  canonicalNext_next (runHead_canonical h fun _ _ => preloadBody_canonical h)

theorem wantFlip_canonical {f prio loaded} (h : Canonical s) : Canonical (wantFlip s f prio loaded) :=
  canonical_ite (preempt_canonical (modFacet_canonical h)) (modFacet_canonical h)

theorem recallPlane_canonical {f prio mine} (h : Canonical s) : Canonical (recallPlane s f prio mine) := by
  unfold recallPlane
  refine canonical_ite ?_ ?_
  · exact h
  · split
    · exact canonical_ite (takeShadow_canonical h) (reloadShadow_canonical h)
    · exact reloadShadow_canonical h

theorem flipBody_canonical {f prio w x} (h : Canonical s) : CanonicalJudge (flipBody f prio s w x) := by
  unfold flipBody
  refine canonicalJudge_ite ?_ ?_
  · exact canonicalJudge_bad
  · dsimp only
    split
    · exact canonicalJudge_ite (canonicalJudge_wait (wantFlip_canonical (canonical_ite h (markWait_canonical h))))
        (canonicalJudge_ite (canonicalJudge_wait (markWait_canonical h)) canonicalJudge_bad)
    · exact canonicalJudge_ite (canonicalJudge_wait (recallPlane_canonical (markWait_canonical h))) canonicalJudge_bad

theorem execFlip_canonical {f prio} (h : Canonical s) : CanonicalNext (execFlip f prio s) :=
  canonicalNext_next (runHead_canonical h fun _ _ => flipBody_canonical h)

theorem flipZeroBody_canonical {f prio w b} (h : Canonical s) : CanonicalJudge (flipZeroBody f prio s w b) :=
  canonicalJudge_ite canonicalJudge_bad
    (canonicalJudge_ite (canonicalJudge_wait (wantFlip_canonical (canonical_ite h (markWait_canonical h))))
      (canonicalJudge_ite (canonicalJudge_wait (markWait_canonical h))
        (canonicalJudge_wait (wantFlip_canonical (takeShadow_canonical (markWait_canonical h))))))

theorem execFlipZero_canonical {f prio} (h : Canonical s) : CanonicalNext (execFlipZero f prio s) :=
  canonicalNext_next (runHead_canonical h fun _ _ => flipZeroBody_canonical h)

theorem startRun_canonical {f prio w b p i} (h : Canonical s) : Canonical (startRun s f prio w b p i) :=
  canonical_ite (preempt_canonical (modFacet_canonical (modQueue_canonical (touch_canonical h))))
    (fillWave_canonical (modFacet_canonical (modQueue_canonical (touch_canonical h))))

theorem passBody_canonical {f prio w b} (h : Canonical s) : CanonicalJudge (passBody f prio s w b) := by
  unfold passBody
  refine canonicalJudge_ite ?_ ?_
  · exact canonicalJudge_wait h
  · refine canonicalJudge_ite ?_ ?_
    · exact canonicalJudge_bad
    · dsimp only
      split
      · exact canonicalJudge_ite (canonicalJudge_wait (recallPlane_canonical (markWait_canonical h)))
          canonicalJudge_bad
      · refine canonicalJudge_ite ?_ ?_
        · exact canonicalJudge_bad
        · split
          · exact canonicalJudge_wait (markWait_canonical h)
          · refine canonicalJudge_ite ?_ ?_
            · exact canonicalJudge_bad
            · refine canonicalJudge_ite ?_ ?_
              · exact canonicalJudge_bad
              · refine canonicalJudge_ite ?_ ?_
                · exact canonicalJudge_wait (markWait_canonical h)
                · refine canonicalJudge_ite ?_ ?_
                  · exact canonicalJudge_wait (wantFlip_canonical (canonical_ite h (markWait_canonical h)))
                  · refine canonicalJudge_ite ?_ ?_
                    · exact canonicalJudge_wait (markWait_canonical h)
                    · split
                      next t0 _ e1 =>
                        have k2 := canonical_of_fst_eq e1 (checkItem_canonical h)
                        exact canonicalJudge_done (readAbort_canonical k2)
                      next t3 e4 =>
                        have k5 := canonical_of_fst_eq e4 (checkItem_canonical h)
                        exact canonicalJudge_done (startRun_canonical k5)

theorem execPass_canonical {f prio} (h : Canonical s) : CanonicalNext (execPass f prio s) :=
  canonicalNext_next (runHead_canonical h fun _ _ => passBody_canonical h)

theorem treeBody_canonical {f prio w b} (h : Canonical s) : CanonicalJudge (treeBody f prio s w b) :=
  canonicalJudge_ite canonicalJudge_bad (canonicalJudge_done (modFacet_canonical (popCmd_canonical h)))

theorem execTree_canonical {f prio} (h : Canonical s) : CanonicalNext (execTree f prio s) :=
  canonicalNext_next (runHead_canonical h fun _ _ => treeBody_canonical h)

theorem headSlotError_canonical {f prio b rowTile slot rule} (h : Canonical s) : Canonical
    (headSlotError s f prio b rowTile slot rule) :=
  dropTask_canonical (slotError_canonical h)

theorem mergeBody_canonical {f prio w b} (h : Canonical s) : CanonicalJudge (mergeBody f prio s w b) := by
  unfold mergeBody
  refine canonicalJudge_ite ?_ ?_
  · exact canonicalJudge_bad
  · refine canonicalJudge_ite ?_ ?_
    · exact canonicalJudge_wait (markWait_canonical h)
    · refine canonicalJudge_ite ?_ ?_
      · exact canonicalJudge_bad
      · split
        · exact canonicalJudge_done (headSlotError_canonical h)
        · exact canonicalJudge_done (modFacet_canonical (takeCmd_canonical h))

theorem execMerge_canonical {f prio} (h : Canonical s) : CanonicalNext (execMerge f prio s) :=
  canonicalNext_next (runHead_canonical h fun _ _ => mergeBody_canonical h)

theorem reduceJudge_canonical {f prio w b role go} (h : Canonical s) (hgo : ∀ r, CanonicalJudge (go r)) :
    CanonicalJudge (reduceJudge f prio s w b role go) := by
  unfold reduceJudge
  refine canonicalJudge_ite ?_ ?_
  · exact canonicalJudge_bad
  · dsimp only
    split
    · exact canonicalJudge_bad
    · refine canonicalJudge_ite ?_ ?_
      · exact canonicalJudge_bad
      · refine canonicalJudge_ite ?_ ?_
        · exact canonicalJudge_wait (markWait_canonical h)
        · refine canonicalJudge_ite ?_ ?_
          · exact canonicalJudge_bad
          · split
            · exact canonicalJudge_done (headSlotError_canonical h)
            · exact hgo _

theorem startReduce_canonical {f prio w b peer got} (h : Canonical s) : Canonical
    (startReduce s f prio w b peer got) :=
  modFacet_canonical (takeCmd_canonical h)

theorem reduceSendBody_canonical {f prio w b} (h : Canonical s) : CanonicalJudge (reduceSendBody f prio s w b) :=
  reduceJudge_canonical h fun _ => canonicalJudge_ite (canonicalJudge_done (startReduce_canonical h))
    (canonicalJudge_ite (canonicalJudge_done (startReduce_canonical (modGang_canonical h)))
      (canonicalJudge_wait (markWait_canonical h)))

theorem execReduceSend_canonical {f prio} (h : Canonical s) : CanonicalNext (execReduceSend f prio s) :=
  canonicalNext_next (runHead_canonical h fun _ _ => reduceSendBody_canonical h)

theorem takeGrant_canonical {task level} (h : Canonical s) : Canonical (takeGrant s task level) := modGang_canonical h

theorem grantOnce_canonical {task level ord scale} (h : Canonical s) : Canonical (grantOnce s task level ord scale) :=
    by
  unfold grantOnce
  split
  · exact h
  · refine canonical_ite ?_ ?_
    · exact h
    · refine canonical_ite ?_ ?_
      · split
        · exact takeGrant_canonical (modGang_canonical h)
        · exact modGang_canonical h
      · exact sendPart_canonical (modGang_canonical h)

theorem grantSpent_canonical {task level scale} (h : Canonical s) : Canonical (grantSpent s task level scale) :=
  modGang_canonical h

theorem reduceGatherBody_canonical {f prio w b} (h : Canonical s) : CanonicalJudge (reduceGatherBody f prio s w b) := by
  refine reduceJudge_canonical h fun r => ?_
  extract_lets _ _ _ t
  have ht : Canonical t := canonical_ite h (grantOnce_canonical h)
  clear_value t
  split
  · exact canonicalJudge_wait (markWait_canonical ht)
  · refine canonicalJudge_ite (canonicalJudge_done (startReduce_canonical ht)) (canonicalJudge_ite ?_ (canonicalJudge_ite ?_ ?_))
    · exact canonicalJudge_done (startReduce_canonical (grantSpent_canonical ht))
    · exact canonicalJudge_wait (markWait_canonical ht)
    · exact canonicalJudge_done (headSlotError_canonical ht)

theorem execReduceGather_canonical {f prio} (h : Canonical s) : CanonicalNext (execReduceGather f prio s) :=
  canonicalNext_next (runHead_canonical h fun _ _ => reduceGatherBody_canonical h)

theorem takeIns_canonical {f task ins} (h : Canonical s) : Canonical (takeIns s f task ins) :=
  canonical_foldl (fun _ _ k0 => modFacet_canonical (canonical_ite k0 (grantSpent_canonical k0))) h

theorem noteDrainWait_canonical {f prio} (h : Canonical s) : Canonical (noteDrainWait s f prio) :=
  modQueue_canonical h

theorem drainBody_canonical {f prio w b} (h : Canonical s) : CanonicalJudge (drainBody f prio s w b) := by
  unfold drainBody
  refine canonicalJudge_ite ?_ ?_
  · exact canonicalJudge_bad
  · refine canonicalJudge_ite ?_ ?_
    · exact canonicalJudge_bad
    · refine canonicalJudge_ite ?_ ?_
      · exact canonicalJudge_bad
      · refine canonicalJudge_ite ?_ ?_
        · exact canonicalJudge_wait (markWait_canonical h)
        · extract_lets +onlyGivenNames t0
          have k1 : Canonical t0 := noteDrainWait_canonical h
          refine canonicalJudge_ite ?_ ?_
          · exact canonicalJudge_bad
          · split
            · exact canonicalJudge_done (headSlotError_canonical k1)
            · refine canonicalJudge_ite ?_ ?_
              · exact canonicalJudge_done (headSlotError_canonical k1)
              · extract_lets +onlyGivenNames _ _ t3
                have k4 : Canonical t3 := canonical_foldl (fun _ _ k2 => canonical_ite k2 (grantOnce_canonical k2)) k1
                clear_value t3
                refine canonicalJudge_ite ?_ ?_
                · exact canonicalJudge_wait (markWait_canonical k4)
                · extract_lets t5 t7
                  have k6 : Canonical t5 := canonical_ite (modGang_canonical k4) k4
                  have k8 : Canonical t7 := State.raiseTo_canonical k6
                  exact canonicalJudge_done (modFacet_canonical (takeCmd_canonical (takeIns_canonical k8)))

theorem execDrain_canonical {f prio} (h : Canonical s) : CanonicalNext (execDrain f prio s) :=
  canonicalNext_next (runHead_canonical h fun _ _ => drainBody_canonical h)

theorem execDrainMax_canonical {f prio} (h : Canonical s) : CanonicalNext (execDrainMax f prio s) :=
  canonicalNext_next (runHead_canonical h fun _ _ => drainBody_canonical h)

theorem execDrainMin_canonical {f prio} (h : Canonical s) : CanonicalNext (execDrainMin f prio s) :=
  canonicalNext_next (runHead_canonical h fun _ _ => drainBody_canonical h)

theorem fenceBody_canonical {e prio w b} (h : Canonical s) : CanonicalJudge (fenceBody e prio s w b) := by
  unfold fenceBody
  refine canonicalJudge_ite ?_ ?_
  · exact canonicalJudge_wait (markWait_canonical h)
  · refine canonicalJudge_ite ?_ ?_
    · exact canonicalJudge_done (popCmd_canonical h)
    · dsimp only
      split
      · exact canonicalJudge_ite (canonicalJudge_done
          (recertify_canonical (canonical_of_eq (popCmd_canonical h) rfl rfl)))
            (canonicalJudge_done (canonical_of_eq (popCmd_canonical h) rfl rfl))
      · exact canonicalJudge_done (canonical_of_eq (popCmd_canonical h) rfl rfl)

theorem execFence_canonical {e prio} (h : Canonical s) : CanonicalNext (execFence e prio s) :=
  canonicalNext_next (runHead_canonical h fun _ _ => fenceBody_canonical h)

theorem execFenceRelease_canonical {e prio} (h : Canonical s) : CanonicalNext (execFenceRelease e prio s) :=
  canonicalNext_next (runHead_canonical h fun _ _ => fenceBody_canonical h)

theorem timeWaitBody_canonical {e prio w b} (h : Canonical s) : CanonicalJudge (timeWaitBody e prio s w b) := by
  unfold timeWaitBody
  split
  · exact canonicalJudge_bad
  · refine canonicalJudge_ite ?_ ?_
    · exact canonicalJudge_wait h
    · refine canonicalJudge_ite ?_ ?_
      · exact canonicalJudge_wait (markWait_canonical h)
      · refine canonicalJudge_ite ?_ ?_
        · exact canonicalJudge_done (popCmd_canonical h)
        · extract_lets t0
          have k1 : Canonical t0 := canonical_ite (State.inc_canonical h) h
          exact canonicalJudge_ite (canonicalJudge_done (popCmd_canonical k1))
            (canonicalJudge_done (dropTask_canonical (abortTask_canonical (State.raise_canonical k1))))

theorem execTimeWait_canonical {e prio} (h : Canonical s) : CanonicalNext (execTimeWait e prio s) :=
  canonicalNext_next (runHead_canonical h fun _ _ => timeWaitBody_canonical h)

theorem execTimeWaitRelease_canonical {e prio} (h : Canonical s) : CanonicalNext (execTimeWaitRelease e prio s) :=
  canonicalNext_next (runHead_canonical h fun _ _ => timeWaitBody_canonical h)

theorem execFillPreemption_canonical {f} (h : Canonical s) : CanonicalNext (execFillPreemption f s) :=
  canonicalNext_ite (canonicalNext_next (settleRuns_canonical (preempt_canonical h))) (canonicalNext_next h)

/-! ### `Machine/Facets.lean` -/

theorem dropBoth_canonical {f n} (h : Canonical s) : Canonical (dropBoth s f n) :=
  dropTask_canonical (dropTask_canonical h)

theorem refusePlane_canonical {f p} (h : Canonical s) : Canonical (refusePlane s f p) :=
  dropBoth_canonical (abortTask_canonical
    (releaseHold_canonical (modFacet_canonical (facetEvent_canonical (State.inc_canonical h)))))

theorem execShadowLoadComplete_canonical {f} (h : Canonical s) : CanonicalNext (execShadowLoadComplete f s) := by
  unfold execShadowLoadComplete
  extract_lets +onlyGivenNames _
  split
  · exact canonicalNext_next h
  · refine canonicalNext_ite ?_ ?_
    · exact canonicalNext_next h
    · refine canonicalNext_ite ?_ ?_
      · extract_lets t0
        have k1 : Canonical t0 := modFacet_canonical (State.inc_canonical h)
        exact canonicalNext_next (settleRuns_canonical k1)
      · exact canonicalNext_next (settleRuns_canonical (refusePlane_canonical h))

theorem popFlip_canonical {f ask p} (h : Canonical s) : Canonical (popFlip s f ask p) := by
  unfold popFlip
  split
  · exact canonical_ite (popCmd_canonical h) h
  · exact h

theorem execPlaneFlip_canonical {f} (h : Canonical s) : CanonicalNext (execPlaneFlip f s) := by
  unfold execPlaneFlip
  refine canonicalNext_ite ?_ ?_
  · exact canonicalNext_next (finishRuns_canonical h)
  · split
    · exact canonicalNext_next (finishRuns_canonical h)
    · exact canonicalNext_next (settleRuns_canonical
        (canonical_ite (flipIn_canonical (finishRuns_canonical h))
          (popFlip_canonical (flipIn_canonical (finishRuns_canonical h)))))

theorem spareCheck_canonical {f frame errors} (h : Canonical s) : Canonical (spareCheck s f frame errors) :=
  canonical_foldl (fun _ _ k0 => canonical_ite k0
    (canonical_ite (sparesLow_canonical (saveRowMap_canonical (modFacet_canonical k0))) (modFacet_canonical k0))) h

theorem failedVerdict_canonical {f y v bad} (h : Canonical s) : Canonical (failedVerdict s f y v bad) := by
  unfold failedVerdict
  extract_lets t0
  have k1 : Canonical t0 := State.faultRetried_canonical (State.setNum_canonical h)
  exact canonical_ite (degradeFacet_canonical k1)
    (canonical_ite (dropBoth_canonical (abortTask_canonical k1))
      (canonical_ite (chargeFacet_canonical (State.inc_canonical (modFacet_canonical k1))) (modFacet_canonical k1)))

theorem execPassVerdict_canonical {f errors} (h : Canonical s) : CanonicalNext (execPassVerdict f errors s) := by
  unfold execPassVerdict
  extract_lets +onlyGivenNames _
  split
  · exact canonicalNext_next h
  · extract_lets +onlyGivenNames _ _ _ _ t0
    have k1 : Canonical t0 := spareCheck_canonical (State.add_canonical (modFacet_canonical h))
    refine canonicalNext_ite ?_ ?_
    · extract_lets _ t2
      have k3 : Canonical t2 := canonical_ite (State.inc_canonical (modFacet_canonical k1)) (modFacet_canonical k1)
      exact canonicalNext_next (settleRuns_canonical k3)
    · exact canonicalNext_next (settleRuns_canonical (failedVerdict_canonical k1))

theorem noteTransient_canonical {f r y} (h : Canonical s) : Canonical (noteTransient s f r y) := by
  unfold noteTransient
  split
  · exact h
  · exact modFacet_canonical (facetEvent_canonical h)

theorem retireRow_canonical {f p synd at_} (h : Canonical s) : Canonical (retireRow s f p synd at_) := by
  unfold retireRow
  refine canonical_ite ?_ ?_
  · exact modFacet_canonical h
  · split
    · exact degradeFacet_canonical h
    · extract_lets t0 t2 t4
      have k1 : Canonical t0 := openRow_canonical (modFacet_canonical h)
      have k3 : Canonical t2 := State.faultDegraded_canonical (State.addSaved_canonical (saveRowMap_canonical k1))
      have k5 : Canonical t4 := canonical_ite (facetEvent_canonical k3) k3
      exact sparesLow_canonical k5

theorem swapRowsOf_canonical {f ps y} (h : Canonical s) : Canonical (swapRowsOf s f ps y) :=
  canonical_ite h (canonical_ite (canonical_foldl (fun _ _ => retireRow_canonical) h)
    (modFacet_canonical (canonical_foldl (fun _ _ => retireRow_canonical) h)))

theorem actOnSuspects_canonical {f y} (h : Canonical s) : Canonical (actOnSuspects s f y) := by
  unfold actOnSuspects
  refine canonical_ite ?_ ?_
  · exact degradeFacet_canonical (facetEvent_canonical h)
  · refine canonical_ite ?_ ?_
    · extract_lets _ _ t0 t2
      have k1 : Canonical t0 := modFacet_canonical (facetEvent_canonical h)
      have k3 : Canonical t2 := dropBoth_canonical (abortTask_canonical k1)
      exact canonical_ite (degradeFacet_canonical k3) (startRelockAt_canonical k3)
    · refine canonical_ite ?_ ?_
      · exact canonical_ite (State.inc_canonical (modFacet_canonical h)) (modFacet_canonical h)
      · extract_lets t5
        have k6 : Canonical t5 := canonical_foldl (fun _ _ => noteTransient_canonical) h
        clear_value t5
        exact canonical_ite (swapRowsOf_canonical k6) k6

theorem execSweepComplete_canonical {f} (h : Canonical s) : CanonicalNext (execSweepComplete f s) := by
  unfold execSweepComplete
  extract_lets +onlyGivenNames _
  split
  · exact canonicalNext_next h
  · refine canonicalNext_ite ?_ ?_
    · exact canonicalNext_next h
    · extract_lets _ _ t0
      have k1 : Canonical t0 := State.faultRetried_canonical
        (State.inc_canonical (State.inc_canonical (modFacet_canonical h)))
      exact canonicalNext_next (settleRuns_canonical (actOnSuspects_canonical (chargeFacet_canonical k1)))

theorem execConfirmationVerdict_canonical {f errors} (h : Canonical s) : CanonicalNext
    (execConfirmationVerdict f errors s) := by
  unfold execConfirmationVerdict
  dsimp only
  split
  · exact canonicalNext_next h
  · exact canonicalNext_ite (canonicalNext_next h)
      (canonicalNext_next (settleRuns_canonical
        (swapRowsOf_canonical (canonical_foldl (fun _ _ => noteTransient_canonical) (modFacet_canonical h)))))

theorem execSwapReloadComplete_canonical {f} (h : Canonical s) : CanonicalNext (execSwapReloadComplete f s) :=
  canonicalNext_ite (canonicalNext_next h)
    (canonicalNext_next (settleRuns_canonical
      (lockCheck_canonical (reloadShadow_canonical (State.inc_canonical (modFacet_canonical h))))))

theorem readBoth_canonical {f task row rows lo n go} (h : Canonical s) (hgo : ∀ t, Canonical t → Canonical (go t)) :
    Canonical (readBoth s f task row rows lo n go) := by
  unfold readBoth
  split
  next t0 _ e1 =>
    have k2 := canonical_of_fst_eq e1 (checkRows_canonical h)
    exact dropBoth_canonical (readAbort_canonical k2)
  next t3 e4 =>
    have k5 := canonical_of_fst_eq e4 (checkRows_canonical h)
    exact hgo _ k5

theorem execCodeWritten_canonical {f} (h : Canonical s) : CanonicalNext (execCodeWritten f s) := by
  unfold execCodeWritten
  dsimp only
  split
  · exact canonicalNext_next h
  · exact canonicalNext_ite (canonicalNext_next (settleRuns_canonical (modFacet_canonical h)))
      (canonicalNext_next (settleRuns_canonical
        (canonical_ite (clearAcc_canonical (modFacet_canonical (modFacet_canonical h)))
          (readBoth_canonical (modFacet_canonical h) (fun _ k0 => clearAcc_canonical (modFacet_canonical k0))))))

theorem execMergeComplete_canonical {f} (h : Canonical s) : CanonicalNext (execMergeComplete f s) := by
  unfold execMergeComplete
  extract_lets +onlyGivenNames _
  split
  · exact canonicalNext_next h
  · extract_lets +onlyGivenNames _ _
    split
    · extract_lets t0
      have k1 : Canonical t0 := slotError_canonical (modFacet_canonical h)
      exact canonicalNext_next (settleRuns_canonical (dropBoth_canonical k1))
    · exact canonicalNext_next (settleRuns_canonical
        (readBoth_canonical (modFacet_canonical h)
          (fun _ k2 => readBoth_canonical k2
            (fun _ k3 => clearAcc_canonical
              (canonical_ite (modFacet_canonical k3) (countCmd_canonical (modFacet_canonical k3)))))))

theorem takeElems_canonical {q} (h : Canonical s) : Canonical (takeElems s q) := by
  unfold takeElems
  split
  · exact h
  · exact modFacet_canonical h

theorem takeReduce_canonical {t src level mode payload} (h : Canonical s) : Canonical
    (takeReduce s t src level mode payload) := by
  unfold takeReduce
  split
  · exact h
  · exact touch_canonical (takeElems_canonical h)

theorem sendElems_canonical {task ord level mode width n vs} (h : Canonical s) :
    Canonical (sendElems s task ord level mode width n vs) := by
  induction n generalizing s vs with
  | zero => exact h
  | succ n ih =>
    unfold sendElems
    refine canonical_ite h (ih ?_)
    split
    · split
      · exact takeReduce_canonical h
      · exact h
    · exact State.add_canonical (sendPart_canonical h)

theorem deliverSend_canonical {f j} (h : Canonical s) : CanonicalOpt (deliverSend s f j) :=
  canonicalOpt_ite (canonicalOpt_map (fun _ => modFacet_canonical (modFacet_canonical h)))
    (canonicalOpt_some (modFacet_canonical (sendElems_canonical h)))

theorem finishReduce_canonical {f j} (h : Canonical s) : Canonical (finishReduce s f j) := by
  unfold finishReduce
  dsimp only
  split
  · exact countCmd_canonical (modFacet_canonical (clearAcc_canonical (modFacet_canonical h)))
  · exact canonical_getD (canonicalOpt_mapSt (deliverSend_canonical h)
      (fun _ k => countCmd_canonical (modFacet_canonical k))) h

theorem execReduceDelivered_canonical {f} (h : Canonical s) : CanonicalNext (execReduceDelivered f s) := by
  unfold execReduceDelivered
  dsimp only
  split
  · exact canonicalNext_next h
  · exact canonicalNext_next (settleRuns_canonical (readBoth_canonical h (fun _ k0 => finishReduce_canonical k0)))

theorem releaseTile_canonical {f d tile} (h : Canonical s) : CanonicalOptFst (releaseTile s f d tile) := by
  unfold releaseTile
  split
  · exact canonicalOptFst_none
  · exact canonicalOptFst_mapFst (takeBuf_canonical h) (fun _ k => finishBuf_canonical k)

theorem waitTile_canonical {f d} (h : Canonical s) : Canonical (waitTile s f d) := by
  unfold waitTile
  split
  · exact h
  · exact starve_canonical h

theorem drainEvent_canonical {f code d last} (h : Canonical s) : Canonical (drainEvent s f code d last) :=
  State.raise_canonical h

theorem endDrain_canonical {f d} (h : Canonical s) : Canonical (endDrain s f d) :=
  modFacet_canonical (countCmd_canonical h)

theorem writeRepeat_canonical {t r scale} (h : Canonical s) : Canonical (writeRepeat s t r scale) :=
  canonical_foldl (fun _ _ k0 => canonical_ite k0 (modEngine_canonical k0)) h

theorem repeatPart_canonical {t scale rowTile slot vectors} (h : Canonical s) : Canonical
    (repeatPart s t scale rowTile slot vectors) := by
  unfold repeatPart
  split
  · exact writeRepeat_canonical h
  · exact h

theorem saturate_canonical {f d step} (h : Canonical s) : Canonical (saturate s f d step) := by
  unfold saturate
  refine canonical_ite ?_ ?_
  · extract_lets _ _ _ t0 t2 t5
    have k1 : Canonical t0 := drainEvent_canonical (State.inc_canonical (modFacet_canonical h))
    have k3 : Canonical t2 := by
      unfold t2
      split
      · exact k1
      · split
        · exact k1
        · exact writeRepeat_canonical k1
    have k6 : Canonical t5 := canonical_foldl (fun _ _ k4 => canonical_ite k4 (grantOnce_canonical k4)) k3
    clear_value t5
    split
    · exact canonical_foldl (fun _ _ k7 => by
    refine canonical_ite ?_ ?_
    · split
      · exact repeatPart_canonical k7
      · exact k7
    · exact sendPart_canonical k7) k6
    · exact k6
  · extract_lets t8
    have k9 : Canonical t8 := drainEvent_canonical (State.inc_canonical h)
    exact dropBoth_canonical (abortTask_canonical k9)

theorem tileReleased_canonical {f d elems inexact} (h : Canonical s) : Canonical (tileReleased s f d elems inexact) :=
    by
  unfold tileReleased
  extract_lets t0 t2
  have k1 : Canonical t0 := State.add_canonical (State.inc_canonical h)
  have k3 : Canonical t2 := modTask_canonical (endDrain_canonical k1)
  exact canonical_ite k3 (canonical_ite (drainEvent_canonical (State.inc_canonical k3)) (State.inc_canonical k3))

theorem sendTile_canonical {f d tile elems inexact} (h : Canonical s) : Canonical
    (sendTile s f d tile elems inexact) := by
  unfold sendTile
  split
  · exact waitTile_canonical h
  next t0 _ e1 =>
    have k2 := (releaseTile_canonical h).get e1
    exact canonical_ite (tileReleased_canonical k2) (modFacet_canonical k2)

theorem drainSum_canonical {f d} (h : Canonical s) : Canonical (drainSum s f d) :=
  canonical_ite (tileReleased_canonical h) (canonical_ite (saturate_canonical h) (sendTile_canonical h))

theorem sendWinners_canonical {f d mode tag ws} (h : Canonical s) : CanonicalOpt (sendWinners s f d mode tag ws) := by
  unfold sendWinners
  dsimp only
  split
  · exact canonicalOpt_none
  · exact canonicalOpt_ite (canonicalOpt_map (fun _ => modFacet_canonical h))
      (canonicalOpt_some (sendElems_canonical h))

theorem drainWinners_canonical {f d} (h : Canonical s) : Canonical (drainWinners s f d) := by
  unfold drainWinners
  refine canonical_ite ?_ ?_
  · split
    next t0 e1 =>
      have k2 := (sendWinners_canonical h).get e1
      exact endDrain_canonical k2
    · exact h
  · exact canonical_ite (tileReleased_canonical h) (canonical_ite (saturate_canonical h) (sendTile_canonical h))

theorem takeLate_canonical {f d} (h : Canonical s) : Canonical (takeLate s f d).1 :=
  canonical_fst_ite h (takeIns_canonical (modFacet_canonical h))

theorem finishDrain_canonical {f d} (h : Canonical s) : Canonical (finishDrain s f d) :=
  canonical_ite (drainSum_canonical h) (drainWinners_canonical h)

theorem execDrainComplete_canonical {f} (h : Canonical s) : CanonicalNext (execDrainComplete f s) := by
  unfold execDrainComplete
  dsimp only
  split
  · exact canonicalNext_next h
  · refine canonicalNext_ite ?_ ?_
    · exact canonicalNext_next (settleRuns_canonical (finishDrain_canonical h))
    · exact canonicalNext_next (settleRuns_canonical
        (readBoth_canonical (takeLate_canonical h) (fun _ k0 => finishDrain_canonical k0)))

theorem takePeek_canonical {v} (h : Canonical s) : Canonical (takePeek s v) :=
  State.inc_canonical (State.setBlob_canonical h)

/-! ### `Machine/Locking.lean` -/

theorem resumeFacet_canonical {f} (h : Canonical s) : Canonical (resumeFacet s f) := settleRuns_canonical h

theorem loseLock_canonical {f row lane ident line} (h : Canonical s) : Canonical (loseLock s f row lane ident line) :=
  canonical_ite (startRelock_canonical (modFacet_canonical h)) (modFacet_canonical h)

theorem execLossOfLock_canonical {f ring seen} (h : Canonical s) : CanonicalNext (execLossOfLock f ring seen s) :=
  canonicalNext_ite (canonicalNext_next h) (canonicalNext_next (loseLock_canonical (setOut_canonical h)))

theorem wrongLine_canonical {f row lane line} (h : Canonical s) : Canonical (wrongLine s f row lane line) :=
  State.raise_canonical (State.inc_canonical h)

theorem recoverRing_canonical {f row lane ident line} (h : Canonical s) : Canonical
    (recoverRing s f row lane ident line) := by
  unfold recoverRing
  refine canonical_ite ?_ ?_
  · exact loseLock_canonical h
  · extract_lets t0
    have k1 : Canonical t0 := canonical_ite (wrongLine_canonical h) h
    exact canonical_ite (stopFacet_canonical (modFacet_canonical k1)) (modFacet_canonical k1)

theorem confirmRing_canonical {f row lane code} (h : Canonical s) : Canonical (confirmRing s f row lane code) := by
  unfold confirmRing
  refine canonical_ite ?_ ?_
  · exact loseLock_canonical (setOut_canonical h)
  · refine canonical_ite ?_ ?_
    · exact modFacet_canonical (setOut_canonical h)
    · dsimp only
      exact resumeFacet_canonical (chargeFacet_canonical
        (State.drawNat_canonical (modFacet_canonical (setOut_canonical h))))

theorem execIdentityScan_canonical {f row lane seen} (h : Canonical s) : CanonicalNext
    (execIdentityScan f row lane seen s) := by
  unfold execIdentityScan
  refine canonicalNext_ite ?_ ?_
  · exact canonicalNext_next h
  · split
    · exact canonicalNext_next (confirmRing_canonical h)
    · exact canonicalNext_next (recoverRing_canonical h)
    · exact canonicalNext_next (recoverRing_canonical h)

theorem relockFailed_canonical {f step} (h : Canonical s) : Canonical (relockFailed s f step) := by
  unfold relockFailed
  extract_lets +onlyGivenNames _ _
  split
  · exact State.inc_canonical h
  · refine canonical_ite ?_ ?_
    · exact settleAllFacets_canonical (degradeFacet_canonical (State.inc_canonical h))
    · extract_lets _ _ t0 t2
      have k1 : Canonical t0 := modFacet_canonical (State.inc_canonical h)
      have k3 : Canonical t2 := canonical_ite (State.raise_canonical k1) k1
      exact canonical_ite (settleAllFacets_canonical (recertify_canonical k3)) k3

theorem lockFacet_canonical {f} (h : Canonical s) : Canonical (lockFacet s f) :=
  resumeFacet_canonical (modFacet_canonical h)

theorem relockDone_canonical {f micros triggers} (h : Canonical s) : Canonical (relockDone s f micros triggers) :=
  settleAllFacets_canonical (chargeFacet_canonical
    (lockFacet_canonical (State.raise_canonical (State.setNum_canonical (State.inc_canonical h)))))

theorem takeCodes_canonical {f codes} (h : Canonical s) : Canonical (takeCodes s f codes) :=
  canonical_foldl (fun _ _ => setOut_canonical) h

theorem loseEnds_canonical {f codes} (h : Canonical s) : Canonical (loseEnds s f codes) :=
  canonical_foldl (fun _ _ k0 => canonical_ite (loseLock_canonical k0) k0) h

theorem execRelockComplete_canonical {f micros rounds found} (h : Canonical s) : CanonicalNext
    (execRelockComplete f micros rounds found s) := by
  unfold execRelockComplete
  extract_lets +onlyGivenNames _
  split
  · exact canonicalNext_next h
  · refine canonicalNext_ite ?_ ?_
    · exact canonicalNext_next h
    · refine canonicalNext_ite ?_ ?_
      · exact canonicalNext_next h
      · extract_lets t1
        have k2 : Canonical t1 := canonical_foldl (fun _ _ => wrongLine_canonical) h
        clear_value t1
        refine canonicalNext_ite ?_ ?_
        · exact canonicalNext_next (relockFailed_canonical k2)
        · refine canonicalNext_ite ?_ ?_
          · dsimp only
            exact canonicalNext_next (relockFailed_canonical (State.drawNat_canonical k2))
          · exact canonicalNext_ite (canonicalNext_next (loseEnds_canonical (takeCodes_canonical k2)))
              (canonicalNext_next (relockDone_canonical (takeCodes_canonical k2)))

theorem retireRows_canonical {f rows} (h : Canonical s) : Canonical (retireRows s f rows) :=
  canonical_foldl (fun _ _ k0 => canonical_ite k0 (retireRow_canonical k0)) h

theorem startFailed_canonical {f step} (h : Canonical s) : Canonical (startFailed s f step) :=
  modFacet_canonical (State.raise_canonical (State.inc_canonical h))

theorem startCheck_canonical {f k codes} (h : Canonical s) : Canonical (startCheck s f k codes) := by
  unfold startCheck
  split
  · dsimp only
    exact relockDone_canonical (State.drawNat_canonical (State.setFacets_canonical h))
  · exact canonical_ite (startFailed_canonical (retireRows_canonical h)) (modFacet_canonical (retireRows_canonical h))
  · exact startFailed_canonical h

theorem inPlaceCheck_canonical {f codes} (h : Canonical s) : Canonical (inPlaceCheck s f codes) := by
  unfold inPlaceCheck
  dsimp only
  split
  · exact resumeFacet_canonical (modFacet_canonical (chargeFacet_canonical h))
  · exact modFacet_canonical (retireRows_canonical h)
  · exact relockFailed_canonical (modFacet_canonical h)

theorem relockCheck_canonical {f k codes} (h : Canonical s) : Canonical (relockCheck s f k codes) := by
  unfold relockCheck
  dsimp only
  split
  · exact modFacet_canonical h
  · exact modFacet_canonical (retireRows_canonical h)
  · exact relockFailed_canonical h

theorem execRowCheckComplete_canonical {f codes} (h : Canonical s) : CanonicalNext (execRowCheckComplete f codes s) :=
    by
  unfold execRowCheckComplete
  dsimp only
  split
  · exact canonicalNext_ite (canonicalNext_next (settleAllFacets_canonical (inPlaceCheck_canonical h)))
      (canonicalNext_next h)
  · exact canonicalNext_ite (canonicalNext_next h)
      (canonicalNext_ite (canonicalNext_next (canonical_ite (startCheck_canonical h) h))
        (canonicalNext_next (relockCheck_canonical h)))

theorem heldFrame_canonical (h : Canonical s) : Canonical (heldFrame s) :=
  canonical_foldl (fun _ _ k0 => canonical_ite k0 (predictRings_canonical (modFacet_canonical k0))) h

theorem setRegion_canonical {f r celsius} (h : Canonical s) : Canonical (setRegion s f r celsius) :=
  noteTemp_canonical (State.setBlob_canonical h)

theorem execThermalStop_canonical {f region celsius} (h : Canonical s) : CanonicalNext
    (execThermalStop f region celsius s) := by
  unfold execThermalStop
  refine canonicalNext_ite ?_ ?_
  · exact canonicalNext_next (setRegion_canonical h)
  · refine canonicalNext_ite ?_ ?_
    · exact canonicalNext_next (setRegion_canonical h)
    · extract_lets t0 t3
      have k1 : Canonical t0 := State.raise_canonical (State.inc_canonical (setRegion_canonical h))
      have k4 : Canonical t3 := canonical_foldl (fun _ _ => freeHeater_canonical) k1
      clear_value t3
      exact canonicalNext_next (startRelock_canonical k4)

theorem execRegionSaturated_canonical {f region} (h : Canonical s) : CanonicalNext (execRegionSaturated f region s) :=
  canonicalNext_next (State.raise_canonical (connectOut_canonical h))

theorem calibrated_canonical {f} (h : Canonical s) : Canonical (calibrated s f) := modFacet_canonical h

theorem execStartupCalibration_canonical {f failed found} (h : Canonical s) : CanonicalNext
    (execStartupCalibration f failed found s) := by
  unfold execStartupCalibration
  extract_lets +onlyGivenNames _
  split
  · exact canonicalNext_next h
  · refine canonicalNext_ite ?_ ?_
    · exact canonicalNext_next h
    · extract_lets +onlyGivenNames _
      split
      · exact canonicalNext_next (startFailed_canonical (takeCodes_canonical h))
      · refine canonicalNext_ite ?_ ?_
        · exact canonicalNext_next (loseEnds_canonical (takeCodes_canonical h))
        · extract_lets t0 t2
          have k1 : Canonical t0 := modFacet_canonical (takeCodes_canonical h)
          have k3 : Canonical t2 := calibrated_canonical (retireRows_canonical k1)
          exact canonicalNext_ite (canonicalNext_next (startFailed_canonical k3))
            (canonicalNext_next (startCheck_canonical k3))

theorem calStart_canonical {f p standIn} (h : Canonical s) : Canonical (calStart s f p standIn) :=
  saveRowMap_canonical (modFacet_canonical h)

theorem execRollingCalStart_canonical {f} (h : Canonical s) : CanonicalNext (execRollingCalStart f s) := by
  unfold execRollingCalStart
  refine canonicalNext_ite ?_ ?_
  · exact canonicalNext_next h
  · split
    · exact canonicalNext_next h
    · refine canonicalNext_ite ?_ ?_
      · exact canonicalNext_next (calStart_canonical h)
      · split
        · exact canonicalNext_next (calStart_canonical (modFacet_canonical h))
        · dsimp only
          split
          · exact canonicalNext_next (calStart_canonical
              (canonical_ite h (State.raise_canonical (modFacet_canonical h))))
          · exact canonicalNext_next (canonical_ite h (State.raise_canonical (modFacet_canonical h)))

theorem execStandInReload_canonical {f} (h : Canonical s) : CanonicalNext (execStandInReload f s) := by
  unfold execStandInReload
  dsimp only
  split
  · exact canonicalNext_next h
  · exact canonicalNext_ite (canonicalNext_next (settleRuns_canonical (State.inc_canonical (modFacet_canonical h))))
      (canonicalNext_next h)

theorem calReturn_canonical {f c} (h : Canonical s) : Canonical (calReturn s f c) :=
  saveRowMap_canonical (modFacet_canonical h)

theorem calCodes_canonical {f row codes} (h : Canonical s) : Canonical (calCodes s f row codes) :=
  canonical_foldl (fun _ _ k0 => canonical_ite (State.raise_canonical (modFacet_canonical (setOut_canonical k0)))
    (modFacet_canonical (setOut_canonical k0))) h

theorem calPass_canonical {f c codes} (h : Canonical s) : Canonical (calPass s f c codes) :=
  canonical_ite (startRelock_canonical
    (calReturn_canonical (modFacet_canonical (State.inc_canonical (calCodes_canonical h)))))
      (calReturn_canonical (modFacet_canonical (State.inc_canonical (calCodes_canonical h))))

theorem calFail_canonical {f c} (h : Canonical s) : Canonical (calFail s f c) := by
  unfold calFail
  extract_lets +onlyGivenNames _
  split
  · extract_lets _ t0 t2
    have k1 : Canonical t0 := openRow_canonical (modFacet_canonical h)
    have k3 : Canonical t2 := facetEvent_canonical
      (State.faultDegraded_canonical (State.addSaved_canonical (saveRowMap_canonical k1)))
    exact sparesLow_canonical k3
  · refine canonical_ite ?_ ?_
    · exact retireRows_canonical (modFacet_canonical h)
    · extract_lets _ _ t4
      have k5 : Canonical t4 := canonical_ite
        (State.faultDegraded_canonical (State.addSaved_canonical (openRow_canonical (modFacet_canonical h))))
          (modFacet_canonical h)
      exact sparesLow_canonical (saveRowMap_canonical k5)

theorem inPlaceDone_canonical {f} (h : Canonical s) : Canonical (inPlaceDone s f) := by
  unfold inPlaceDone
  dsimp only
  split
  · exact calStart_canonical h
  · exact h

theorem execCalibrationComplete_canonical {f failedStep spareNonZero codes} (h : Canonical s) : CanonicalNext
    (execCalibrationComplete f failedStep spareNonZero codes s) := by
  unfold execCalibrationComplete
  extract_lets +onlyGivenNames _
  split
  · exact canonicalNext_next h
  · refine canonicalNext_ite ?_ ?_
    · exact canonicalNext_next h
    · extract_lets _ _ t0
      have k1 : Canonical t0 := canonical_ite (calPass_canonical h)
        (canonical_ite (calFail_canonical (State.raise_canonical (State.inc_canonical h)))
          (modFacet_canonical (State.raise_canonical (State.inc_canonical h))))
      exact canonicalNext_ite (canonicalNext_next
        (settleAllFacets_canonical (canonical_ite (chargeFacet_canonical (inPlaceDone_canonical k1))
          (inPlaceDone_canonical k1)))) (canonicalNext_next k1)

theorem execCalOverdue_canonical {f} (h : Canonical s) : CanonicalNext (execCalOverdue f s) := by
  unfold execCalOverdue
  refine canonicalNext_ite ?_ ?_
  · exact canonicalNext_next h
  · extract_lets +onlyGivenNames t0
    have k1 : Canonical t0 := canonical_ite (State.raise_canonical (modFacet_canonical h)) h
    refine canonicalNext_ite ?_ ?_
    · extract_lets t2
      have k3 : Canonical t2 := modFacet_canonical (stopFacet_canonical k1)
      exact canonicalNext_next (inPlaceDone_canonical (saveRowMap_canonical k3))
    · exact canonicalNext_next k1

/-! ### `Machine/MemRows.lean` -/

theorem execHbmTrainingDone_canonical {n trained lanesRepaired} (h : Canonical s) : CanonicalNext
    (execHbmTrainingDone n trained lanesRepaired s) := by
  unfold execHbmTrainingDone
  refine canonicalNext_ite ?_ ?_
  · exact canonicalNext_next h
  · extract_lets +onlyGivenNames t0
    have k1 : Canonical t0 := canonical_ite h (State.addSaved_canonical h)
    refine canonicalNext_ite ?_ ?_
    · exact canonicalNext_next (State.setUnits_canonical k1)
    · extract_lets t2
      have k3 : Canonical t2 := State.raise_canonical (State.faultDegraded_canonical k1)
      exact canonicalNext_next (canonical_foldl (fun _ _ => modFacet_canonical) (loseFacets_canonical k3))

theorem execUnitRetireStart_canonical {n unit} (h : Canonical s) : CanonicalNext (execUnitRetireStart n unit s) := by
  unfold execUnitRetireStart
  refine canonicalNext_ite ?_ ?_
  · exact canonicalNext_fault
  · refine canonicalNext_ite ?_ ?_
    · exact canonicalNext_next h
    · refine canonicalNext_ite ?_ ?_
      · exact canonicalNext_next (qualifyUnit_canonical (modMaint_canonical h))
      · extract_lets _ t0
        have k1 : Canonical t0 := State.setSaved_canonical h
        exact canonicalNext_next (canonical_ite (State.raise_canonical k1) k1)

theorem copyWords_canonical {n es} (h : Canonical s) : Canonical (copyWords n es s) := by
  induction es generalizing s with
  | nil => exact h
  | cons e es ih =>
    obtain ⟨w, o⟩ := e
    cases o with
    | clean => exact ih h
    | corrected k => exact ih (noteCorrected_canonical (dropErr_canonical h))
    | reread => exact ih (noteReread_canonical (dropErr_canonical h))
    | uncorrectable => exact ih (memEvent_canonical (logError_canonical (State.inc_canonical h)))

theorem execUnitRetired_canonical {n} (h : Canonical s) : CanonicalNext (execUnitRetired n s) := by
  unfold execUnitRetired
  split
  · exact canonicalNext_next h
  · extract_lets _ _ _ _ _ t0
    have k1 : Canonical t0 := State.faultDegraded_canonical
      (State.addSaved_canonical (State.save_canonical (State.setBlob_canonical (copyWords_canonical h))))
    exact canonicalNext_next (canonical_ite (stackFailed_canonical (State.raise_canonical k1))
      (State.raise_canonical k1))

theorem scrubNext_canonical {m unit} (h : Canonical s) : Canonical (scrubNext s m unit) := by
  unfold scrubNext
  dsimp only
  split
  · exact canonical_ite (State.inc_canonical (State.setNum_canonical h)) (State.setNum_canonical h)
  · exact canonical_ite (State.inc_canonical (modMaint_canonical h)) (modMaint_canonical h)
  · exact modMaint_canonical h

theorem scrubHbm_canonical {unit address} (h : Canonical s) : Canonical (scrubHbm s unit address) := by
  unfold scrubHbm
  dsimp only
  split
  · exact noteHbmBad_canonical (damageCopy_canonical (canonical_snd_ite h (State.drawNat_canonical h)))
  · exact noteHbmBad_canonical (canonical_snd_ite h (State.drawNat_canonical h))

theorem scrubAcc_canonical {f address} (h : Canonical s) : Canonical (scrubAcc s f address) :=
  canonical_ite (memEvent_canonical
    (logError_canonical (dropErr_canonical (modFacet_canonical (State.inc_canonical h)))))
      (memEvent_canonical (logError_canonical (State.inc_canonical h)))

theorem execPatrolScrub_canonical {mem unit address outcome} (h : Canonical s) : CanonicalNext
    (execPatrolScrub mem unit address outcome s) := by
  unfold execPatrolScrub
  refine canonicalNext_ite ?_ ?_
  · exact canonicalNext_fault
  · refine canonicalNext_ite ?_ ?_
    · exact canonicalNext_next h
    · dsimp only
      split
      · exact canonicalNext_next (scrubNext_canonical h)
      · exact canonicalNext_next (noteCorrected_canonical (dropErr_canonical (scrubNext_canonical h)))
      · exact canonicalNext_next (noteReread_canonical (dropErr_canonical (scrubNext_canonical h)))
      · split
        · exact canonicalNext_next (scrubHbm_canonical (addErr_canonical (dropErr_canonical (scrubNext_canonical h))))
        · exact canonicalNext_next (noteShelfBad_canonical
            (addErr_canonical (dropErr_canonical (scrubNext_canonical h))))
        · exact canonicalNext_next (scrubAcc_canonical (addErr_canonical (dropErr_canonical (scrubNext_canonical h))))

end Sys2Proof.Machine
end

section
/-! PROOFS. The canonical form is kept, file by file of the model: Machine/Analogue.lean to Machine/FrameStart.lean. -/

namespace Sys2Proof.Machine

variable {s : State}


/-! ### `Machine/Analogue.lean` -/

theorem newLoop_canonical {c} (h : Canonical s) : Canonical (newLoop s c) := modConv_canonical (State.inc_canonical h)

theorem endEntry_canonical {c} (h : Canonical s) : Canonical (endEntry s c) :=
  canonical_ite (modConv_canonical h) (canonical_ite (modConv_canonical h) (newLoop_canonical h))

theorem passSkipped_canonical {c n} (h : Canonical s) : Canonical (passSkipped c n s) := by
  induction n generalizing s with
  | zero => exact h
  | succ n ih =>
    unfold passSkipped
    refine canonical_ite h ?_
    split
    · exact canonical_ite (ih (endEntry_canonical h)) h
    · exact h

theorem putCal_canonical {ch offset gain} (h : Canonical s) : Canonical (putCal s ch offset gain) :=
  State.save_canonical (State.setBlob_canonical h)

theorem calZero_canonical {codes} (h : Canonical s) : Canonical (calZero s codes).2 := by
  unfold calZero
  split
  · exact h
  · exact modAnalog_canonical h

theorem calFullScale_canonical {codes} (h : Canonical s) : Canonical (calFullScale s codes).2 := by
  unfold calFullScale
  split
  · exact h
  · exact h
  · refine canonical_snd_ite ?_ ?_
    · exact h
    · split
      · exact canonical_snd_ite h (canonical_snd_ite h (putCal_canonical h))
      · exact h

theorem calClear_canonical (h : Canonical s) : Canonical (calClear s).2 := by
  unfold calClear
  split
  · exact h
  · exact putCal_canonical h

theorem calDone_canonical {r} (h : Canonical r.2) : Canonical (calDone r).2 := State.setNum_canonical h

theorem urgentRequest_canonical {v} (h : Canonical s) : Canonical (urgentRequest s v).2 := by
  unfold urgentRequest
  split
  · exact State.setNum_canonical h
  · split
    next t0 e1 =>
      have k2 := (pushUrgent_canonical h).get e1
      exact State.setNum_canonical k2
    · exact State.setNum_canonical h

theorem readExternal_canonical {k gain ticks code} (h : Canonical s) : Canonical (readExternal s k gain ticks code) :=
  canonical_ite (State.setNum_canonical h)
    (canonical_ite (modExt_canonical (State.setNum_canonical h))
      (canonical_ite (modExt_canonical (State.setNum_canonical h))
        (State.raise_canonical (State.inc_canonical (State.setNum_canonical h)))))

theorem readHeater_canonical {n gain ticks code} (h : Canonical s) : Canonical (readHeater s n gain ticks code) := by
  unfold readHeater
  extract_lets _ _ _ t0 _ _ t2
  have k1 : Canonical t0 := State.setBlob_canonical h
  have k3 : Canonical t2 := canonical_ite k1 (modAnalog_canonical k1)
  dsimp only
  exact canonical_ite (State.drawBool_canonical k3)
    (canonical_ite (modAnalog_canonical (State.drawBool_canonical k3))
      (canonical_ite (modAnalog_canonical (State.drawBool_canonical k3))
        (State.raise_canonical (State.inc_canonical (modAnalog_canonical (State.drawBool_canonical k3))))))

theorem putResult_canonical {ch r} (h : Canonical s) : Canonical (putResult s ch r) := modAnalog_canonical h

theorem judgeWindow_canonical {c i ch e code} (h : Canonical s) : Canonical (judgeWindow s c i ch e code) :=
  canonical_ite (State.raise_canonical (modConv_canonical h)) (modConv_canonical h)

theorem judgeTest_canonical {c code} (h : Canonical s) : Canonical (judgeTest s c code) :=
  canonical_ite (modConv_canonical h)
    (canonical_ite (modConv_canonical (State.inc_canonical h))
      (State.raise_canonical (modConv_canonical (State.inc_canonical h))))

theorem useResult_canonical {c k code} (h : Canonical s) : Canonical (useResult s c k code) := by
  unfold useResult
  refine canonical_ite ?_ ?_
  · exact canonical_ite h (noteTemp_canonical h)
  · refine canonical_ite ?_ ?_
    · exact noteTemp_canonical h
    · refine canonical_ite ?_ ?_
      · exact State.setNum_canonical h
      · refine canonical_ite ?_ ?_
        · exact State.setNum_canonical h
        · refine canonical_ite ?_ ?_
          · exact h
          · split
            · exact readExternal_canonical h
            · split
              · exact readHeater_canonical h
              · exact h

theorem storeResult_canonical {c k raw overload} (h : Canonical s) : Canonical (storeResult s c k raw overload) := by
  unfold storeResult
  extract_lets +onlyGivenNames _
  split
  · extract_lets _ _ t0 _ t2 _ _ t4
    have k1 : Canonical t0 := by
      unfold t0
      split
      · exact canonical_ite (judgeWindow_canonical h) h
      · exact h
    have k3 : Canonical t2 := canonical_ite (judgeTest_canonical k1) k1
    have k5 : Canonical t4 := by
      unfold t4
      split
      · exact canonical_ite k3 (State.setNum_canonical k3)
      · exact k3
    exact useResult_canonical k5

theorem execConversionComplete_canonical {c channel code overload} (h : Canonical s) : CanonicalNext
    (execConversionComplete c channel code overload s) := by
  unfold execConversionComplete
  dsimp only
  split
  · exact canonicalNext_next h
  · refine canonicalNext_ite ?_ ?_
    · exact canonicalNext_next h
    · refine canonicalNext_ite ?_ ?_
      · exact canonicalNext_next (newLoop_canonical (storeResult_canonical (passSkipped_canonical h)))
      · split
        · exact canonicalNext_next (storeResult_canonical (passSkipped_canonical h))
        · split
          · exact canonicalNext_next (storeResult_canonical (passSkipped_canonical h))
          · exact canonicalNext_ite (canonicalNext_next
              (modConv_canonical (storeResult_canonical (passSkipped_canonical h))))
                (canonicalNext_next (endEntry_canonical (storeResult_canonical (passSkipped_canonical h))))

theorem heldRoles_canonical (h : Canonical s) : Canonical (heldRoles s) := by
  unfold heldRoles
  extract_lets _ t0 t3
  have k1 : Canonical t0 := by
    unfold t0
    split
    · exact State.add_canonical h
    · exact h
  have k4 : Canonical t3 := canonical_foldl
    (fun _ _ k2 => canonical_ite (modPower_canonical (putResult_canonical k2)) (putResult_canonical k2)) k1
  clear_value t3
  exact modAnalog_canonical k4

/-! ### `Machine/Records.lean` -/

theorem replayRecord_canonical {jsn} (h : Canonical s) : Canonical (replayRecord s jsn) := by
  unfold replayRecord
  split
  · exact h
  · exact canonical_ite (endRequest_canonical h) (awaitAdmission_canonical h)

theorem settleRecords_canonical {disowned} (h : Canonical s) : Canonical (settleRecords s disowned) :=
  pruneNeeded_canonical (State.raise_canonical
    (canonical_foldl (fun _ _ => replayRecord_canonical)
      (flagOpen_canonical (canonical_foldl (fun _ _ => endRequest_canonical) (modJournal_canonical h)))))

theorem scanJournal_canonical {alone} (h : Canonical s) : Canonical (scanJournal s alone) := by
  unfold scanJournal
  extract_lets _ _ _ t0 _ t2 _ _ _ _ _ t4 _ _ _ _ _ _ _ t6
  have k1 : Canonical t0 := canonical_ite (State.setNum_canonical h) (State.raise_canonical (State.setNum_canonical h))
  have k3 : Canonical t2 := State.setNum_canonical k1
  clear_value t2
  have k5 : Canonical t4 := canonical_getD (jAppend_canonical (jFree_canonical k3)) (jFree_canonical k3)
  clear_value t4
  have k7 : Canonical t6 := refreshNeeded_canonical k5
  exact canonical_ite (settleRecords_canonical k7) k7

/-! ### `Machine/Restart.lean` -/

theorem applySaved_canonical {only} (h : Canonical s) : Canonical (applySaved s only) :=
  canonical_ite h (canonical_foldl (fun _ _ => State.setVal_canonical) h)

theorem restoreRowMaps_canonical (h : Canonical s) : Canonical (restoreRowMaps s).1 := by
  refine canonical_foldl_fst (fun q f hq => ?_) h
  dsimp only
  generalize (if q.1.store.usable = true then q.1.store.values.find? fun e => e.1 == fam 0x3200_01 f else none) = v
  cases v with
  | none => exact State.setBlob_canonical hq
  | some e =>
    dsimp only
    split
    · exact State.setBlob_canonical (modFacet_canonical hq)
    · exact State.setBlob_canonical hq

theorem restoreSaved_canonical (h : Canonical s) : Canonical (restoreSaved s) := by
  unfold restoreSaved
  extract_lets +onlyGivenNames u
  have hu : Canonical u := applySaved_canonical h
  clear_value u
  split
  next t _ e =>
    have ht : Canonical t := canonical_of_fst_eq e (restoreRowMaps_canonical hu)
    have hv {n} : Canonical (t.setNum 0x1010_01 n) := State.setNum_canonical ht
    exact canonical_ite (State.setBlob_canonical (State.setNum_canonical hv))
      (State.raise_canonical (State.setBlob_canonical (State.setNum_canonical hv)))

theorem restartDevice_canonical {cause} (h : Canonical s) : Canonical (restartDevice s cause) := by
  unfold restartDevice
  extract_lets _ _ _ _ _ _ _ _ _ fresh _ t
  have hf : Canonical fresh := ⟨reset_mem_wf, sparseWf_filter _ _ _ h.2⟩
  clear_value fresh
  have ht : Canonical t := refreshPorts_canonical (State.setNum_canonical (applySaved_canonical hf))
  exact canonical_ite (settleWraps_canonical (canonical_foldl (fun _ _ => State.raise_canonical) ht)) ht

theorem execResetN_canonical (h : Canonical s) : CanonicalNext (execResetN s) :=
  canonicalNext_ite (canonicalNext_next (restartDevice_canonical h)) (canonicalNext_next h)

theorem portsDown_canonical (h : Canonical s) : Canonical (portsDown s) :=
  canonical_foldl (fun _ _ k1 => canonical_ite k1 (peerDown_canonical k1))
    (canonical_foldl (fun _ _ => ringDown_canonical) h)

theorem execRefclkLoss_canonical (h : Canonical s) : CanonicalNext (execRefclkLoss s) :=
  canonicalNext_ite (canonicalNext_next h) (canonicalNext_next (portsDown_canonical (enterSafe_canonical h)))

theorem execRefclkReturn_canonical (h : Canonical s) : CanonicalNext (execRefclkReturn s) := canonicalNext_next h

/-! ### `Machine/Boot.lean` -/

theorem modBoot_canonical {g} (h : Canonical s) : Canonical (modBoot s g) := h

theorem repairLine_canonical {n a line} (h : Canonical s) : Canonical (repairLine s n a line).1 :=
  canonical_fst_ite (modMaint_canonical h) h

theorem losePlainSpare_canonical {n row} (h : Canonical s) : Canonical (losePlainSpare s n row) :=
  canonical_ite h (modMaint_canonical h)

theorem repairPair_canonical {n rows} (h : Canonical s) : Canonical (repairPair s n rows) := by
  unfold repairPair
  extract_lets +onlyGivenNames t _ _
  have ht : Canonical t := canonical_foldl (fun _ _ => losePlainSpare_canonical) h
  have hl : ∀ (l : List Nat) a, Canonical (l.foldl (fun (x : State × (Nat × List Nat)) l => repairLine x.1 n x.2 l) (t, a)).1 :=
    fun _ _ => canonical_foldl_fst (fun _ _ => repairLine_canonical) ht
  split
  next _ _ e =>
    have hu := canonical_of_fst_eq e (hl _ _)
    exact State.raise_canonical (State.setSaved_canonical (State.setNum_canonical (State.setBlob_canonical
      (State.setNum_canonical (modMaint_canonical hu)))))

theorem repairShelves_canonical {failed} (h : Canonical s) : Canonical (repairShelves s failed) :=
  canonical_foldl (fun _ _ => repairPair_canonical) h

theorem chooseImage_canonical {cs k} (h : Canonical s) : Canonical (chooseImage s cs k).1 := by
  induction cs generalizing s k with
  | nil => exact h
  | cons c cs ih =>
    unfold chooseImage
    split
    · exact h
    · exact ih (State.raise_canonical h)

theorem bootFailed_canonical {fromNext} (h : Canonical s) : Canonical (bootFailed s fromNext) :=
  canonical_ite (modBoot_canonical h) (enterSafe_canonical h)

theorem runImage_canonical {src cause fromNext testsOk failed facetsOk} (h : Canonical s) : Canonical
    (runImage s src cause fromNext testsOk failed facetsOk) := by
  unfold runImage
  extract_lets +onlyGivenNames _ _ t0 t2
  have k1 : Canonical t0 := State.setNum_canonical (State.setNum_canonical (State.setNum_canonical h))
  have k3 : Canonical t2 := canonical_ite (State.raise_canonical k1) k1
  refine canonical_ite ?_ ?_
  · exact bootFailed_canonical k3
  · extract_lets t4 t6 t9
    have k5 : Canonical t4 := State.setNum_canonical k3
    have k7 : Canonical t6 := State.setNum_canonical k5
    have k10 : Canonical t9 := canonical_foldl (fun _ _ k8 => canonical_ite k8 (modFacet_canonical k8)) k7
    clear_value t9
    exact scanJournal_canonical (repairShelves_canonical k10)

theorem countPowerUp_canonical (h : Canonical s) : Canonical (countPowerUp s) :=
  canonical_ite (State.setSaved_canonical h) h

theorem execBoot_canonical {selfCheckOk testsOk failedShelfLines facetsOk} (h : Canonical s) : CanonicalNext
    (execBoot selfCheckOk testsOk failedShelfLines facetsOk s) := by
  unfold execBoot
  refine canonicalNext_ite ?_ ?_
  · exact canonicalNext_next h
  · extract_lets _ _ _ _ t0
    have k1 : Canonical t0 := by
      unfold t0
      split
      · exact countPowerUp_canonical h
      · exact State.raise_canonical (countPowerUp_canonical h)
    refine canonicalNext_ite ?_ ?_
    · exact canonicalNext_next (enterSafe_canonical k1)
    · dsimp only
      split
      · exact canonicalNext_next (enterSafe_canonical (chooseImage_canonical (State.setNum_canonical k1)))
      · exact canonicalNext_next (runImage_canonical (chooseImage_canonical (State.setNum_canonical k1)))

theorem execBootTimeout_canonical (h : Canonical s) : CanonicalNext (execBootTimeout s) := by
  unfold execBootTimeout
  split
  · exact canonicalNext_ite (canonicalNext_next (bootFailed_canonical h)) (canonicalNext_next h)
  · exact canonicalNext_next h

theorem restoreContexts_canonical (h : Canonical s) : Canonical (restoreContexts s) :=
  canonical_foldl (fun _ _ => settleCtx_canonical) (canonical_foldl (fun _ _ => setCtx_canonical) h)

theorem restoreOutputs_canonical (h : Canonical s) : Canonical (restoreOutputs s) :=
  canonical_foldl (fun _ _ k0 => canonical_ite (spanStart_canonical k0) k0) h

theorem restoreTrims_canonical (h : Canonical s) : Canonical (restoreTrims s) :=
  canonical_foldl (fun _ _ k0 => by
    split
    · exact canonical_foldl (fun _ _ => connectOut_canonical) (State.setNum_canonical k0)
    · exact k0) (State.setNum_canonical h)

theorem startInputs_canonical (h : Canonical s) : Canonical (startInputs s) :=
  canonical_foldl (fun _ _ k0 => canonical_ite k0 (setInput_canonical k0)) h

theorem startPeers_canonical (h : Canonical s) : Canonical (startPeers s) :=
  canonical_foldl (fun _ _ => peerEnable_canonical) h

theorem enterConfiguring_canonical (h : Canonical s) : Canonical (enterConfiguring s) := by
  unfold enterConfiguring
  extract_lets t0 t2 t4 t6
  have k1 : Canonical t0 := restoreContexts_canonical (restoreSaved_canonical h)
  have k3 : Canonical t2 := canonical_ite (State.raise_canonical (modPower_canonical k1)) k1
  have k5 : Canonical t4 := setNode_canonical (State.setNum_canonical k3)
  have k7 : Canonical t6 := restoreTrims_canonical (restoreOutputs_canonical k5)
  exact settleLight_canonical (mirrorResync_canonical
    (startPeers_canonical (startInputs_canonical (unitsFromRails_canonical (startSeq_canonical k7)))))

theorem execSealWrite_canonical (h : Canonical s) : CanonicalNext (execSealWrite s) := by
  unfold execSealWrite
  split
  · exact canonicalNext_next h
  · refine canonicalNext_ite ?_ ?_
    · exact canonicalNext_next h
    · extract_lets _ _ _ t0 t2 t4 t6 t8
      have k1 : Canonical t0 := State.setNum_canonical (State.setNum_canonical h)
      have k3 : Canonical t2 := State.setBlob_canonical (State.setBlob_canonical k1)
      have k5 : Canonical t4 := State.setBlob_canonical (State.setBlob_canonical k3)
      have k7 : Canonical t6 := canonical_ite (State.raise_canonical k5) k5
      have k9 : Canonical t8 := State.setNum_canonical k7
      exact canonicalNext_next (enterConfiguring_canonical (modBoot_canonical k9))

theorem writeNonce_canonical {v} (h : Canonical s) : Canonical (writeNonce s v) :=
  State.setNum_canonical (modBoot_canonical h)

theorem execReportSigned_canonical (h : Canonical s) : CanonicalNext (execReportSigned s) := by
  unfold execReportSigned
  split
  · exact canonicalNext_next h
  · exact canonicalNext_ite (canonicalNext_next h)
      (canonicalNext_next (State.setNum_canonical (State.setBlob_canonical (modBoot_canonical h))))

theorem writeImage_canonical {v} (h : Canonical s) : Canonical (writeImage s v) :=
  State.setNum_canonical (State.setNum_canonical (modBoot_canonical h))

theorem execImageStaged_canonical {flashOk} (h : Canonical s) : CanonicalNext (execImageStaged flashOk s) := by
  unfold execImageStaged
  split
  · exact canonicalNext_next h
  · refine canonicalNext_ite ?_ ?_
    · exact canonicalNext_next h
    · refine canonicalNext_ite ?_ ?_
      · exact canonicalNext_next (State.setNum_canonical (modBoot_canonical h))
      · dsimp only
        split
        · exact canonicalNext_next (State.setNum_canonical
            (State.setNum_canonical (modBoot_canonical (modBoot_canonical h))))
        · exact canonicalNext_next (State.raise_canonical
            (State.setNum_canonical (State.setNum_canonical (modBoot_canonical (modBoot_canonical h)))))

theorem commitImage_canonical (h : Canonical s) : Canonical (commitImage s) :=
  canonical_ite (State.raise_canonical (State.setNum_canonical (State.setNum_canonical h))) (State.setNum_canonical h)

/-! ### `Machine/Gang.lean` -/

theorem peerAcked_canonical {p ackSeq} (h : Canonical s) : Canonical (peerAcked s p ackSeq) :=
  canonical_ite h (canonical_foldl (fun _ _ => releaseSent_canonical) (modPeer_canonical h))

theorem peerCredited_canonical {p v} (h : Canonical s) : Canonical (peerCredited s p v) :=
  canonical_ite h (pumpPeer_canonical (modPeer_canonical h))

theorem creditBack_canonical {p ch hd} (h : Canonical s) : Canonical (creditBack s p ch hd) := sendLink_canonical h

theorem peerMalformed_canonical {p} (h : Canonical s) : Canonical (peerMalformed s p) := State.inc_canonical h

theorem linkAccept_canonical {p hd f answer} (h : Canonical s) : Canonical (linkAccept s p hd f answer).1 := by
  unfold linkAccept
  refine canonical_fst_ite ?_ ?_
  · exact sendLink_canonical (State.inc_canonical h)
  · refine canonical_fst_ite ?_ ?_
    · exact sendLink_canonical h
    · extract_lets t0
      have k1 : Canonical t0 := peerCredited_canonical (peerAcked_canonical h)
      exact canonical_fst_ite (canonical_ite (sendLink_canonical k1) k1)
        (canonical_fst_ite (sendLink_canonical k1) (canonical_ite (sendLink_canonical k1) k1))

theorem forwardPeer_canonical {p hd f} (h : Canonical s) : Canonical (forwardPeer s p hd f) := by
  unfold forwardPeer
  dsimp only
  split
  · exact creditBack_canonical (State.inc_canonical h)
  · exact canonical_ite (creditBack_canonical (State.inc_canonical h)) (peerSend_canonical (State.inc_canonical h))

theorem peerFrame_canonical {p hd type channel record payload consume} (h : Canonical s)
    (hconsume : ∀ t, Canonical t → Canonical (consume t)) : Canonical
      (peerFrame s p hd type channel record payload consume) := by
  unfold peerFrame
  refine canonical_ite ?_ ?_
  · exact h
  · dsimp only
    exact canonical_ite (linkAccept_canonical h)
      (canonical_ite (State.inc_canonical (linkAccept_canonical h))
        (canonical_ite (peerMalformed_canonical (creditBack_canonical (linkAccept_canonical h)))
          (canonical_ite (hconsume _ (creditBack_canonical (linkAccept_canonical h)))
            (forwardPeer_canonical (linkAccept_canonical h)))))

theorem peerReceive_canonical {p hd type channel arg payload consume} (h : Canonical s)
    (hconsume : ∀ t, Canonical t → Canonical (consume t)) : Canonical
      (peerReceive s p hd type channel arg payload consume) :=
  peerFrame_canonical h (fun _ k0 => hconsume _ k0)

theorem peerResend_canonical {p} (h : Canonical s) : Canonical (peerResend s p) :=
  modPeer_canonical (State.add_canonical (State.add_canonical h))

theorem execLinkAck_canonical {p hd} (h : Canonical s) : CanonicalNext (execLinkAck p hd s) := by
  unfold execLinkAck
  refine canonicalNext_ite ?_ ?_
  · exact canonicalNext_next h
  · dsimp only
    exact canonicalNext_ite (canonicalNext_next (linkAccept_canonical h))
      (canonicalNext_ite (canonicalNext_next (peerMalformed_canonical (linkAccept_canonical h)))
        (canonicalNext_ite (canonicalNext_next (peerResend_canonical (linkAccept_canonical h)))
          (canonicalNext_next (linkAccept_canonical h))))

theorem execPeerResendTimeout_canonical {p} (h : Canonical s) : CanonicalNext (execPeerResendTimeout p s) :=
  canonicalNext_ite (canonicalNext_next (peerResend_canonical h)) (canonicalNext_next h)

theorem execCredit_canonical {p hd returns} (h : Canonical s) : CanonicalNext (execCredit p hd returns s) := by
  unfold execCredit
  refine canonicalNext_ite ?_ ?_
  · exact canonicalNext_next h
  · dsimp only
    exact canonicalNext_ite (canonicalNext_next (linkAccept_canonical h))
      (canonicalNext_ite (canonicalNext_next (peerMalformed_canonical (linkAccept_canonical h)))
        (canonicalNext_next (canonical_foldl (fun _ _ => peerCredited_canonical) (linkAccept_canonical h))))

theorem execHello_canonical {p hd ring ordinal port serial} (h : Canonical s) : CanonicalNext
    (execHello p hd ring ordinal port serial s) := by
  unfold execHello
  refine canonicalNext_ite ?_ ?_
  · exact canonicalNext_next h
  · refine canonicalNext_ite ?_ ?_
    · exact canonicalNext_next (linkAccept_canonical h)
    · refine canonicalNext_ite ?_ ?_
      · exact canonicalNext_next (peerMalformed_canonical (linkAccept_canonical h))
      · extract_lets _ t0 t2
        have k1 : Canonical t0 := canonical_ite (sendLink_canonical (modPeer_canonical h)) (linkAccept_canonical h)
        have k3 : Canonical t2 := State.setNum_canonical k1
        exact canonicalNext_ite (canonicalNext_next k3)
          (canonicalNext_ite (canonicalNext_next (peerLinkUp_canonical k3))
            (canonicalNext_next (State.raise_canonical (State.setNum_canonical k3))))

theorem takeData_canonical {src eic n receiver tag last payload} (h : Canonical s) : Canonical
    (takeData s src eic n receiver tag last payload) := by
  unfold takeData
  split
  · exact jigReceive_canonical h
  · split
    · exact h
    · exact canonical_ite h (canonical_ite (placeArrived_canonical (modStream_canonical h)) (modStream_canonical h))

theorem execData_canonical {p hd stream receiver tag block payload} (h : Canonical s) : CanonicalNext
    (execData p hd stream receiver tag block payload s) :=
  canonicalNext_next (peerReceive_canonical h (fun _ k0 => takeData_canonical k0))

theorem creditReceiver_canonical {eic n idx lag window} (h : Canonical s) : Canonical
    (creditReceiver s eic n idx lag window) := by
  unfold creditReceiver
  dsimp only
  split
  · exact pumpData_canonical (touch_canonical (modStream_canonical h))
  · exact modStream_canonical h

theorem takeCredits_canonical {src eic n receiver count} (h : Canonical s) : Canonical
    (takeCredits s src eic n receiver count) := by
  unfold takeCredits
  split
  · exact h
  · dsimp only
    split
    · exact h
    · refine canonical_ite ?_ ?_
      · exact h
      · refine canonical_ite ?_ ?_
        · exact creditReceiver_canonical h
        · split
          · exact creditReceiver_canonical (creditReceiver_canonical h)
          · exact creditReceiver_canonical h

theorem execStreamCredit_canonical {p hd stream receiver count} (h : Canonical s) : CanonicalNext
    (execStreamCredit p hd stream receiver count s) :=
  canonicalNext_next (peerReceive_canonical h (fun _ k0 => takeCredits_canonical k0))

theorem countImage_canonical {model stage copy off len} (h : Canonical s) : Canonical
    (countImage s model stage copy off len) :=
  canonical_foldl (fun _ _ => State.add_canonical) h

theorem answerRead_canonical {dest stream receiver n block data} (h : Canonical s) :
    Canonical (answerRead s dest stream receiver n block data) := by
  induction n generalizing s block data with
  | zero => exact h
  | succ n ih =>
    unfold answerRead
    exact canonical_ite (sendToOr_canonical h) (ih (sendToOr_canonical h))

theorem execRead_canonical {p hd payload} (h : Canonical s) : CanonicalNext (execRead p hd payload s) :=
  canonicalNext_next (peerReceive_canonical h (fun _ k0 => by
    refine canonical_ite ?_ ?_
    · exact peerMalformed_canonical k0
    · split
      · exact canonical_ite k0 (answerRead_canonical (countImage_canonical k0))
      · exact k0))

theorem execBatch_canonical {p hd gangTask graph model stage copyId partBound} (h : Canonical s) : CanonicalNext
    (execBatch p hd gangTask graph model stage copyId partBound s) :=
  canonicalNext_next (peerReceive_canonical h (fun _ k0 => by
    split
    · exact peerMalformed_canonical k0
    · exact takeBatch_canonical k0))

theorem execGrant_canonical {p hd gangTask level} (h : Canonical s) : CanonicalNext
    (execGrant p hd gangTask level s) :=
  canonicalNext_next (peerReceive_canonical h (fun _ k0 => by
    refine canonical_ite ?_ ?_
    · exact peerMalformed_canonical k0
    · split
      · exact takeGrant_canonical k0
      · exact k0))

theorem execPeerReduce_canonical {p hd gangTask level mode payload} (h : Canonical s) : CanonicalNext
    (execPeerReduce p hd gangTask level mode payload s) :=
  canonicalNext_next (peerReceive_canonical h (fun _ k0 => by
    refine canonical_ite ?_ ?_
    · exact peerMalformed_canonical k0
    · split
      · exact takeReduce_canonical k0
      · exact k0))

theorem execRepeatTile_canonical {p hd gangTask scale payload} (h : Canonical s) : CanonicalNext
    (execRepeatTile p hd gangTask scale payload s) :=
  canonicalNext_next (peerReceive_canonical h (fun _ k0 => by
    refine canonical_ite ?_ ?_
    · exact peerMalformed_canonical k0
    · split
      · exact settleAllFacets_canonical (repeatPart_canonical k0)
      · exact k0))

theorem execAbort_canonical {p hd gangTask cause} (h : Canonical s) : CanonicalNext
    (execAbort p hd gangTask cause s) :=
  canonicalNext_next (peerReceive_canonical h (fun _ k0 => by
    split
    · exact settleAllFacets_canonical (abortTask_canonical k0)
    · exact k0))

theorem execPartBoundExpiry_canonical {gangTask} (h : Canonical s) : CanonicalNext (execPartBoundExpiry gangTask s) :=
    by
  unfold execPartBoundExpiry
  split
  · exact canonicalNext_next (settleAllFacets_canonical (abortTask_canonical h))
  · exact canonicalNext_next h

theorem execJournal_canonical {p hd position payload} (h : Canonical s) : CanonicalNext
    (execJournal p hd position payload s) :=
  canonicalNext_next (peerReceive_canonical h
    (fun _ k0 => canonical_ite (sendToOr_canonical (State.raise_canonical k0))
      (canonical_ite (peerMalformed_canonical k0)
        (sendToOr_canonical (modJournal_canonical
          (canonical_ite k0 (modGang_canonical (modJournal_canonical (State.setNum_canonical k0)))))))))

theorem mirrorHeld_canonical {pos} (h : Canonical s) : Canonical (mirrorHeld s pos) := by
  unfold mirrorHeld
  extract_lets +onlyGivenNames _ _ t u v
  have ht : Canonical t := State.inc_canonical h
  have hu : Canonical u := modRequest_canonical ht
  have hv : Canonical v := by
    unfold v
    refine canonical_ite ht ?_
    split
    · exact ht
    · refine canonical_ite (modRequest_canonical ht) ?_
      split
      · exact sendAck_canonical hu
      · exact hu
  exact canonical_ite (State.raise_canonical (modGang_canonical (State.setNum_canonical hv))) hv

theorem execJournalAck_canonical {p hd position status} (h : Canonical s) : CanonicalNext
    (execJournalAck p hd position status s) :=
  canonicalNext_next (peerReceive_canonical h
    (fun _ k0 => canonical_ite k0 (canonical_ite (mirrorHeld_canonical k0)
      (canonical_ite (mirrorLost_canonical k0) (peerMalformed_canonical k0)))))

theorem execMirrorTimeout_canonical (h : Canonical s) : CanonicalNext (execMirrorTimeout s) :=
  canonicalNext_ite (canonicalNext_next (mirrorLost_canonical h)) (canonicalNext_next h)

theorem sendBlock_canonical {ord model stage copy block data} (h : Canonical s) : Canonical
    (sendBlock s ord model stage copy block data) :=
  sendToOr_canonical h

theorem payOwed_canonical {model stage copy block data} (h : Canonical s) : Canonical
    (payOwed s model stage copy block data) :=
  canonical_foldl (fun _ _ => sendBlock_canonical) (modGang_canonical h)

theorem weightBlockIn_canonical {model stage copy block port data} (h : Canonical s) : Canonical
    (weightBlockIn s model stage copy block port data).2 :=
  receiveBlock_canonical (payOwed_canonical (forwardBlock_canonical h))

theorem execPeerWeightBlock_canonical {p hd model stage block copyId payload} (h : Canonical s) : CanonicalNext
    (execPeerWeightBlock p hd model stage block copyId payload s) :=
  canonicalNext_next (peerFrame_canonical h
    (fun _ k0 => canonical_ite (peerMalformed_canonical k0) (weightBlockIn_canonical k0)))

theorem sendBlockReq_canonical {ord model stage copy first count} (h : Canonical s) : Canonical
    (sendBlockReq s ord model stage copy first count) :=
  State.inc_canonical (sendToOr_canonical h)

theorem execBlockReq_canonical {p hd model stage count copyId first} (h : Canonical s) :
    CanonicalNext (execBlockReq p hd model stage count copyId first s) := by
  refine canonicalNext_next (peerReceive_canonical h fun t ht => ?_)
  dsimp only
  split
  · exact modGang_canonical (canonical_foldl (fun _ _ hk => sendBlock_canonical (countBlock_canonical hk)) ht)
  · exact canonical_foldl (fun _ _ => sendBlockReq_canonical)
      (modGang_canonical (canonical_foldl (fun _ _ hk => sendBlock_canonical (countBlock_canonical hk)) ht))

theorem execBlockStallRequest_canonical {context slot} (h : Canonical s) : CanonicalNext
    (execBlockStallRequest context slot s) :=
  canonicalNext_ite (canonicalNext_next h)
    (canonicalNext_next (canonical_foldl (fun _ _ => sendBlockReq_canonical) (modSlot_canonical h)))

/-! ### `Machine/Node.lean` -/

theorem moveNode_canonical {n cause} (h : Canonical s) : Canonical (moveNode s n cause) :=
  settleLight_canonical (dropExpert_canonical (setNode_canonical h))

theorem abortTasks_canonical {g} (h : Canonical s) : Canonical (abortTasks s g).1 := by
  have hf : ∀ ts : List Task, Canonical (ts.foldl (fun s t => abortTask s t.num .replay 256) s) := fun _ =>
    canonical_foldl (fun _ _ => abortTask_canonical) h
  unfold abortTasks
  dsimp only
  exact settleAllFacets_canonical (hf _)

theorem stopBuilds_canonical (h : Canonical s) : Canonical (stopBuilds s) := h

theorem beginQuiesce_canonical {code} (h : Canonical s) : Canonical (beginQuiesce s code).1 :=
  abortTasks_canonical (stopBuilds_canonical (canonical_of_eq (State.setNum_canonical h) rfl rfl))

theorem layRegions_canonical (h : Canonical s) : Canonical (layRegions s) := modMaint_canonical h

theorem runCommand_canonical {code} (h : Canonical s) : Canonical (runCommand s code) := by
  unfold runCommand
  split
  · exact moveNode_canonical h
  · exact canonical_ite (canonical_of_eq (State.setNum_canonical h) rfl rfl)
      (moveNode_canonical (layRegions_canonical h))
  · exact canonical_ite h (canonical_ite (beginQuiesce_canonical h) (moveNode_canonical h))
  · exact canonical_ite h (beginQuiesce_canonical h)
  · exact moveNode_canonical h
  · exact enterSafe_canonical h
  · exact h

theorem nodeCommand_canonical {code} (h : Canonical s) : Canonical (nodeCommand s code).2 :=
  canonical_ite (runCommand_canonical (State.setNum_canonical h)) (State.setNum_canonical h)

theorem execQuiesceComplete_canonical (h : Canonical s) : CanonicalNext (execQuiesceComplete s) :=
  canonicalNext_ite (canonicalNext_next (moveNode_canonical (canonical_of_eq (State.setNum_canonical h) rfl rfl)))
    (canonicalNext_next h)

theorem execQuiesceForced_canonical (h : Canonical s) : CanonicalNext (execQuiesceForced s) := by
  unfold execQuiesceForced
  refine canonicalNext_ite ?_ ?_
  · dsimp only
    exact canonicalNext_next (State.raise_canonical (beginQuiesce_canonical h))
  · exact canonicalNext_next h

theorem expertEnable_canonical {v} (h : Canonical s) : Canonical (expertEnable s v) :=
  canonical_ite (canonical_ite (State.raise_canonical (State.setNum_canonical h)) h)
    (State.raise_canonical (State.inc_canonical (State.setNum_canonical h)))

theorem factoryValues_canonical (h : Canonical s) : Canonical (factoryValues s) :=
  ⟨h.1, sparseWf_filter _ _ _ h.2⟩

theorem cancelRequest_canonical {id} (h : Canonical s) : Canonical (cancelRequest s id).2 := by
  unfold cancelRequest
  split
  · exact h
  · exact canonical_snd_ite (modRequest_canonical h) (rearmBusy_canonical (endRequest_canonical h))

theorem closeSession_canonical {tag} (h : Canonical s) : Canonical (closeSession s tag).2 := by
  unfold closeSession
  split
  · exact h
  · exact canonical_ite (modSession_canonical h) (freeSession_canonical h)

theorem serviceCommand_canonical {cmd} (h : Canonical s) : Canonical (serviceCommand s cmd).2 := by
  unfold serviceCommand
  refine canonical_snd_ite ?_ ?_
  · exact State.setNum_canonical h
  · dsimp only
    exact State.setNum_canonical (canonical_snd_ite (cancelRequest_canonical h) (closeSession_canonical h))

theorem settleCommand_canonical (h : Canonical s) : Canonical (settleCommand s).2 :=
  canonical_snd_ite h (canonical_snd_ite h (canonical_snd_ite h (settleRecords_canonical h)))

theorem adoptRecord_canonical {part o} (h : Canonical s) : Canonical (adoptRecord s part o) := by
  unfold adoptRecord
  extract_lets +onlyGivenNames r seed jsn ctx n r1 t
  have ht : Canonical t := modJournal_canonical h
  clear_value t
  split
  next u num mismatch e =>
    have hu : Canonical u := by
      refine canonical_of_fst_eq e ?_
      refine canonical_fst_ite ht ?_
      split
      · exact modSession_canonical ht
      · split
        · exact tableFull_canonical ht
        next v _ e1 =>
          have hv := (openSession_canonical ht).get e1
          dsimp only
          split
          · exact hv
          · exact modSession_canonical (jNote_canonical (modJournal_canonical hv))
    clear_value r1
    have hw {rs l} : Canonical (jNote (noteBusy { u with requests := rs }) l) := jNote_canonical (noteBusy_canonical hu)
    exact canonical_ite (endRequest_canonical hw) (canonical_ite (endRequest_canonical hw)
      (canonical_ite (endRequest_canonical hw) hw))

theorem adoptCommand_canonical (h : Canonical s) : Canonical (adoptCommand s).2 := by
  unfold adoptCommand
  refine canonical_snd_ite ?_ ?_
  · exact h
  · refine canonical_snd_ite ?_ ?_
    · exact h
    · refine canonical_snd_ite ?_ ?_
      · exact h
      · extract_lets _ _ _ t1 _ t3 t5 t7
        have k2 : Canonical t1 := canonical_foldl (fun _ _ => adoptRecord_canonical) h
        clear_value t1
        have k4 : Canonical t3 := State.setNum_canonical (State.setNum_canonical k2)
        have k6 : Canonical t5 := State.setBlob_canonical k4
        have k8 : Canonical t7 := State.setNum_canonical (modJournal_canonical k6)
        exact settleAll_canonical (refreshNeeded_canonical (State.raise_canonical k8))

theorem journalCommand_canonical {cmd} (h : Canonical s) : Canonical (journalCommand s cmd).2 := by
  unfold journalCommand
  dsimp only
  exact State.setNum_canonical (canonical_snd_ite (settleCommand_canonical h) (adoptCommand_canonical h))

/-! ### `Machine/Requests.lean` -/

theorem ackIf_canonical {live seq type status} (h : Canonical s) : Canonical (ackIf live s seq type status) :=
  canonical_ite (sendAck_canonical h) h

theorem dropSegs_canonical {id} (h : Canonical s) : Canonical (dropSegs s id) := h

theorem alreadyDone_canonical {id cause} (h : Canonical s) : Canonical (alreadyDone s id cause) :=
  sendConfirmed_canonical h

theorem sessionRetry_canonical {n} (h : Canonical s) : Canonical (sessionRetry s n).2 := by
  unfold sessionRetry
  dsimp only
  split
  · exact h
  · exact State.drawNat_canonical h

theorem joinSession_canonical {hd context} (h : Canonical s) : Canonical (joinSession s hd context).2 := by
  unfold joinSession
  dsimp only
  split
  · exact canonical_snd_ite h (canonical_snd_ite (sessionRetry_canonical h) (modSession_canonical h))
  · refine canonical_snd_ite (canonical_snd_ite (State.drawNat_canonical (n := 2 ^ 32) h) h) ?_
    split
    next _ _ e => exact (openSession_canonical h).get e
    · exact tableFull_canonical h

theorem judgeRequest_canonical {hd bad} (h : Canonical s) : Canonical (judgeRequest s hd bad).2 :=
  canonical_snd_ite h (canonical_snd_ite h
    (canonical_snd_ite (countRefusal_canonical h) (canonical_snd_ite h (joinSession_canonical h))))

theorem journalled_canonical {jsn seq} (h : Canonical s) : Canonical (journalled s jsn seq) :=
  canonical_ite (modRequest_canonical h)
    (canonical_ite (modRequest_canonical (canonical_ite h (State.inc_canonical h)))
      (sendAck_canonical (canonical_ite h (State.inc_canonical h))))

theorem releaseAcks_canonical (h : Canonical s) : Canonical (releaseAcks s) :=
  canonical_ite h (canonical_foldl (fun _ _ k0 => sendAck_canonical (modRequest_canonical k0)) h)

theorem commitRequest_canonical {s0 hd data bad seq live} (h : Canonical s0) : Canonical
    (commitRequest s0 hd data bad seq live) := by
  unfold commitRequest
  dsimp -zeta only
  extract_lets +onlyGivenNames _ _ _ _ _
  split
  · exact ackIf_canonical (State.raise_canonical h)
  next t0 e1 =>
    have k2 := (jAppendAll_canonical (judgeRequest_canonical h)).get e1
    extract_lets _ t3 t5
    have k4 : Canonical t3 := settleAll_canonical (State.inc_canonical k2)
    have k6 : Canonical t5 := journalled_canonical (ackIf_canonical k4)
    exact canonical_ite (noteBusy_canonical k6) (endRequest_canonical k6)

theorem wholeRequest_canonical {q seq live} (h : Canonical s) : Canonical (wholeRequest s q seq live) := by
  unfold wholeRequest
  dsimp only
  split
  · exact canonical_ite (modRequest_canonical (ackIf_canonical (State.inc_canonical h)))
      (sendAck_canonical (ackIf_canonical (State.inc_canonical h)))
  · exact alreadyDone_canonical (sendAck_canonical (ackIf_canonical (State.inc_canonical h)))
  · exact canonical_ite (ackIf_canonical h) (commitRequest_canonical (State.inc_canonical h))
  · exact canonical_ite (ackIf_canonical h) (commitRequest_canonical h)

theorem serviceIn_canonical {seq live payload} (h : Canonical s) : Canonical (serviceIn s seq live payload) :=
  canonical_ite (ackIf_canonical h)
    (canonical_ite (ackIf_canonical (State.inc_canonical h))
      (canonical_ite (ackIf_canonical (dropSegs_canonical h))
        (canonical_ite (ackIf_canonical h) (wholeRequest_canonical h))))

theorem execSvcReq_canonical {seq payload} (h : Canonical s) : CanonicalNext (execSvcReq seq payload s) :=
  canonicalNext_next (serviceIn_canonical (heard_canonical h))

theorem execSegmentTimeout_canonical {requestId} (h : Canonical s) : CanonicalNext (execSegmentTimeout requestId s) :=
    by
  unfold execSegmentTimeout
  split
  · exact canonicalNext_next h
  · exact canonicalNext_ite (canonicalNext_next (State.inc_canonical (dropSegs_canonical h))) (canonicalNext_next h)

/-! ### `Machine/Recovery.lean` -/

theorem saveLife_canonical (h : Canonical s) : Canonical (saveLife s) :=
  canonical_of_eq (State.save_canonical
    (State.addSaved_canonical (State.addSaved_canonical (State.addSaved_canonical h)))) rfl rfl

theorem execLifeDataSave_canonical (h : Canonical s) : CanonicalNext (execLifeDataSave s) :=
  canonicalNext_ite (canonicalNext_next (saveLife_canonical h)) (canonicalNext_next h)

theorem execTrimSave_canonical (h : Canonical s) : CanonicalNext (execTrimSave s) :=
  canonicalNext_ite (canonicalNext_next h) (canonicalNext_next (State.setNum_canonical (modAnalog_canonical h)))

theorem execPowerFail_canonical (h : Canonical s) : CanonicalNext (execPowerFail s) := by
  unfold execPowerFail
  refine canonicalNext_ite ?_ ?_
  · exact canonicalNext_next h
  · refine canonicalNext_ite ?_ ?_
    · exact canonicalNext_next (modPower_canonical h)
    · refine canonicalNext_ite ?_ ?_
      · exact canonicalNext_next h
      · extract_lets +onlyGivenNames _ _ _ t1 t3 t5
        have k2 : Canonical t1 := canonical_foldl (fun _ _ => abortTask_canonical) h
        clear_value t1
        have k4 : Canonical t3 := settleLight_canonical (canonical_foldl (fun _ _ => stopFacet_canonical) k2)
        clear_value t3
        have k6 : Canonical t5 := canonical_getD (jAppend_canonical k4) k4
        dsimp -zeta only
        extract_lets t7
        have k8 : Canonical t7 := State.setSaved_canonical
          (State.setSaved_canonical (State.addSaved_canonical (State.drawNat_canonical k6)))
        exact canonicalNext_next (canonical_of_eq (saveLife_canonical k8) rfl rfl)

theorem execPowerReturn_canonical (h : Canonical s) : CanonicalNext (execPowerReturn s) :=
  canonicalNext_ite (canonicalNext_next h)
    (canonicalNext_ite (canonicalNext_next (restartDevice_canonical (modPower_canonical h)))
      (canonicalNext_next (modPower_canonical h)))

theorem execSupplyDip_canonical {supply} (h : Canonical s) : CanonicalNext (execSupplyDip supply s) := by
  unfold execSupplyDip
  refine canonicalNext_ite ?_ ?_
  · exact canonicalNext_next h
  · extract_lets t0
    have k1 : Canonical t0 := by
      unfold t0
      split
      · exact State.inc_canonical (setRail_canonical h)
      · exact h
    exact canonicalNext_next (canonical_foldl
      (fun _ _ k2 => canonical_ite (modFacet_canonical (modFacet_canonical (stopFacet_canonical k2)))
        (modFacet_canonical (stopFacet_canonical k2))) k1)

theorem dipOver_canonical {n ticks lost} (h : Canonical s) : Canonical (dipOver s n ticks lost) := by
  unfold dipOver
  extract_lets _ _ _ t0
  have k1 : Canonical t0 := releaseFreeze_canonical h
  exact canonical_foldl (fun _ _ k2 => canonical_ite
    (canonical_ite (modFacet_canonical (canonical_ite k2 (chargeFacet_canonical k2)))
      (canonical_ite k2 (chargeFacet_canonical k2)))
        (canonical_ite (resumeFacet_canonical
          (canonical_ite (predictRings_canonical
            (canonical_foldl (fun _ _ => modFacet_canonical)
              (modFacet_canonical (canonical_ite (modFacet_canonical (canonical_ite k2 (chargeFacet_canonical k2)))
                (canonical_ite k2 (chargeFacet_canonical k2))))))
                  (canonical_foldl (fun _ _ => modFacet_canonical)
                    (modFacet_canonical (canonical_ite
                      (modFacet_canonical (canonical_ite k2 (chargeFacet_canonical k2)))
                        (canonical_ite k2 (chargeFacet_canonical k2)))))))
                          (startRelock_canonical (canonical_foldl (fun _ _ => modFacet_canonical)
                            (modFacet_canonical (canonical_ite
                              (modFacet_canonical (canonical_ite k2 (chargeFacet_canonical k2)))
                                (canonical_ite k2 (chargeFacet_canonical k2)))))))) k1

theorem execDipEnd_canonical {supply micros lost} (h : Canonical s) : CanonicalNext
    (execDipEnd supply micros lost s) := by
  unfold execDipEnd
  refine canonicalNext_ite ?_ ?_
  · exact canonicalNext_next h
  · extract_lets t0 t2 t4
    have k1 : Canonical t0 := by
      unfold t0
      split
      · exact setRail_canonical h
      · exact h
    have k3 : Canonical t2 := State.faultRetried_canonical (State.raiseTo_canonical (State.inc_canonical k1))
    have k5 : Canonical t4 := releaseAcks_canonical (dipOver_canonical k3)
    exact canonicalNext_next (modPower_canonical k5)

theorem execLongDip_canonical {supply} (h : Canonical s) : CanonicalNext (execLongDip supply s) := by
  unfold execLongDip
  extract_lets +onlyGivenNames _
  split
  · exact canonicalNext_next h
  · refine canonicalNext_ite ?_ ?_
    · exact canonicalNext_next h
    · extract_lets _ t0 _ t3
      have k1 : Canonical t0 := State.raise_canonical (State.inc_canonical h)
      have k4 : Canonical t3 := canonical_foldl (fun _ _ => abortTask_canonical) k1
      clear_value t3
      exact canonicalNext_next (settleAllFacets_canonical (recertify_canonical k4))

theorem execResetLevelCrossing_canonical {supply} (h : Canonical s) : CanonicalNext (execResetLevelCrossing supply s) := by
  unfold execResetLevelCrossing
  refine canonicalNext_ite (canonicalNext_next h) (canonicalNext_ite (canonicalNext_next (State.inc_canonical h)) ?_)
  extract_lets +onlyGivenNames u
  have hu : Canonical u := dipOver_canonical (State.inc_canonical h)
  have hr {n} : Canonical (restartDevice u n) := restartDevice_canonical hu
  clear_value u
  cases supply with
  | rail r =>
    refine canonicalNext_ite (canonicalNext_next hr) (canonicalNext_ite (canonicalNext_next ?_) ?_)
    · exact canonical_of_eq (hr (n := 4)) rfl rfl
    · exact canonicalNext_next (loseRail_canonical (setRail_canonical hu))
  | digital f => exact canonicalNext_next (loseDomain_canonical hu)
  | analogue f => exact canonicalNext_next (loseDomain_canonical hu)

theorem execSupervisorMismatch_canonical (h : Canonical s) : CanonicalNext (execSupervisorMismatch s) :=
  canonicalNext_ite (canonicalNext_next h) (canonicalNext_next (enterSafe_canonical h))

theorem execJournalRelocate_canonical {count} (h : Canonical s) : CanonicalNext (execJournalRelocate count s) := by
  unfold execJournalRelocate
  refine canonicalNext_ite ?_ ?_
  · exact canonicalNext_next h
  · dsimp only
    exact canonicalNext_next (State.add_canonical
      (canonical_foldl (fun _ _ k4 => canonical_getD (jAppend_canonical k4) k4)
        (modJournal_canonical (canonical_foldl_fst (fun _ _ k0 => by
    split
    next t1 e2 =>
      have k3 := (jAppend_canonical k0).get e2
      exact k3
    · exact k0) h))))

/-! ### `Machine/FrameStart.lean` -/

theorem reclaimSessions_canonical (h : Canonical s) : Canonical (reclaimSessions s) :=
  canonical_foldl (fun _ _ k0 => State.inc_canonical (freeSession_canonical k0)) h

theorem noteSent_canonical {r} (h : Canonical s) : Canonical (noteSent s r) :=
  modRequest_canonical (jFree_canonical (jNote_canonical h))

theorem writeSent_canonical (h : Canonical s) : Canonical (writeSent s) :=
  settleAll_canonical (canonical_foldl (fun _ _ => noteSent_canonical) h)

theorem frameWork_canonical (h : Canonical s) : Canonical (frameWork s) := by
  unfold frameWork
  extract_lets _ t0 t2
  have k1 : Canonical t0 := throttleFrame_canonical
    (slotCapFrame_canonical (notePower_canonical (crossCheck_canonical (heldRoles_canonical h))))
  have k3 : Canonical t2 := headroomFrame_canonical (sourceFrame_canonical (heldFrame_canonical k1))
  exact writeSent_canonical (reclaimSessions_canonical k3)

theorem execFrameStart_canonical (h : Canonical s) : CanonicalNext (execFrameStart s) :=
  canonicalNext_ite (canonicalNext_next (frameWork_canonical h)) (canonicalNext_next h)

end Sys2Proof.Machine
end

section
/-! PROOFS. The canonical form is kept, file by file of the model: Machine/Views.lean to Machine/Step.lean. -/

namespace Sys2Proof.Machine

variable {s : State}


/-! ### `Machine/Views.lean` -/

theorem sampleOne_canonical {index sub} (h : Canonical s) : Canonical (sampleOne s index sub) := by
  unfold sampleOne
  extract_lets +onlyGivenNames _
  split
  · refine canonical_ite h ?_
    split
    next n _ _ _ _ _ t e =>
      have ht : Canonical t := canonical_of_snd_eq e (State.drawNat_canonical h)
      refine canonical_ite (State.setBlob_canonical ht) ?_
      have hu {b} : Canonical (({ t with sampled := sparsePut (fun _ => t.sampledFrom) t.sampled (256 * index + sub) t.up }).setNum
          (256 * index + sub) b) := State.setNum_canonical ht
      exact canonical_ite (State.faultCorrected_canonical hu) hu
  · exact h

theorem sampleFree_canonical {index sub} (h : Canonical s) : Canonical (sampleFree s index sub) :=
  canonical_ite (canonical_foldl (fun _ _ => sampleOne_canonical) h) (sampleOne_canonical h)

theorem readObject_canonical {index sub} (h : Canonical s) : Canonical (readObject s index sub).2 := by
  unfold readObject
  dsimp only
  split
  · exact canonical_snd_ite (canonical_of_eq (State.setVal_canonical (sampleFree_canonical h)) rfl rfl)
      (sampleFree_canonical h)
  · exact sampleFree_canonical h

theorem catSelect_canonical {v} (h : Canonical s) : Canonical (catSelect s v) :=
  State.setNum_canonical (State.setBlob_canonical (State.setNum_canonical (State.setNum_canonical h)))

theorem tableSelect_canonical {v} (h : Canonical s) : Canonical (tableSelect s v) :=
  State.setBlob_canonical (State.setNum_canonical h)

theorem streamSelect_canonical {v} (h : Canonical s) : Canonical (streamSelect s v) :=
  State.setBlob_canonical (State.setNum_canonical h)

theorem ctxSelect_canonical {v} (h : Canonical s) : Canonical (ctxSelect s v) :=
  canonical_foldl (fun _ _ => State.setNum_canonical) h

theorem placeSelect_canonical {v} (h : Canonical s) : Canonical (placeSelect s v) :=
  State.setBlob_canonical (State.setNum_canonical h)

theorem sessionSelect_canonical {tag} (h : Canonical s) : Canonical (sessionSelect s tag) :=
  canonical_foldl (fun _ _ => State.setNum_canonical) (State.setNum_canonical h)

theorem ringSelect_canonical {v} (h : Canonical s) : Canonical (ringSelect s v) :=
  State.setNum_canonical (State.setNum_canonical h)

theorem sensorSelect_canonical {i} (h : Canonical s) : Canonical (sensorSelect s i) :=
  State.setBlob_canonical (State.setNum_canonical h)

/-! ### `Machine/Writes.lean` -/

theorem plainWrite_canonical {oid d v} (h : Canonical s) : Canonical (plainWrite s oid d v) :=
  canonical_ite (State.save_canonical (State.setVal_canonical h)) (State.setVal_canonical h)

theorem ctxWord_canonical {v} (h : Canonical s) : Canonical (ctxWord s v).2 := ctxCommand_canonical h

theorem cacheWrite_canonical {n} (h : Canonical s) : Canonical (cacheWrite s n) :=
  canonical_of_eq (State.setNum_canonical h) rfl rfl

theorem standInWrite_canonical {v} (h : Canonical s) : Canonical (standInWrite s v) :=
  modGang_canonical (State.setNum_canonical h)

theorem routeWrite_canonical {v} (h : Canonical s) : Canonical (routeWrite s v) :=
  routesChanged_canonical (State.raise_canonical (recertify_canonical (State.setBlob_canonical h)))

theorem freeCodes_canonical (h : Canonical s) : Canonical (freeCodes s).2 := h

theorem calCommand_canonical {n codes} (h : Canonical s) : Canonical (calCommand s n codes).2 := by
  unfold calCommand
  extract_lets drawn r
  have hd : Canonical drawn.2 := by
    unfold drawn
    split
    · exact h
    · exact freeCodes_canonical h
  clear_value drawn
  refine calDone_canonical ?_
  split
  · exact calZero_canonical hd
  · exact calFullScale_canonical hd
  · exact calClear_canonical h

theorem triggerCommand_canonical {b} (h : Canonical s) : Canonical (triggerCommand s b).2 :=
  State.setNum_canonical (canonical_snd_ite h (triggerOut_canonical h))

theorem defaultEffect_canonical {oid} (h : Canonical s) : Canonical (defaultEffect s oid) := by
  unfold defaultEffect
  refine canonical_ite ?_ ?_
  · exact aoutCode_canonical h
  · refine canonical_ite ?_ ?_
    · exact spanWrite_canonical h
    · refine canonical_ite ?_ ?_
      · exact peerEnable_canonical h
      · split
        · exact cacheWrite_canonical h
        · exact inputBits_canonical h
        · exact writeSourceMap_canonical h
        · exact railTable_canonical h
        · exact startPeers_canonical h
        · exact mirrorResync_canonical h
        · exact routesChanged_canonical (State.raise_canonical h)
        · exact h

theorem factoryDefaults_canonical (h : Canonical s) : Canonical (factoryDefaults s) :=
  canonical_foldl (fun _ _ => defaultEffect_canonical) (factoryValues_canonical h)

theorem applyWrite_canonical {index sub d v codes} (h : Canonical s) : Canonical
    (applyWrite s index sub d v codes).2 := by
  unfold applyWrite
  dsimp only
  split
  · exact nodeCommand_canonical h
  · exact canonical_ite (factoryDefaults_canonical h) h
  · exact catSelect_canonical h
  · exact laneRestore_canonical h
  · exact expertEnable_canonical h
  · exact timeReset_canonical h
  · exact tableSelect_canonical h
  · exact takePeek_canonical h
  · exact streamSelect_canonical h
  · exact canonical_ite (State.save_canonical (cacheWrite_canonical h)) (cacheWrite_canonical h)
  · exact ctxWord_canonical h
  · exact h
  · exact ctxSelect_canonical h
  · exact placeSelect_canonical h
  · exact sessionSelect_canonical h
  · exact serviceCommand_canonical h
  · exact canonical_ite (State.save_canonical (inputEnable_canonical h)) (inputEnable_canonical h)
  · exact canonical_ite (State.save_canonical (writeSourceMap_canonical h)) (writeSourceMap_canonical h)
  · exact ringSelect_canonical h
  · exact canonical_ite (State.save_canonical (railTable_canonical h)) (railTable_canonical h)
  · exact sensorSelect_canonical h
  · exact urgentRequest_canonical h
  · exact calCommand_canonical h
  · exact canonical_ite (State.save_canonical (aoutCode_canonical h)) (aoutCode_canonical h)
  · exact canonical_ite (State.save_canonical (spanWrite_canonical h)) (spanWrite_canonical h)
  · exact triggerCommand_canonical h
  · exact startPeers_canonical (plainWrite_canonical h)
  · exact mirrorResync_canonical (plainWrite_canonical h)
  · exact canonical_ite (State.save_canonical (standInWrite_canonical h)) (standInWrite_canonical h)
  · exact canonical_ite (State.save_canonical (peerEnable_canonical h)) (peerEnable_canonical h)
  · exact peerLaneRestore_canonical h
  · exact canonical_ite (State.save_canonical (routeWrite_canonical h)) (routeWrite_canonical h)
  · exact journalCommand_canonical h
  · exact canonical_snd_ite h (canonical_snd_ite h (commitImage_canonical h))
  · exact writeImage_canonical h
  · exact writeNonce_canonical h
  · exact plainWrite_canonical h

theorem refusedWrite_canonical {index sub r b} (h : Canonical s) : Canonical (refusedWrite s index sub r b) := by
  unfold refusedWrite
  refine canonical_ite ?_ ?_
  · exact h
  · split
    · exact State.setNum_canonical h
    · exact ctxRefused_canonical h
    · exact State.setNum_canonical h
    · exact State.setNum_canonical h
    · exact State.setNum_canonical h
    · exact h

theorem writeObject_canonical {index sub b codes} (h : Canonical s) : Canonical (writeObject s index sub b codes).2 :=
    by
  unfold writeObject
  refine canonical_snd_ite ?_ ?_
  · exact refusedWrite_canonical h
  · split
    · exact applyWrite_canonical h
    · exact h

theorem modXfer_canonical {x v} (h : Canonical s) : Canonical (modXfer s x v) := h

theorem endXfer_canonical {x} (h : Canonical s) : Canonical (endXfer s x) := by
  unfold endXfer
  split
  · exact sendResp_canonical (modXfer_canonical h)
  · refine canonical_ite ?_ ?_
    · exact h
    · split
      · exact h
      · exact sendResp_canonical h

theorem sendSegs_canonical {x total n off b} (h : Canonical s) : Canonical (sendSegs x total n off b s) := by
  induction n generalizing s off b with
  | zero => exact h
  | succ n ih => exact canonical_ite h (ih (sendConfirmed_canonical h))

theorem deliverRead_canonical {x index sub} (h : Canonical s) : Canonical (deliverRead s x index sub) := by
  unfold deliverRead
  extract_lets +onlyGivenNames t0
  have k1 : Canonical t0 := endXfer_canonical (heard_canonical h)
  refine canonical_ite ?_ ?_
  · exact sendResp_canonical k1
  · dsimp -zeta only
    extract_lets _ t2
    have k3 : Canonical t2 := sendResp_canonical (readObject_canonical k1)
    exact sendSegs_canonical (canonical_ite k3 k3)

theorem restartAfter_canonical {index sub r b} (h : Canonical s) : Canonical (restartAfter s index sub r b) :=
  canonical_ite (restartDevice_canonical h) h

theorem deliverWrite_canonical {x index sub b codes} (h : Canonical s) : Canonical
    (deliverWrite s x index sub b codes) := by
  unfold deliverWrite
  dsimp only
  exact restartAfter_canonical (sendResp_canonical (writeObject_canonical (endXfer_canonical (heard_canonical h))))

theorem frameMalformed_canonical (h : Canonical s) : Canonical (frameMalformed s) :=
  State.inc_canonical (heard_canonical h)

theorem beginWrite_canonical {x index sub total b} (h : Canonical s) : Canonical (beginWrite s x index sub total b) :=
  canonical_ite (deliverWrite_canonical h) (modXfer_canonical (endXfer_canonical (heard_canonical h)))

theorem segment_canonical {x offset total b} (h : Canonical s) : Canonical (segment s x offset total b) := by
  unfold segment
  split
  · exact frameMalformed_canonical h
  · exact canonical_ite (frameMalformed_canonical h)
      (canonical_ite (modXfer_canonical (heard_canonical h)) (deliverWrite_canonical (modXfer_canonical h)))

/-! ### `Machine/ParamRows.lean` -/

theorem execParamWrite_canonical {x index sub total value} (h : Canonical s) : CanonicalNext
    (execParamWrite x index sub total value s) :=
  canonicalNext_ite (canonicalNext_next (frameMalformed_canonical h)) (canonicalNext_next (beginWrite_canonical h))

theorem execRcRead_canonical {x index sub} (h : Canonical s) : CanonicalNext (execRcRead x index sub s) :=
  canonicalNext_next (deliverRead_canonical h)

theorem execParamAbort_canonical {x} (h : Canonical s) : CanonicalNext (execParamAbort x s) :=
  canonicalNext_next (endXfer_canonical (heard_canonical h))

theorem execParamSeg_canonical {x offset total payload} (h : Canonical s) : CanonicalNext
    (execParamSeg x offset total payload s) :=
  canonicalNext_next (segment_canonical h)

theorem execXferTimeout_canonical {x} (h : Canonical s) : CanonicalNext (execXferTimeout x s) := by
  unfold execXferTimeout
  split
  · exact canonicalNext_next h
  · exact canonicalNext_ite (canonicalNext_next (endXfer_canonical h)) (canonicalNext_next h)

theorem execConfigure_canonical {x} (h : Canonical s) : CanonicalNext (execConfigure x s) :=
  canonicalNext_next (deliverWrite_canonical h)

theorem execServe_canonical {x} (h : Canonical s) : CanonicalNext (execServe x s) :=
  canonicalNext_next (deliverWrite_canonical h)

theorem execQuiesce_canonical {x} (h : Canonical s) : CanonicalNext (execQuiesce x s) :=
  canonicalNext_next (deliverWrite_canonical h)

theorem execQuiesceNow_canonical {x} (h : Canonical s) : CanonicalNext (execQuiesceNow x s) :=
  canonicalNext_next (deliverWrite_canonical h)

theorem execInspect_canonical {x} (h : Canonical s) : CanonicalNext (execInspect x s) :=
  canonicalNext_next (deliverWrite_canonical h)

theorem execSafe_canonical {x} (h : Canonical s) : CanonicalNext (execSafe x s) :=
  canonicalNext_next (deliverWrite_canonical h)

theorem execRestart_canonical {x} (h : Canonical s) : CanonicalNext (execRestart x s) :=
  canonicalNext_next (deliverWrite_canonical h)

theorem execExpertEnable_canonical {x v} (h : Canonical s) : CanonicalNext (execExpertEnable x v s) :=
  canonicalNext_next (deliverWrite_canonical h)

theorem execFactoryDefaults_canonical {x v} (h : Canonical s) : CanonicalNext (execFactoryDefaults x v s) :=
  canonicalNext_next (deliverWrite_canonical h)

theorem execCatSelect_canonical {x v} (h : Canonical s) : CanonicalNext (execCatSelect x v s) :=
  canonicalNext_next (deliverWrite_canonical h)

theorem execLaneRestore_canonical {x port v} (h : Canonical s) : CanonicalNext (execLaneRestore x port v s) :=
  canonicalNext_next (deliverWrite_canonical h)

theorem execPeerLaneRestore_canonical {x p v} (h : Canonical s) : CanonicalNext (execPeerLaneRestore x p v s) :=
  canonicalNext_next (deliverWrite_canonical h)

theorem execBuddyWrite_canonical {x v} (h : Canonical s) : CanonicalNext (execBuddyWrite x v s) :=
  canonicalNext_next (deliverWrite_canonical h)

theorem execRouteWrite_canonical {x v} (h : Canonical s) : CanonicalNext (execRouteWrite x v s) :=
  canonicalNext_next (deliverWrite_canonical h)

theorem execStandInWrite_canonical {x v} (h : Canonical s) : CanonicalNext (execStandInWrite x v s) :=
  canonicalNext_next (deliverWrite_canonical h)

theorem execRegister_canonical {x a} (h : Canonical s) : CanonicalNext (execRegister x a s) :=
  canonicalNext_next (deliverWrite_canonical h)

theorem execDeregister_canonical {x a} (h : Canonical s) : CanonicalNext (execDeregister x a s) :=
  canonicalNext_next (deliverWrite_canonical h)

theorem execBuild_canonical {x a} (h : Canonical s) : CanonicalNext (execBuild x a s) :=
  canonicalNext_next (deliverWrite_canonical h)

theorem execSwitch_canonical {x a} (h : Canonical s) : CanonicalNext (execSwitch x a s) :=
  canonicalNext_next (deliverWrite_canonical h)

theorem execDiscard_canonical {x a} (h : Canonical s) : CanonicalNext (execDiscard x a s) :=
  canonicalNext_next (deliverWrite_canonical h)

theorem execRepair_canonical {x a} (h : Canonical s) : CanonicalNext (execRepair x a s) :=
  canonicalNext_next (deliverWrite_canonical h)

theorem execAbandon_canonical {x a} (h : Canonical s) : CanonicalNext (execAbandon x a s) :=
  canonicalNext_next (deliverWrite_canonical h)

theorem execStore_canonical {x a} (h : Canonical s) : CanonicalNext (execStore x a s) :=
  canonicalNext_next (deliverWrite_canonical h)

theorem execUnstore_canonical {x a} (h : Canonical s) : CanonicalNext (execUnstore x a s) :=
  canonicalNext_next (deliverWrite_canonical h)

theorem execCtxDesc_canonical {x v} (h : Canonical s) : CanonicalNext (execCtxDesc x v s) :=
  canonicalNext_next (deliverWrite_canonical h)

theorem execCtxSelect_canonical {x v} (h : Canonical s) : CanonicalNext (execCtxSelect x v s) :=
  canonicalNext_next (deliverWrite_canonical h)

theorem execPlaceSelect_canonical {x v} (h : Canonical s) : CanonicalNext (execPlaceSelect x v s) :=
  canonicalNext_next (deliverWrite_canonical h)

theorem execCancel_canonical {x} (h : Canonical s) : CanonicalNext (execCancel x s) :=
  canonicalNext_next (deliverWrite_canonical h)

theorem execClose_canonical {x} (h : Canonical s) : CanonicalNext (execClose x s) :=
  canonicalNext_next (deliverWrite_canonical h)

theorem execSessionSelect_canonical {x tag} (h : Canonical s) : CanonicalNext (execSessionSelect x tag s) :=
  canonicalNext_next (deliverWrite_canonical h)

theorem execTimeReset_canonical {x v} (h : Canonical s) : CanonicalNext (execTimeReset x v s) :=
  canonicalNext_next (deliverWrite_canonical h)

theorem execTableSelect_canonical {x v} (h : Canonical s) : CanonicalNext (execTableSelect x v s) :=
  canonicalNext_next (deliverWrite_canonical h)

theorem execPeek_canonical {x v} (h : Canonical s) : CanonicalNext (execPeek x v s) :=
  canonicalNext_next (deliverWrite_canonical h)

theorem execStreamSelect_canonical {x v} (h : Canonical s) : CanonicalNext (execStreamSelect x v s) :=
  canonicalNext_next (deliverWrite_canonical h)

theorem execInputEnable_canonical {x v} (h : Canonical s) : CanonicalNext (execInputEnable x v s) :=
  canonicalNext_next (deliverWrite_canonical h)

theorem execSourceMap_canonical {x v} (h : Canonical s) : CanonicalNext (execSourceMap x v s) :=
  canonicalNext_next (deliverWrite_canonical h)

theorem execRingSelect_canonical {x v} (h : Canonical s) : CanonicalNext (execRingSelect x v s) :=
  canonicalNext_next (deliverWrite_canonical h)

theorem execSettle_canonical {x} (h : Canonical s) : CanonicalNext (execSettle x s) :=
  canonicalNext_next (deliverWrite_canonical h)

theorem execAdopt_canonical {x} (h : Canonical s) : CanonicalNext (execAdopt x s) :=
  canonicalNext_next (deliverWrite_canonical h)

theorem execRailTable_canonical {x v} (h : Canonical s) : CanonicalNext (execRailTable x v s) :=
  canonicalNext_next (deliverWrite_canonical h)

theorem execSensorSelect_canonical {x v} (h : Canonical s) : CanonicalNext (execSensorSelect x v s) :=
  canonicalNext_next (deliverWrite_canonical h)

theorem execUrgent_canonical {x v} (h : Canonical s) : CanonicalNext (execUrgent x v s) :=
  canonicalNext_next (deliverWrite_canonical h)

theorem execCalZero_canonical {x codes} (h : Canonical s) : CanonicalNext (execCalZero x codes s) :=
  canonicalNext_next (deliverWrite_canonical h)

theorem execCalFullScale_canonical {x codes} (h : Canonical s) : CanonicalNext (execCalFullScale x codes s) :=
  canonicalNext_next (deliverWrite_canonical h)

theorem execCalClear_canonical {x} (h : Canonical s) : CanonicalNext (execCalClear x s) :=
  canonicalNext_next (deliverWrite_canonical h)

theorem execAoutCode_canonical {x k v} (h : Canonical s) : CanonicalNext (execAoutCode x k v s) :=
  canonicalNext_next (deliverWrite_canonical h)

theorem execSpan_canonical {x k v} (h : Canonical s) : CanonicalNext (execSpan x k v s) :=
  canonicalNext_next (deliverWrite_canonical h)

theorem execTrigger_canonical {x v} (h : Canonical s) : CanonicalNext (execTrigger x v s) :=
  canonicalNext_next (deliverWrite_canonical h)

theorem execNonce_canonical {x v} (h : Canonical s) : CanonicalNext (execNonce x v s) :=
  canonicalNext_next (deliverWrite_canonical h)

theorem execImageData_canonical {x v} (h : Canonical s) : CanonicalNext (execImageData x v s) :=
  canonicalNext_next (deliverWrite_canonical h)

theorem execCommit_canonical {x v} (h : Canonical s) : CanonicalNext (execCommit x v s) :=
  canonicalNext_next (deliverWrite_canonical h)

/-! ### `Machine/Ring.lean` -/

theorem resendFrame_canonical {t sync} (h : Canonical s) : Canonical (resendFrame s t sync) :=
  State.inc_canonical (sendOwn_canonical h)

theorem modUnacked_canonical {g} (h : Canonical s) : Canonical (modUnacked s g) := h

theorem resyncTx_canonical (h : Canonical s) : Canonical (resyncTx s) :=
  canonical_foldl (fun _ _ => resendFrame_canonical) (modUnacked_canonical h)

theorem responseAcked_canonical {f} (h : Canonical s) : Canonical (responseAcked s f) := releaseOutput_canonical h

theorem ackIn_canonical {seq status} (h : Canonical s) : Canonical (ackIn s seq status) := by
  unfold ackIn
  split
  · exact h
  · exact canonical_ite (State.inc_canonical h)
      (canonical_ite (resyncTx_canonical h)
        (pumpTx_canonical (canonical_ite (responseAcked_canonical (modUnacked_canonical h))
          (modUnacked_canonical h))))

theorem execAck_canonical {ackedSeq status} (h : Canonical s) : CanonicalNext (execAck ackedSeq status s) :=
  canonicalNext_next (ackIn_canonical (heard_canonical h))

theorem execRetxTimeout_canonical {seq} (h : Canonical s) : CanonicalNext (execRetxTimeout seq s) := by
  unfold execRetxTimeout
  split
  · exact canonicalNext_next h
  · exact canonicalNext_ite (canonicalNext_next (resendFrame_canonical (modUnacked_canonical h)))
      (canonicalNext_next h)

theorem applyEntry_canonical {m e b} (h : Canonical s) : Canonical (applyEntry s m e b) :=
  canonical_ite (writeObject_canonical h) (State.inc_canonical (writeObject_canonical h))

theorem applyEntries_canonical {m es b} (h : Canonical s) : Canonical (applyEntries m es b s) := by
  induction es generalizing s b with
  | nil => exact h
  | cons e es ih => exact ih (applyEntry_canonical h)

theorem applyMap_canonical {m payload} (h : Canonical s) : Canonical (applyMap s m payload) :=
  State.inc_canonical (applyEntries_canonical h)

theorem modCyclic_canonical {g} (h : Canonical s) : Canonical (modCyclic s g) := h

theorem cyclicIn_canonical {m stamp payload} (h : Canonical s) : Canonical (cyclicIn s m stamp payload) :=
  canonical_ite h (canonical_ite (State.inc_canonical h)
    (canonical_ite (State.inc_canonical (applyMap_canonical h))
      (canonical_ite (modCyclic_canonical h) (canonical_ite (State.inc_canonical h) (modCyclic_canonical h)))))

theorem execCyclic_canonical {map stamp payload} (h : Canonical s) : CanonicalNext (execCyclic map stamp payload s) :=
  canonicalNext_next (cyclicIn_canonical (heard_canonical h))

theorem sampleEntry_canonical {e} (h : Canonical s) : Canonical (sampleEntry s e).2 := by
  unfold sampleEntry
  refine canonical_snd_ite ?_ ?_
  · dsimp only
    exact State.drawNat_canonical h
  · dsimp only
    exact readObject_canonical h

theorem sampleEntries_canonical {es} (h : Canonical s) : Canonical (sampleEntries es s).2 := by
  induction es generalizing s with
  | nil => exact h
  | cons e es ih => exact ih (sampleEntry_canonical h)

theorem execCyclicFire_canonical {map} (h : Canonical s) : CanonicalNext (execCyclicFire map s) := by
  unfold execCyclicFire
  refine canonicalNext_ite ?_ ?_
  · dsimp only
    exact canonicalNext_next (State.inc_canonical (sendPlain_canonical (sampleEntries_canonical h)))
  · exact canonicalNext_next h

theorem execCyclicApply_canonical {map} (h : Canonical s) : CanonicalNext (execCyclicApply map s) := by
  unfold execCyclicApply
  split
  · exact canonicalNext_next h
  · exact canonicalNext_next (applyMap_canonical (modCyclic_canonical h))

theorem modEvents_canonical {lnk g} (h : Canonical s) : Canonical (modEvents s lnk g) := h

theorem eventsLost_canonical {lnk} (h : Canonical s) : Canonical (eventsLost s lnk) :=
  canonical_ite h (State.raiseIn_canonical (modEvents_canonical h))

theorem execEventSend_canonical (h : Canonical s) : CanonicalNext (execEventSend s) := by
  unfold execEventSend
  refine canonicalNext_ite ?_ ?_
  · extract_lets _ _ _ t0 t2
    have k1 : Canonical t0 := sendConfirmed_canonical h
    have k3 : Canonical t2 := canonical_ite k1 (eventsLost_canonical k1)
    exact canonicalNext_next (canonical_ite k3 (eventsLost_canonical k3))
  · exact canonicalNext_next h

theorem weightIn_canonical {seq live model stage copy block payload} (h : Canonical s) : Canonical
    (weightIn s seq live model stage copy block payload) := by
  unfold weightIn
  refine canonical_ite ?_ ?_
  · exact ackIf_canonical (State.inc_canonical h)
  · refine canonical_ite ?_ ?_
    · exact ackIf_canonical h
    · dsimp only
      exact ackIf_canonical (weightBlockIn_canonical h)

theorem execWeightBlock_canonical {seq model stage copyId block payload} (h : Canonical s) : CanonicalNext
    (execWeightBlock seq model stage copyId block payload s) :=
  canonicalNext_next (weightIn_canonical (heard_canonical h))

theorem rollCallIn_canonical {dir} (h : Canonical s) : Canonical (rollCallIn s dir) := sendPlain_canonical h

theorem execRollCall_canonical {dir} (h : Canonical s) : CanonicalNext (execRollCall dir s) :=
  canonicalNext_next (rollCallIn_canonical (heard_canonical h))

theorem assignIn_canonical {seq live toOwn serial id ring} (h : Canonical s) : Canonical
    (assignIn s seq live toOwn serial id ring) :=
  canonical_ite (ackIf_canonical (State.inc_canonical h))
    (canonical_ite (canonical_ite (ackIf_canonical h) h)
      (canonical_ite (ackIf_canonical (State.setSaved_canonical (State.setSaved_canonical h))) (ackIf_canonical h)))

theorem execAssign_canonical {seq toOwn serial nodeId ringId} (h : Canonical s) : CanonicalNext
    (execAssign seq toOwn serial nodeId ringId s) :=
  canonicalNext_next (assignIn_canonical (heard_canonical h))

theorem stateWrite_canonical {command} (h : Canonical s) : Canonical (stateWrite s command).2 :=
  writeObject_canonical h

theorem stateIn_canonical {seq live command} (h : Canonical s) : Canonical (stateIn s seq live command) := by
  unfold stateIn
  dsimp -zeta only
  extract_lets t0
  have k1 : Canonical t0 := ackIf_canonical
    (canonical_ite (State.inc_canonical (stateWrite_canonical h)) (stateWrite_canonical h))
  exact canonical_ite (restartDevice_canonical k1) k1

theorem stateAll_canonical {command targets} (h : Canonical s) : Canonical (stateAll s command targets) := by
  unfold stateAll
  refine canonical_ite ?_ ?_
  · exact h
  · dsimp -zeta only
    extract_lets t0
    have k1 : Canonical t0 := canonical_ite (State.inc_canonical (stateWrite_canonical h)) (stateWrite_canonical h)
    exact canonical_ite (restartDevice_canonical k1) k1

theorem execState_canonical {command broadcast targets} (h : Canonical s) : CanonicalNext
    (execState command broadcast targets s) :=
  canonicalNext_ite (canonicalNext_next (stateAll_canonical (heard_canonical h)))
    (canonicalNext_next (stateIn_canonical (heard_canonical h)))

theorem resetIn_canonical {seq live serial kind} (h : Canonical s) : Canonical (resetIn s seq live serial kind) :=
  canonical_ite (ackIf_canonical (State.inc_canonical h))
    (canonical_ite (ackIf_canonical h) (restartDevice_canonical (ackIf_canonical h)))

theorem execReset_canonical {seq serial kind} (h : Canonical s) : CanonicalNext (execReset seq serial kind s) :=
  canonicalNext_next (resetIn_canonical (heard_canonical h))

theorem execHeartbeat_canonical (h : Canonical s) : CanonicalNext (execHeartbeat s) :=
  canonicalNext_ite (canonicalNext_next (sendPlain_canonical h)) (canonicalNext_next h)

theorem execNode0Silent_canonical (h : Canonical s) : CanonicalNext (execNode0Silent s) :=
  canonicalNext_ite (canonicalNext_next (State.raise_canonical h)) (canonicalNext_next h)

theorem foreignIn_canonical {f} (h : Canonical s) : Canonical (foreignIn s f) :=
  canonical_ite (State.inc_canonical h) (State.raise_canonical (canonical_of_eq (State.inc_canonical h) rfl rfl))

theorem deliver_canonical {f live} (h : Canonical s) : Canonical (deliver s f live) := by
  unfold deliver
  dsimp only
  split
  · split
    · exact deliverRead_canonical (ackIf_canonical h)
    · exact beginWrite_canonical (ackIf_canonical h)
    · exact endXfer_canonical (ackIf_canonical h)
  · exact segment_canonical (ackIf_canonical h)
  · exact serviceIn_canonical h
  · exact weightIn_canonical h
  · split
    · exact assignIn_canonical h
    · exact stateIn_canonical h
    · exact canonical_ite (ackIf_canonical h) (resetIn_canonical h)

theorem stateOr_canonical {o} (h : Canonical s) (ho : CanonicalNext o) : Canonical (stateOr s o) := by
  unfold stateOr
  split
  · exact canonicalNext_next_iff.1 ho
  · exact h

theorem consumePlain_canonical {port f} (h : Canonical s) : Canonical (consumePlain s port f) := by
  unfold consumePlain
  dsimp only
  split
  · exact ackIn_canonical h
  · exact cyclicIn_canonical h
  · exact stateOr_canonical (State.drawNat_canonical h) (execTime_canonical (State.drawNat_canonical h))
  · exact canonical_ite (canonical_ite (State.drawNat_canonical h) (State.inc_canonical (State.drawNat_canonical h)))
      (stateOr_canonical (State.drawNat_canonical h) (execProbe_canonical (State.drawNat_canonical h)))
  · exact canonical_ite (rollCallIn_canonical h) (stateAll_canonical h)

theorem setNext_canonical {all n} (h : Canonical s) : Canonical (setNext s all n) := canonical_ite h h

theorem drainHeld_canonical {all n} (h : Canonical s) : Canonical (drainHeld all n s) := by
  induction n generalizing s with
  | zero => exact h
  | succ n ih =>
    unfold drainHeld
    split
    · exact h
    · split
      · exact h
      · exact ih (canonical_ite (setNext_canonical h) (deliver_canonical (setNext_canonical h)))

theorem syncRx_canonical {f} (h : Canonical s) : Canonical (syncRx s f) := canonical_ite (setNext_canonical h) h

theorem answerBad_canonical {f live} (h : Canonical s) : Canonical (answerBad s f live) :=
  canonical_ite (ackIf_canonical h) (ackIf_canonical (State.inc_canonical h))

theorem consumeConfirmed_canonical {f} (h : Canonical s) : Canonical (consumeConfirmed s f) := by
  unfold consumeConfirmed
  extract_lets +onlyGivenNames _ _ _ _ _ _ _
  split
  · exact ackIf_canonical (syncRx_canonical h)
  · refine canonical_ite ?_ ?_
    · extract_lets t0 t2
      have k1 : Canonical t0 := setNext_canonical (syncRx_canonical h)
      have k3 : Canonical t2 := canonical_ite (answerBad_canonical k1) (deliver_canonical k1)
      exact drainHeld_canonical k3
    · exact canonical_ite (ackIf_canonical (syncRx_canonical h))
        (canonical_ite (ackIf_canonical (syncRx_canonical h))
          (canonical_ite (ackIf_canonical (syncRx_canonical h))
            (canonical_ite (answerBad_canonical (syncRx_canonical h)) (ackIf_canonical (syncRx_canonical h)))))

theorem consume_canonical {port f} (h : Canonical s) : Canonical (consume s port f) :=
  canonical_ite (foreignIn_canonical h)
    (canonical_ite (consumeConfirmed_canonical (heard_canonical h))
      (canonical_ite (State.inc_canonical (heard_canonical h)) (consumePlain_canonical (heard_canonical h))))

theorem addResidence_canonical {f} (h : Canonical s) : Canonical (addResidence s f).2 := by
  unfold addResidence
  refine canonical_snd_ite ?_ ?_
  · dsimp only
    exact State.drawNat_canonical h
  · exact h

theorem forward_canonical {port f} (h : Canonical s) : Canonical (forward s port f) := by
  unfold forward
  dsimp only
  exact canonical_ite (emit_canonical (addResidence_canonical h)) (emit_canonical (addResidence_canonical h))

theorem receiveFrame_canonical {port f} (h : Canonical s) : Canonical (receiveFrame s port f) :=
  canonical_ite (State.inc_canonical (State.inc_canonical h))
    (canonical_ite (State.inc_canonical h)
      (canonical_ite (consume_canonical (State.inc_canonical h))
        (canonical_ite (consume_canonical (forward_canonical (State.inc_canonical h)))
          (forward_canonical (State.inc_canonical h)))))

theorem execRingFrameReceive_canonical {port frame} (h : Canonical s) : CanonicalNext
    (execRingFrameReceive port frame s) :=
  canonicalNext_ite (canonicalNext_next (receiveFrame_canonical h)) (canonicalNext_next h)

/-! ### `Machine/VecOps.lean` -/

theorem putBytes_canonical {f line b} (h : Canonical s) : Canonical (putBytes s f line b) := storeMem_canonical h

theorem writeRows_canonical {f line size rows} (h : Canonical s) : Canonical (writeRows s f line size rows).1 :=
  canonical_foldl_fst (fun _ _ => putBytes_canonical) h

theorem vecFlags_canonical {f task flags} (h : Canonical s) : Canonical (vecFlags s f task flags) :=
  modTask_canonical (State.setNum_canonical h)

theorem noteSample_canonical {task op imm indices} (h : Canonical s) : Canonical (noteSample s task op imm indices) :=
  modTask_canonical h

theorem runVec_canonical {f prio op body} (h : Canonical s) (hb : ∀ t, Canonical t → ∀ a b, CanonicalJudge (body t a b)) :
    Canonical (runVec s f prio op body) := by
  refine runHead_canonical h fun w b => canonicalJudge_ite canonicalJudge_bad ?_
  split
  next e => exact hb _ (canonical_of_fst_eq e (checkRanges_canonical h)) _ _
  next t _ e =>
    have ht : Canonical t := canonical_of_fst_eq e (checkRanges_canonical h)
    split
    · exact canonicalJudge_done (readAbort_canonical ht)
    · exact hb s h _ _

theorem nonFinite_canonical {f prio b op} (h : Canonical s) : Canonical (nonFinite s f prio b op) :=
  dropTask_canonical (abortTask_canonical (State.raise_canonical (State.inc_canonical h)))

theorem rowsBody_canonical {f prio mask aLen bLen cLen outBytes op v b} (h : Canonical s) : CanonicalJudge
    (rowsBody f prio mask aLen bLen cLen outBytes op s v b) := by
  unfold rowsBody
  refine canonicalJudge_ite ?_ ?_
  · exact canonicalJudge_bad
  · dsimp only
    exact canonicalJudge_done (vecFlags_canonical (writeRows_canonical (popCmd_canonical h)))

theorem elementwise_canonical {f prio mask args g v b} (h : Canonical s) : CanonicalJudge
    (elementwise f prio mask args g s v b) :=
  rowsBody_canonical h

/-! ### `Machine/StreamRows.lean` -/

theorem execJigStart_canonical {engine jig eic stream entries what} (h : Canonical s) : CanonicalNext
    (execJigStart engine jig eic stream entries what s) := by
  unfold execJigStart
  dsimp only
  split
  · exact canonicalNext_next h
  · refine canonicalNext_ite ?_ ?_
    · exact canonicalNext_next h
    · split
      · exact canonicalNext_next (jigFault_canonical h)
      · exact canonicalNext_next (touch_canonical h)

theorem runFault_canonical {j entry addr} (h : Canonical s) : Canonical (runFault s j entry addr) :=
  jigFault_canonical h

theorem cachedEmission_canonical {j sh ps} (h : Canonical s) : Canonical (cachedEmission s j sh ps) := by
  unfold cachedEmission
  dsimp only
  exact endJig_canonical (endConvert_canonical
    (pushRecords_canonical (modJig_canonical (modConvert_canonical (State.inc_canonical h)))))

theorem homeEmission_canonical {j sh a errors} (h : Canonical s) : Canonical (homeEmission s j sh a errors) := by
  unfold homeEmission
  refine canonical_ite ?_ ?_
  · split
    next t0 e1 =>
      have k2 := (jigFetch_canonical h).get e1
      exact k2
    · exact runFault_canonical h
  · exact jigRead_canonical h

theorem loadEmission_canonical {j sh a errors} (h : Canonical s) : Canonical (loadEmission s j sh a errors) := by
  unfold loadEmission
  refine canonical_ite ?_ ?_
  · split
    · split
      next t0 _ e1 =>
        have k2 := canonical_of_fst_eq e1 (checkRanges_canonical h)
        exact abortTask_canonical (noteShelfBad_canonical k2)
      next t3 e4 =>
        have k5 := canonical_of_fst_eq e4 (checkRanges_canonical h)
        extract_lets t7
        have k8 : Canonical t7 := State.add_canonical (canonical_foldl (fun _ _ => touchCache_canonical) k5)
        clear_value t7
        exact canonical_ite (cachedEmission_canonical k8) (homeEmission_canonical k8)
  · split
    · exact homeEmission_canonical h
    · split
      · exact starve_canonical h
      next t9 _ e10 =>
        have k11 := (takeBuf_canonical h).get e10
        extract_lets t12
        have k13 : Canonical t12 := canonical_ite (State.add_canonical k11) k11
        exact homeEmission_canonical k13

theorem storePart_canonical {j sh a data hold} (h : Canonical s) : Canonical (storePart s j sh a data hold) := by
  unfold storePart
  extract_lets _ t0 _ _ _ _ t2
  have k1 : Canonical t0 := canonical_ite h (countPort_canonical (storeMem_canonical h))
  have k3 : Canonical t2 := canonical_ite (releaseHold_canonical (State.inc_canonical k1)) (State.inc_canonical k1)
  exact endJig_canonical (touch_canonical k3)

theorem storeEmission_canonical {j sh a} (h : Canonical s) : Canonical (storeEmission s j sh a) := by
  unfold storeEmission
  refine canonical_ite ?_ ?_
  · exact storePart_canonical h
  · split
    · exact h
    · refine canonical_ite ?_ ?_
      · exact runFault_canonical h
      · split
        next t0 _ e1 =>
          have k2 := canonical_of_fst_eq e1 (checkItem_canonical h)
          exact abortTask_canonical (noteTaskBad_canonical k2)
        next t3 e4 =>
          have k5 := canonical_of_fst_eq e4 (checkItem_canonical h)
          exact storePart_canonical (popQueue_canonical k5)

theorem catchupRisk_canonical {j} (h : Canonical s) : Canonical (catchupRisk s j) := by
  unfold catchupRisk
  refine canonical_ite ?_ ?_
  · exact h
  · dsimp only
    exact canonical_ite (recertify_canonical (State.drawBool_canonical h)) (State.drawBool_canonical h)

theorem emitJig_canonical {j errors} (h : Canonical s) : Canonical (emitJig s j errors) := by
  unfold emitJig
  refine canonical_ite ?_ ?_
  · exact h
  · refine canonical_ite ?_ ?_
    · exact endJig_canonical h
    · split
      · exact runFault_canonical h
      · split
        · exact runFault_canonical h
        · split
          · exact runFault_canonical h
          · refine canonical_ite ?_ ?_
            · exact canonical_ite h (loadEmission_canonical h)
            · split
              next t0 _ e1 =>
                have k2 := canonical_of_fst_eq e1 (checkRanges_canonical (countGather_canonical h))
                exact abortTask_canonical (noteHbmBad_canonical k2)
              next t3 e4 =>
                have k5 := canonical_of_fst_eq e4 (checkRanges_canonical (countGather_canonical h))
                exact canonical_ite (storeEmission_canonical k5) (loadEmission_canonical k5)

theorem execJigEmission_canonical {engine jig errors} (h : Canonical s) : CanonicalNext
    (execJigEmission engine jig errors s) := by
  unfold execJigEmission
  dsimp only
  split
  · exact canonicalNext_next h
  · refine canonicalNext_ite ?_ ?_
    · exact canonicalNext_next h
    · refine canonicalNext_ite ?_ ?_
      · exact canonicalNext_next h
      · split
        · exact canonicalNext_next (catchupRisk_canonical h)
        · exact canonicalNext_next (emitJig_canonical (catchupRisk_canonical h))

theorem refuseTile_canonical {c cause} (h : Canonical s) : Canonical (refuseTile s c cause) :=
  abortTask_canonical (modConvert_canonical (State.raise_canonical (State.inc_canonical h)))

theorem convertDone_canonical {c recs rounded clamped} (h : Canonical s) : Canonical
    (convertDone s c recs rounded clamped) := by
  unfold convertDone
  extract_lets t0 t3
  have k1 : Canonical t0 := State.add_canonical (State.add_canonical (State.inc_canonical h))
  have k4 : Canonical t3 := canonical_ite k1 (canonical_foldl (fun _ _ => cachePut_canonical) k1)
  clear_value t3
  exact modConvert_canonical k4

theorem execPlaneConvertComplete_canonical {n} (h : Canonical s) : CanonicalNext (execPlaneConvertComplete n s) := by
  unfold execPlaneConvertComplete
  split
  · exact canonicalNext_next h
  next c _ =>
    extract_lets id r
    have hr : ∀ t, r = .ok t → Canonical t := by
      intro t e
      unfold r at e
      split at e
      · cases e; exact h
      · split at e
        · cases e
        · cases e; exact convertDone_canonical h
    clear_value r
    cases r with
    | error cause => exact canonicalNext_next (refuseTile_canonical h)
    | ok t =>
      have ht := hr t rfl
      dsimp only
      split
      · exact canonicalNext_next (endJig_canonical (endConvert_canonical (pushRecords_canonical ht)))
      · exact canonicalNext_next ht

theorem drawBytes_canonical {n} (h : Canonical s) : Canonical (drawBytes n s).2 := by
  induction n generalizing s with
  | zero => exact h
  | succ n ih => exact ih (State.drawNat_canonical (n := 256) h)

theorem coreBiscuit_canonical {eic n} (h : Canonical s) : Canonical (coreBiscuit s eic n) := by
  unfold coreBiscuit
  dsimp only
  split
  next t0 _ e1 =>
    have k2 := (takeBuf_canonical (drawBytes_canonical (State.drawNat_canonical (State.drawNat_canonical h)))).get e1
    exact finishBuf_canonical k2
  · exact drawBytes_canonical (State.drawNat_canonical (State.drawNat_canonical h))

theorem execHandlePush_canonical {n stream} (h : Canonical s) : CanonicalNext (execHandlePush n stream s) := by
  unfold execHandlePush
  split
  · exact canonicalNext_next h
  · exact canonicalNext_ite (canonicalNext_next (coreBiscuit_canonical h)) (canonicalNext_next (pushAll_canonical h))

theorem execBufferRelease_canonical {station queue} (h : Canonical s) : CanonicalNext
    (execBufferRelease station queue s) := by
  unfold execBufferRelease
  dsimp only
  split
  · exact canonicalNext_next (finishRuns_canonical h)
  · exact canonicalNext_next (releaseBuf_canonical (popQueue_canonical (finishRuns_canonical h)))

theorem abortBadSends_canonical (h : Canonical s) : Canonical (abortBadSends s) :=
  canonical_ite h (canonical_foldl (fun _ _ k0 => by
    split
    · exact canonical_ite (abortTask_canonical (noteTaskBad_canonical k0)) k0
    · exact k0) h)

theorem grantEscape_canonical {x} (h : Canonical s) : Canonical (grantEscape s x) :=
  touch_canonical (State.inc_canonical (modStream_canonical h))

theorem execEscapeGrant_canonical {n stream} (h : Canonical s) : CanonicalNext (execEscapeGrant n stream s) := by
  unfold execEscapeGrant
  split
  · exact canonicalNext_next h
  · exact canonicalNext_next (canonical_ite (grantEscape_canonical h) h)

theorem restSentinel_canonical (h : Canonical s) : Canonical (restSentinel s) := h

theorem execStallAbort_canonical {task} (h : Canonical s) : CanonicalNext (execStallAbort task s) := by
  unfold execStallAbort
  dsimp only
  split
  · exact canonicalNext_next h
  · refine canonicalNext_ite ?_ ?_
    · exact canonicalNext_next h
    · split
      · exact canonicalNext_next (grantEscape_canonical h)
      · split
        · exact canonicalNext_next h
        · exact canonicalNext_next (touch_canonical
            (abortTask_canonical (State.raise_canonical (State.inc_canonical h))))

/-! ### `Machine/Vector.lean` -/

theorem vloadBody_canonical {f prio v b} (h : Canonical s) : CanonicalJudge (vloadBody f prio s v b) := by
  unfold vloadBody
  dsimp only
  split
  · exact canonicalJudge_wait (markWait_canonical h)
  · refine canonicalJudge_ite ?_ ?_
    · exact canonicalJudge_bad
    · refine canonicalJudge_ite ?_ ?_
      · exact canonicalJudge_bad
      · split
        next t0 _ e1 =>
          have k2 := canonical_of_fst_eq e1 (checkItem_canonical h)
          exact canonicalJudge_done (readAbort_canonical k2)
        next t3 e4 =>
          have k5 := canonical_of_fst_eq e4 (checkItem_canonical h)
          exact canonicalJudge_done (putBytes_canonical
            (releaseHold_canonical (popQueue_canonical (popCmd_canonical k5))))

theorem execVload_canonical {f prio} (h : Canonical s) : CanonicalNext (execVload f prio s) :=
  canonicalNext_next (runVec_canonical h fun _ ht _ _ => vloadBody_canonical ht)

theorem vstoreEnd_canonical {f prio k} (h : Canonical s) : CanonicalJudge (vstoreEnd f prio s k) :=
  canonicalJudge_ite (canonicalJudge_done (popCmd_canonical h))
    (canonicalJudge_wait (modQueue_canonical (markWait_canonical h)))

theorem vstoreBody_canonical {f prio v b} (h : Canonical s) : CanonicalJudge (vstoreBody f prio s v b) := by
  unfold vstoreBody
  split
  · exact vstoreEnd_canonical h
  · refine canonicalJudge_ite ?_ ?_
    · exact canonicalJudge_bad
    · split
      · exact canonicalJudge_wait (markWait_canonical h)
      · refine canonicalJudge_ite ?_ ?_
        · exact canonicalJudge_bad
        · split
          · exact canonicalJudge_wait (starve_canonical (markWait_canonical h))
          next t0 _ e1 =>
            have k2 := (takeBuf_canonical h).get e1
            split
            next t3 _ e4 =>
              have k5 := canonical_of_fst_eq e4 (checkRanges_canonical k2)
              exact canonicalJudge_done (readAbort_canonical k5)
            next t6 e7 =>
              have k8 := canonical_of_fst_eq e7 (checkRanges_canonical k2)
              exact vstoreEnd_canonical (finishBuf_canonical k8)

theorem execVstore_canonical {f prio} (h : Canonical s) : CanonicalNext (execVstore f prio s) :=
  canonicalNext_next (runVec_canonical h fun _ ht _ _ => vstoreBody_canonical ht)

theorem vsumcvtBody_canonical {f prio v b} (h : Canonical s) : CanonicalJudge (vsumcvtBody f prio s v b) := by
  unfold vsumcvtBody
  refine canonicalJudge_ite ?_ ?_
  · exact canonicalJudge_bad
  · dsimp only
    exact canonicalJudge_done (vecFlags_canonical (modTask_canonical (writeRows_canonical (popCmd_canonical h))))

theorem execVsumcvt_canonical {f prio} (h : Canonical s) : CanonicalNext (execVsumcvt f prio s) :=
  canonicalNext_next (runVec_canonical h fun _ ht _ _ => vsumcvtBody_canonical ht)

theorem execVadd_canonical {f prio} (h : Canonical s) : CanonicalNext (execVadd f prio s) :=
  canonicalNext_next (runVec_canonical h fun _ ht _ _ => elementwise_canonical ht)

theorem execVmul_canonical {f prio} (h : Canonical s) : CanonicalNext (execVmul f prio s) :=
  canonicalNext_next (runVec_canonical h fun _ ht _ _ => elementwise_canonical ht)

theorem execVfma_canonical {f prio} (h : Canonical s) : CanonicalNext (execVfma f prio s) :=
  canonicalNext_next (runVec_canonical h fun _ ht _ _ => elementwise_canonical ht)

theorem execVmax_canonical {f prio} (h : Canonical s) : CanonicalNext (execVmax f prio s) :=
  canonicalNext_next (runVec_canonical h fun _ ht _ _ => elementwise_canonical ht)

theorem execVmin_canonical {f prio} (h : Canonical s) : CanonicalNext (execVmin f prio s) :=
  canonicalNext_next (runVec_canonical h fun _ ht _ _ => elementwise_canonical ht)

theorem execVscale_canonical {f prio} (h : Canonical s) : CanonicalNext (execVscale f prio s) :=
  canonicalNext_next (runVec_canonical h fun _ ht _ _ => elementwise_canonical ht)

theorem execVexp_canonical {f prio} (h : Canonical s) : CanonicalNext (execVexp f prio s) :=
  canonicalNext_next (runVec_canonical h fun _ ht _ _ => elementwise_canonical ht)

theorem execVrsqrt_canonical {f prio} (h : Canonical s) : CanonicalNext (execVrsqrt f prio s) :=
  canonicalNext_next (runVec_canonical h fun _ ht _ _ => elementwise_canonical ht)

theorem execVrecip_canonical {f prio} (h : Canonical s) : CanonicalNext (execVrecip f prio s) :=
  canonicalNext_next (runVec_canonical h fun _ ht _ _ => elementwise_canonical ht)

theorem execVtanh_canonical {f prio} (h : Canonical s) : CanonicalNext (execVtanh f prio s) :=
  canonicalNext_next (runVec_canonical h fun _ ht _ _ => elementwise_canonical ht)

theorem execVsigmoid_canonical {f prio} (h : Canonical s) : CanonicalNext (execVsigmoid f prio s) :=
  canonicalNext_next (runVec_canonical h fun _ ht _ _ => elementwise_canonical ht)

theorem execVgelu_canonical {f prio} (h : Canonical s) : CanonicalNext (execVgelu f prio s) :=
  canonicalNext_next (runVec_canonical h fun _ ht _ _ => elementwise_canonical ht)

theorem execVsilu_canonical {f prio} (h : Canonical s) : CanonicalNext (execVsilu f prio s) :=
  canonicalNext_next (runVec_canonical h fun _ ht _ _ => elementwise_canonical ht)

theorem execVsoftmax_canonical {f prio} (h : Canonical s) : CanonicalNext (execVsoftmax f prio s) :=
  canonicalNext_next (runVec_canonical h fun _ ht _ _ => Judge.map_canonical (rowsBody_canonical ht)
    (fun _ k0 => noteSample_canonical k0))

theorem execVrmsnorm_canonical {f prio} (h : Canonical s) : CanonicalNext (execVrmsnorm f prio s) :=
  canonicalNext_next (runVec_canonical h fun _ ht _ _ => rowsBody_canonical ht)

theorem execVlayernorm_canonical {f prio} (h : Canonical s) : CanonicalNext (execVlayernorm f prio s) :=
  canonicalNext_next (runVec_canonical h fun _ ht _ _ => rowsBody_canonical ht)

theorem execVrotary_canonical {f prio} (h : Canonical s) : CanonicalNext (execVrotary f prio s) :=
  canonicalNext_next (runVec_canonical h fun _ ht _ _ => rowsBody_canonical ht)

theorem execVredsum_canonical {f prio} (h : Canonical s) : CanonicalNext (execVredsum f prio s) :=
  canonicalNext_next (runVec_canonical h fun _ ht _ _ => rowsBody_canonical ht)

theorem execVredmax_canonical {f prio} (h : Canonical s) : CanonicalNext (execVredmax f prio s) :=
  canonicalNext_next (runVec_canonical h fun _ ht _ _ => Judge.map_canonical (rowsBody_canonical ht)
    (fun _ k0 => noteSample_canonical k0))

theorem vdotBody_canonical {f prio v b} (h : Canonical s) : CanonicalJudge (vdotBody f prio s v b) := by
  unfold vdotBody
  refine canonicalJudge_ite ?_ ?_
  · exact canonicalJudge_bad
  · dsimp only
    exact canonicalJudge_done (vecFlags_canonical (writeRows_canonical (popCmd_canonical h)))

theorem execVdot_canonical {f prio} (h : Canonical s) : CanonicalNext (execVdot f prio s) :=
  canonicalNext_next (runVec_canonical h fun _ ht _ _ => vdotBody_canonical ht)

theorem vwsumBody_canonical {f prio v b} (h : Canonical s) : CanonicalJudge (vwsumBody f prio s v b) := by
  unfold vwsumBody
  refine canonicalJudge_ite ?_ ?_
  · exact canonicalJudge_bad
  · dsimp only
    exact canonicalJudge_done (vecFlags_canonical (writeRows_canonical (popCmd_canonical h)))

theorem execVwsum_canonical {f prio} (h : Canonical s) : CanonicalNext (execVwsum f prio s) :=
  canonicalNext_next (runVec_canonical h fun _ ht _ _ => vwsumBody_canonical ht)

theorem execVtopk_canonical {f prio} (h : Canonical s) : CanonicalNext (execVtopk f prio s) :=
  canonicalNext_next (runVec_canonical h fun _ ht _ _ => canonicalJudge_ite canonicalJudge_bad
    (Judge.map_canonical (rowsBody_canonical ht) (fun _ k0 => noteSample_canonical k0)))

theorem vsampleBody_canonical {f prio v b} (h : Canonical s) : CanonicalJudge (vsampleBody f prio s v b) := by
  unfold vsampleBody
  refine canonicalJudge_ite ?_ ?_
  · exact canonicalJudge_bad
  · refine canonicalJudge_ite ?_ ?_
    · exact canonicalJudge_done (nonFinite_canonical h)
    · dsimp only
      exact canonicalJudge_done (noteSample_canonical (vecFlags_canonical (writeRows_canonical (popCmd_canonical h))))

theorem execVsample_canonical {f prio} (h : Canonical s) : CanonicalNext (execVsample f prio s) :=
  canonicalNext_next (runVec_canonical h fun _ ht _ _ => vsampleBody_canonical ht)

theorem noteSat_canonical {f task n} (h : Canonical s) : Canonical (noteSat s f task n) :=
  canonical_ite (State.add_canonical h) (vecFlags_canonical (State.add_canonical h))

theorem vquantBody_canonical {f prio v b} (h : Canonical s) : CanonicalJudge (vquantBody f prio s v b) := by
  unfold vquantBody
  refine canonicalJudge_ite ?_ ?_
  · exact canonicalJudge_bad
  · refine canonicalJudge_ite ?_ ?_
    · exact canonicalJudge_bad
    · refine canonicalJudge_ite ?_ ?_
      · exact canonicalJudge_done (nonFinite_canonical h)
      · extract_lets _ _ t1
        have k2 : Canonical t1 := canonical_foldl (fun _ _ => putBytes_canonical) (popCmd_canonical h)
        clear_value t1
        exact canonicalJudge_done (noteSat_canonical k2)

theorem execVquant_canonical {f prio} (h : Canonical s) : CanonicalNext (execVquant f prio s) :=
  canonicalNext_next (runVec_canonical h fun _ ht _ _ => vquantBody_canonical ht)

theorem vquantwBody_canonical {f prio v b} (h : Canonical s) : CanonicalJudge (vquantwBody f prio s v b) := by
  unfold vquantwBody
  refine canonicalJudge_ite ?_ ?_
  · exact canonicalJudge_bad
  · refine canonicalJudge_ite ?_ ?_
    · exact canonicalJudge_bad
    · refine canonicalJudge_ite ?_ ?_
      · exact canonicalJudge_done (nonFinite_canonical h)
      · extract_lets _ _ t1
        have k2 : Canonical t1 := canonical_foldl (fun _ _ => putBytes_canonical) (popCmd_canonical h)
        clear_value t1
        exact canonicalJudge_done (noteSat_canonical k2)

theorem execVquantw_canonical {f prio} (h : Canonical s) : CanonicalNext (execVquantw f prio s) :=
  canonicalNext_next (runVec_canonical h fun _ ht _ _ => vquantwBody_canonical ht)

/-! ### `Machine/Dispatch.lean` -/

theorem exec_canonical {i} (h : Canonical s) : CanonicalNext (exec i s) := by
  cases i with
  | paramWrite => exact execParamWrite_canonical h
  | rcRead => exact execRcRead_canonical h
  | paramAbort => exact execParamAbort_canonical h
  | paramSeg => exact execParamSeg_canonical h
  | xferTimeout => exact execXferTimeout_canonical h
  | configure => exact execConfigure_canonical h
  | serve => exact execServe_canonical h
  | quiesce => exact execQuiesce_canonical h
  | quiesceNow => exact execQuiesceNow_canonical h
  | inspect => exact execInspect_canonical h
  | safe => exact execSafe_canonical h
  | restart => exact execRestart_canonical h
  | quiesceComplete => exact execQuiesceComplete_canonical h
  | quiesceForced => exact execQuiesceForced_canonical h
  | expertEnable => exact execExpertEnable_canonical h
  | factoryDefaults => exact execFactoryDefaults_canonical h
  | catSelect => exact execCatSelect_canonical h
  | ringFrameReceive => exact execRingFrameReceive_canonical h
  | ack => exact execAck_canonical h
  | retxTimeout => exact execRetxTimeout_canonical h
  | svcReq => exact execSvcReq_canonical h
  | segmentTimeout => exact execSegmentTimeout_canonical h
  | cyclic => exact execCyclic_canonical h
  | cyclicFire => exact execCyclicFire_canonical h
  | cyclicApply => exact execCyclicApply_canonical h
  | eventSend => exact execEventSend_canonical h
  | time => exact execTime_canonical h
  | probe => exact execProbe_canonical h
  | weightBlock => exact execWeightBlock_canonical h
  | rollCall => exact execRollCall_canonical h
  | assign => exact execAssign_canonical h
  | state => exact execState_canonical h
  | reset => exact execReset_canonical h
  | heartbeat => exact execHeartbeat_canonical h
  | node0Silent => exact execNode0Silent_canonical h
  | linkUp => exact execLinkUp_canonical h
  | laneFail => exact execLaneFail_canonical h
  | laneRestore => exact execLaneRestore_canonical h
  | lossOfLight => exact execLossOfLight_canonical h
  | lightReturn => exact execLightReturn_canonical h
  | eyeProbe => exact execEyeProbe_canonical h
  | peerLinkTrained => exact execPeerLinkTrained_canonical h
  | hello => exact execHello_canonical h
  | peerLaneFail => exact execPeerLaneFail_canonical h
  | peerLaneRestore => exact execPeerLaneRestore_canonical h
  | linkAck => exact execLinkAck_canonical h
  | peerResendTimeout => exact execPeerResendTimeout_canonical h
  | credit => exact execCredit_canonical h
  | data => exact execData_canonical h
  | streamCredit => exact execStreamCredit_canonical h
  | read => exact execRead_canonical h
  | batch => exact execBatch_canonical h
  | grant => exact execGrant_canonical h
  | peerReduce => exact execPeerReduce_canonical h
  | repeatTile => exact execRepeatTile_canonical h
  | abort => exact execAbort_canonical h
  | partBoundExpiry => exact execPartBoundExpiry_canonical h
  | journal => exact execJournal_canonical h
  | journalAck => exact execJournalAck_canonical h
  | mirrorTimeout => exact execMirrorTimeout_canonical h
  | peerWeightBlock => exact execPeerWeightBlock_canonical h
  | blockReq => exact execBlockReq_canonical h
  | blockStallRequest => exact execBlockStallRequest_canonical h
  | buddyWrite => exact execBuddyWrite_canonical h
  | routeWrite => exact execRouteWrite_canonical h
  | standInWrite => exact execStandInWrite_canonical h
  | register => exact execRegister_canonical h
  | deregister => exact execDeregister_canonical h
  | build => exact execBuild_canonical h
  | switch => exact execSwitch_canonical h
  | discard => exact execDiscard_canonical h
  | repair => exact execRepair_canonical h
  | abandon => exact execAbandon_canonical h
  | store => exact execStore_canonical h
  | unstore => exact execUnstore_canonical h
  | ctxDesc => exact execCtxDesc_canonical h
  | ctxSelect => exact execCtxSelect_canonical h
  | placeSelect => exact execPlaceSelect_canonical h
  | buildVerifyComplete => exact execBuildVerifyComplete_canonical h
  | buildStall => exact execBuildStall_canonical h
  | repairTimeout => exact execRepairTimeout_canonical h
  | batchIssue => exact execBatchIssue_canonical h
  | batchEnd => exact execBatchEnd_canonical h
  | cancel => exact execCancel_canonical h
  | close => exact execClose_canonical h
  | sessionSelect => exact execSessionSelect_canonical h
  | tokenRelease => exact execTokenRelease_canonical h
  | taskAdmission => exact execTaskAdmission_canonical h
  | taskAbort => exact execTaskAbort_canonical h
  | frameStart => exact execFrameStart_canonical h
  | frameInEdge => exact execFrameInEdge_canonical h
  | ppsInEdge => exact execPpsInEdge_canonical h
  | timeHoldover => exact execTimeHoldover_canonical h
  | timeReset => exact execTimeReset_canonical h
  | tableSelect => exact execTableSelect_canonical h
  | commandEnqueue => exact execCommandEnqueue_canonical h
  | bind => exact execBind_canonical h
  | preload => exact execPreload_canonical h
  | flip => exact execFlip_canonical h
  | flipZero => exact execFlipZero_canonical h
  | pass => exact execPass_canonical h
  | drain => exact execDrain_canonical h
  | drainMax => exact execDrainMax_canonical h
  | drainMin => exact execDrainMin_canonical h
  | merge => exact execMerge_canonical h
  | reduceSend => exact execReduceSend_canonical h
  | reduceGather => exact execReduceGather_canonical h
  | tree => exact execTree_canonical h
  | fence => exact execFence_canonical h
  | fenceRelease => exact execFenceRelease_canonical h
  | timeWait => exact execTimeWait_canonical h
  | timeWaitRelease => exact execTimeWaitRelease_canonical h
  | fillPreemption => exact execFillPreemption_canonical h
  | shadowLoadComplete => exact execShadowLoadComplete_canonical h
  | planeFlip => exact execPlaneFlip_canonical h
  | passVerdict => exact execPassVerdict_canonical h
  | sweepComplete => exact execSweepComplete_canonical h
  | confirmationVerdict => exact execConfirmationVerdict_canonical h
  | swapReloadComplete => exact execSwapReloadComplete_canonical h
  | codeWritten => exact execCodeWritten_canonical h
  | drainComplete => exact execDrainComplete_canonical h
  | mergeComplete => exact execMergeComplete_canonical h
  | reduceDelivered => exact execReduceDelivered_canonical h
  | peek => exact execPeek_canonical h
  | vload => exact execVload_canonical h
  | vstore => exact execVstore_canonical h
  | vsumcvt => exact execVsumcvt_canonical h
  | vadd => exact execVadd_canonical h
  | vmul => exact execVmul_canonical h
  | vfma => exact execVfma_canonical h
  | vmax => exact execVmax_canonical h
  | vmin => exact execVmin_canonical h
  | vscale => exact execVscale_canonical h
  | vexp => exact execVexp_canonical h
  | vrsqrt => exact execVrsqrt_canonical h
  | vrecip => exact execVrecip_canonical h
  | vtanh => exact execVtanh_canonical h
  | vsigmoid => exact execVsigmoid_canonical h
  | vgelu => exact execVgelu_canonical h
  | vsilu => exact execVsilu_canonical h
  | vsoftmax => exact execVsoftmax_canonical h
  | vrmsnorm => exact execVrmsnorm_canonical h
  | vlayernorm => exact execVlayernorm_canonical h
  | vrotary => exact execVrotary_canonical h
  | vredsum => exact execVredsum_canonical h
  | vredmax => exact execVredmax_canonical h
  | vdot => exact execVdot_canonical h
  | vwsum => exact execVwsum_canonical h
  | vtopk => exact execVtopk_canonical h
  | vsample => exact execVsample_canonical h
  | vquant => exact execVquant_canonical h
  | vquantw => exact execVquantw_canonical h
  | jigStart => exact execJigStart_canonical h
  | jigEmission => exact execJigEmission_canonical h
  | planeConvertComplete => exact execPlaneConvertComplete_canonical h
  | handlePush => exact execHandlePush_canonical h
  | bufferRelease => exact execBufferRelease_canonical h
  | escapeGrant => exact execEscapeGrant_canonical h
  | stallAbort => exact execStallAbort_canonical h
  | streamSelect => exact execStreamSelect_canonical h
  | inputEnable => exact execInputEnable_canonical h
  | interlockOpen => exact execInterlockOpen_canonical h
  | interlockClosed => exact execInterlockClosed_canonical h
  | returnPowerTrip => exact execReturnPowerTrip_canonical h
  | feedOverPower => exact execFeedOverPower_canonical h
  | feedValid i mw =>
    change CanonicalNext (execFeedValid i mw s)
    exact execFeedValid_canonical h
  | feedLow => exact execFeedLow_canonical h
  | sourceMap => exact execSourceMap_canonical h
  | sourceFailover => exact execSourceFailover_canonical h
  | lossOfLock => exact execLossOfLock_canonical h
  | identityScan => exact execIdentityScan_canonical h
  | relockComplete => exact execRelockComplete_canonical h
  | rowCheckComplete => exact execRowCheckComplete_canonical h
  | thermalStop => exact execThermalStop_canonical h
  | regionSaturated => exact execRegionSaturated_canonical h
  | startupCalibration => exact execStartupCalibration_canonical h
  | rollingCalStart f =>
    change CanonicalNext (execRollingCalStart f s)
    exact execRollingCalStart_canonical h
  | standInReload => exact execStandInReload_canonical h
  | calibrationComplete => exact execCalibrationComplete_canonical h
  | calOverdue => exact execCalOverdue_canonical h
  | ringSelect => exact execRingSelect_canonical h
  | unitRetireStart => exact execUnitRetireStart_canonical h
  | unitRetired => exact execUnitRetired_canonical h
  | patrolScrub => exact execPatrolScrub_canonical h
  | journalRelocate => exact execJournalRelocate_canonical h
  | powerFail => exact execPowerFail_canonical h
  | powerReturn => exact execPowerReturn_canonical h
  | settle => exact execSettle_canonical h
  | adopt => exact execAdopt_canonical h
  | supplyDip => exact execSupplyDip_canonical h
  | dipEnd => exact execDipEnd_canonical h
  | longDip => exact execLongDip_canonical h
  | resetLevelCrossing => exact execResetLevelCrossing_canonical h
  | supervisorMismatch => exact execSupervisorMismatch_canonical h
  | railTable => exact execRailTable_canonical h
  | railGood => exact execRailGood_canonical h
  | railFault => exact execRailFault_canonical h
  | overvoltage => exact execOvervoltage_canonical h
  | throttleEnforced => exact execThrottleEnforced_canonical h
  | throttleReleased => exact execThrottleReleased_canonical h
  | sensorSelect => exact execSensorSelect_canonical h
  | conversionComplete => exact execConversionComplete_canonical h
  | urgent => exact execUrgent_canonical h
  | calZero => exact execCalZero_canonical h
  | calFullScale => exact execCalFullScale_canonical h
  | calClear => exact execCalClear_canonical h
  | aoutCode => exact execAoutCode_canonical h
  | deglitchHoldEnd => exact execDeglitchHoldEnd_canonical h
  | span => exact execSpan_canonical h
  | spanStep => exact execSpanStep_canonical h
  | trigger => exact execTrigger_canonical h
  | waveSample => exact execWaveSample_canonical h
  | trimSave => exact execTrimSave_canonical h
  | lifeDataSave => exact execLifeDataSave_canonical h
  | boot => exact execBoot_canonical h
  | sealWrite => exact execSealWrite_canonical h
  | bootTimeout => exact execBootTimeout_canonical h
  | nonce => exact execNonce_canonical h
  | reportSigned => exact execReportSigned_canonical h
  | imageData => exact execImageData_canonical h
  | imageStaged => exact execImageStaged_canonical h
  | commit => exact execCommit_canonical h
  | resetN => exact execResetN_canonical h
  | refclkLoss => exact execRefclkLoss_canonical h
  | refclkReturn => exact execRefclkReturn_canonical h
  | helloResend => exact execHelloResend_canonical h
  | hbmTrainingDone => exact execHbmTrainingDone_canonical h
  | stackTemperatureRead => exact execStackTemperatureRead_canonical h

/-! ### `Machine/Tick.lean` -/

theorem tickClocks_canonical (h : Canonical s) : Canonical (tickClocks s) := h

theorem capFrame_canonical (h : Canonical s) : Canonical (capFrame s) := canonical_ite (settleAllFacets_canonical h) h

theorem tick_canonical (h : Canonical s) : Canonical (tick s) :=
  railsOff_canonical (capFrame_canonical
    (placeAll_canonical (abortBadSends_canonical
      (upset_canonical (timedMitres_canonical (restSentinel_canonical (tickClocks_canonical h)))))))

/-! ### `Machine/Step.lean` -/

theorem step_canonical (h : Canonical s) : CanonicalNext (step s) := by
  unfold step
  split
  · exact canonicalNext_next (tick_canonical h)
  · exact exec_canonical h

end Sys2Proof.Machine
end

section
/-! PROOFS. The block as a whole: steps, the state after reset, and the canonical form through every step. -/

namespace Sys2Proof.Machine

theorem CanonicalNext.get {o : Host.Outcome State Fault Refusal} {t : State} (h : CanonicalNext o) (e : o = Next t) : Canonical t := by
  rw [e] at h
  exact canonicalNext_next_iff.1 h

/-- Settles O59: the step is one of the commands (`exec_canonical`) or the tick (`tick_canonical`), and each of the functions
that they are made of keeps the form. -/
theorem canonicalFormsAreKept : Obligations.CanonicalFormsAreKept := fun _ _ h e => (step_canonical h).get e

/-- Settles O60: the memory and the objects of the state after reset are empty, and so is its queue. -/
theorem resetIsCanonical : Obligations.ResetIsCanonical := ⟨⟨reset_mem_wf, rfl⟩, rfl⟩

/-- The clocks of the tick, with the wrap of the frame-time counter written as a condition. -/
theorem tickClocks_eq (s : State) : tickClocks s = { s with
    up := s.up + 1, now := if s.refclk then (s.now + 1) % stampPeriod else s.now,
    tables := if s.refclk = true ∧ s.now + 1 = stampPeriod then wrapTables s.tables else s.tables, life := lifeTick s } := by
  simp only [tickClocks, Bool.and_eq_true, beq_iff_eq]

theorem step_nil {s : State} (h : s.pending = []) : step s = Next (tick s) := by
  unfold step
  split <;> simp_all

theorem step_cons {s : State} {c : Instr} {rest : List Instr} (h : s.pending = c :: rest) :
    step s = exec c { s with pending := rest } := by
  unfold step
  split <;> simp_all

/-- Settles O1: `step` looks at the front of the queue alone. -/
theorem stepRunsFrontCommand : Obligations.StepRunsFrontCommand := by
  refine ⟨fun _ _ _ => step_cons, fun s h => ?_⟩
  rw [step_nil h, tick, tickClocks_eq]

end Sys2Proof.Machine
end

section
/-! PROOFS. The head of a queue: what `runHead` comes to at the head it is asked for. -/

namespace Sys2Proof.Machine

section
variable {s t : State} {e : Nat} {prio : Bool} {w : BitVec 128} {b : Binding} {mine : BitVec 128 → Bool}
  {body : State → BitVec 128 → Binding → Judge}

/-- The head is the command asked for: the body judges it. -/
theorem runHead_eq (h : AtHead s e prio w b) (ok : acceptedBy e (cmdOp w) = true) (m : mine w = true) :
    runHead s e prio mine body = settleEngine (match body s w b with
      | .wait t => t
      | .bad c => malformed s e prio w b c
      | .done t => t) e := by
  obtain ⟨head, bind, res, dips⟩ := h
  simp only [runHead, dips, head, bind, ok, m, res, Bool.not_true, Bool.and_false, Bool.false_eq_true, if_false]
  cases body s w b <;> rfl

theorem runHead_done (h : AtHead s e prio w b) (ok : acceptedBy e (cmdOp w) = true) (m : mine w = true)
    (hb : body s w b = .done t) : runHead s e prio mine body = settleEngine t e := by
  rw [runHead_eq h ok m, hb]

theorem runHead_wait (h : AtHead s e prio w b) (ok : acceptedBy e (cmdOp w) = true) (m : mine w = true)
    (hb : body s w b = .wait t) : runHead s e prio mine body = settleEngine t e := by
  rw [runHead_eq h ok m, hb]

end

@[simp] theorem settleEngine_facet (s : State) (f : FacetId) : settleEngine s f.val = settleRuns s f.val := if_pos f.isLt

/-- A facet sequencer accepts the opcodes of R147. -/
theorem acceptedBy_facet (f : FacetId) (op : Nat) :
    acceptedBy f.val op = [0x01, 0x02, 0x03, 0x10, 0x20, 0x21, 0x22, 0x24, 0x30, 0x31].contains op := if_pos f.isLt

section
variable {s t : State} {f : FacetId} {prio : Bool} {w : BitVec 128} {b : Binding} {mine : BitVec 128 → Bool}
  {body : State → BitVec 128 → Binding → Judge} {op : Nat}

/-- A facet's command at the head takes effect. -/
theorem facetHead_done (h : AtHead s f.val prio w b) (hop : cmdOp w = op)
    (ok : [0x01, 0x02, 0x03, 0x10, 0x20, 0x21, 0x22, 0x24, 0x30, 0x31].contains op = true) (m : mine w = true)
    (hb : body s w b = .done t) : runHead s f.val prio mine body = settleRuns t f.val := by
  rw [runHead_done h (by rw [acceptedBy_facet, hop, ok]) m hb, settleEngine_facet]

/-- A facet's command at the head waits. -/
theorem facetHead_wait (h : AtHead s f.val prio w b) (hop : cmdOp w = op)
    (ok : [0x01, 0x02, 0x03, 0x10, 0x20, 0x21, 0x22, 0x24, 0x30, 0x31].contains op = true) (m : mine w = true)
    (hb : body s w b = .wait t) : runHead s f.val prio mine body = settleRuns t f.val := by
  rw [runHead_wait h (by rw [acceptedBy_facet, hop, ok]) m hb, settleEngine_facet]

end

end Sys2Proof.Machine
end

section
/-! PROOFS. Queues: COMMAND_ENQUEUE and BIND (R146, R148, R165, R190). -/

namespace Sys2Proof.Machine

section
variable {s : State} {e : EngineId} {prio : Bool} {w u : BitVec 128} {b : Binding}

/-- What is not written leaves the queue as it is. -/
theorem execCommandEnqueue_not (h : (if prio then 256 else 128) ≤ ((engineN s e.val).own prio).cmds.length
    ∨ enqueues s e.val prio w = false) : execCommandEnqueue e prio w s = Next s := by
  unfold execCommandEnqueue
  exact if_pos (by simpa using h)

/-- What is written stands behind the queue's commands. -/
theorem execCommandEnqueue_put (room : ((engineN s e.val).own prio).cmds.length < (if prio then 256 else 128))
    (writes : enqueues s e.val prio w = true) (r : resolved s e.val prio w = some u) :
    execCommandEnqueue e prio w s = Next (modEngine s e.val fun x => x.withOwn prio
      { (engineN s e.val).own prio with cmds := ((engineN s e.val).own prio).cmds ++ [u], discard := none }) := by
  unfold execCommandEnqueue
  rw [if_neg (by simpa [writes] using room), r]

theorem execCommandEnqueue_unresolved (r : resolved s e.val prio w = none) : execCommandEnqueue e prio w s = Next s := by
  unfold execCommandEnqueue
  rw [r]
  exact ite_self _

/-- A command that names no shelf place is written as it stands. -/
theorem resolved_other (h : 32 ≤ e.val ∨ srcKind w ≠ 0 ∨ cmdOp w ∉ [0x02, 0x03, 0x10]) : resolved s e.val prio w = some w := by
  unfold resolved
  split
  · rfl
  · rcases h with h | h | h
    · simp [Nat.not_lt.2 h]
    · simp [h]
    · simp only [List.mem_cons, List.not_mem_nil, or_false, not_or] at h
      simp [h]

/-- A shelf-sourced PRELOAD carries the place of its record. -/
theorem resolved_preload (facet : e.val < 32) (shelf : srcKind w = 0) (bound : lastBinding ((engineN s e.val).own prio) = some b)
    (op : cmdOp w = 0x02) : resolved s e.val prio w = some (((recordPlace s e.val b w).map (withSrc w)).getD w) := by
  simp [resolved, bound, facet, shelf, op]

/-- A shelf-sourced FLIP or PASS is written where its operand has no places or it names one of them. -/
theorem resolved_named (facet : e.val < 32) (shelf : srcKind w = 0) (bound : lastBinding ((engineN s e.val).own prio) = some b)
    (op : cmdOp w = 0x10 ∨ cmdOp w = 0x03 ∧ flipZeroBit w = false) : resolved s e.val prio w =
      let ps := placesOf s (e.val / 4) b
      if ps.isEmpty || ps.any fun p => p.place == srcField w && (cmdOp w != 0x10 || p.trit == passTrit w) then some w
      else none := by
  rcases op with op | ⟨op, zero⟩
  · simp [resolved, bound, facet, shelf, op]
  · simp [resolved, bound, facet, shelf, op, zero]

theorem placesOf_operand {n : Nat} {p : Pin} (h : p ∈ placesOf s n b) : p.operand = b.operand := by
  unfold placesOf at h
  split at h
  · exact beq_iff_eq.1 (Bool.and_eq_true_iff.1 (List.mem_filter.1 h).2).2
  · exact absurd h List.not_mem_nil

/-- The record pinned for the bound copy is found at its place. -/
theorem recordPlace_pinned {f : Nat} {p : Pin} (hp : p ∈ placesOf s (f / 4) b) (row : preRowTile w = p.rowTile)
    (chunk : preChunk w = p.chunk) (trit : preTrit w = p.trit)
    (only : ∀ o ∈ placesOf s (f / 4) b, (o.rowTile, o.chunk, o.trit) = (p.rowTile, p.chunk, p.trit) → o = p) :
    recordPlace s f b w = some p.place := by
  unfold recordPlace
  extract_lets is
  cases found : (placesOf s (f / 4) b).find? fun p => is p.operand p.rowTile p.chunk p.trit with
  | none =>
    have := List.find?_eq_none.1 found p hp
    simp [is, placesOf_operand hp, row, chunk, trit] at this
  | some o =>
    have same := List.find?_some found
    simp only [is, Bool.and_eq_true, beq_iff_eq, row, chunk, trit] at same
    obtain ⟨⟨⟨-, hr⟩, hc⟩, ht⟩ := same
    rw [only o (List.mem_of_find?_eq_some found) (by rw [hr, hc, ht])]

/-- A BIND out of place is not written. -/
theorem enqueues_bind_outOfPlace {t : Task} (op : cmdOp w = 1) (task : findTask s (bindOf w).task = some t)
    (h : (t.cls = .fill ↔ prio = true) ∨ bindIssued s (bindOf w) = false) : enqueues s e.val prio w = false := by
  have : bindInOrder s e.val prio w = false := by
    rcases h with h | h
    · cases prio <;> cases c : t.cls <;> simp_all [bindInOrder]
    · simp [bindInOrder, task, h]
  simp [enqueues, op, this]

/-- A BIND at the head replaces the binding and leaves the queue. -/
theorem execBind_binds (head : headOf s e.val prio = some w) (dips : vectorDips s e.val = false) (op : cmdOp w = 0x01)
    (res : reservedOk w = true) (fmt : (bindOf w).aFormat ≠ 0)
    (same : ∀ o, ((engineN s e.val).queue prio).binding = some o → o.task = (bindOf w).task →
      o.context = (bindOf w).context ∧ o.copy = (bindOf w).copy) :
    execBind e prio s = Next (settleEngine (popCmd
      (modQueue s e.val prio fun q => { q with binding := some (bindOf w), unbound := false }) e.val prio) e.val) := by
  unfold execBind
  rw [dips, head]
  simp only [op, res, fmt, ne_eq, not_true_eq_false, Bool.false_eq_true, Bool.not_true, if_false]
  cases old : ((engineN s e.val).queue prio).binding with
  | none => simp
  | some o =>
    have unmoved : (o.task == (bindOf w).task && (o.context != (bindOf w).context || o.copy != (bindOf w).copy)) = false := by
      by_cases task : o.task = (bindOf w).task
      · simp [same o old task]
      · simp [task]
    simp [unmoved]

end

/-- Settles O2: each clause is what `resolved`, `enqueues` or the checks of BIND come to. -/
theorem enqueueAndBind : Obligations.EnqueueAndBind := by
  refine ⟨fun e prio w s => ⟨execCommandEnqueue_not, fun room writes => ⟨fun h => ?_, fun b facet shelf bound => ⟨?_, ?_, ?_⟩⟩⟩,
    fun e prio w t s op task h => ?_, fun e prio w s => execBind_binds⟩
  · exact execCommandEnqueue_put room writes (resolved_other h)
  · intro p hp op row chunk trit only
    refine execCommandEnqueue_put room writes ?_
    rw [resolved_preload facet shelf bound op, recordPlace_pinned hp row chunk trit only]
    rfl
  · intro op some_ none_
    refine execCommandEnqueue_unresolved ?_
    rw [resolved_named facet shelf bound op]
    have : ((placesOf s (e.val / 4) b).any fun p =>
        p.place == srcField w && (cmdOp w != 0x10 || p.trit == passTrit w)) = false := by
      simp only [List.any_eq_false, Bool.and_eq_true, beq_iff_eq, not_and]
      exact fun p hp place => absurd place (none_ p hp)
    simp [this, some_]
  · rintro op ⟨p, hp, place, trit⟩
    refine execCommandEnqueue_put room writes ?_
    rw [resolved_named facet shelf bound op]
    have : ((placesOf s (e.val / 4) b).any fun p =>
        p.place == srcField w && (cmdOp w != 0x10 || p.trit == passTrit w)) = true := by
      refine List.any_eq_true.2 ⟨p, hp, ?_⟩
      rw [place]
      by_cases pass : cmdOp w = 0x10
      · simp [pass, trit pass]
      · simp [pass]
    simp [this]
  · exact execCommandEnqueue_not (.inr (enqueues_bind_outOfPlace op task h))

end Sys2Proof.Machine
end

section
/-! PROOFS. Planes and passes: PRELOAD, FLIP and PASS (R150 to R154). -/

namespace Sys2Proof.Machine

section
variable {s u : State} {f : FacetId} {prio : Bool} {w : BitVec 128} {b : Binding}

/-- A place of the shelf that R150 allows. -/
theorem srcBad_of_place (place : srcField w < 8738) (h : srcField w ∉ withdrawn s (f.val / 4)) : srcBad s f.val w = false := by
  have : ¬ shelfPlaces ≤ srcField w := Nat.not_le.2 place
  simp [srcBad, this, h]

theorem preloadBody_busy (good : srcBad s f.val w = false) (busy : shadowBusy (facetN s f.val) prio = true) :
    preloadBody f.val prio s w b = .wait (markWait s f.val prio) := by
  simp [preloadBody, good, busy]

theorem preloadBody_reads (good : srcBad s f.val w = false) (free : shadowBusy (facetN s f.val) prio = false)
    (shelf : srcKind w = 0) (read : checkRead s .shelf (f.val / 4) (srcField w * recordBytes) recordBytes = (u, none)) :
    preloadBody f.val prio s w b = .done (takeShadow (touchCache (popCmd u f.val prio) (f.val / 4) (srcField w)) f.val
      { id := preloadId w b, bytes := memRead u.mem (placeAddr f.val (srcField w)) recordBytes, hold := none,
        prio := prio, task := b.task }) := by
  simp [preloadBody, good, free, shelf, read]

theorem preloadBody_uncorrectable {a : Nat} (good : srcBad s f.val w = false)
    (free : shadowBusy (facetN s f.val) prio = false) (shelf : srcKind w = 0)
    (read : checkRead s .shelf (f.val / 4) (srcField w * recordBytes) recordBytes = (u, some a)) :
    preloadBody f.val prio s w b = .done (shelfAbort u f.val prio b.task a) := by
  simp [preloadBody, good, free, shelf, read]

end

/-- Settles O3: the three ends of `preloadBody` for a shelf place. -/
theorem preloadFromShelf : Obligations.PreloadFromShelf := by
  intro f prio w b u s head op shelf place kept read
  have good : srcBad s f.val w = false := srcBad_of_place place kept
  have exec_preload : exec (.preload f prio) s = Next (runHead s f.val prio (fun w => cmdOp w == 0x02) (preloadBody f.val prio)) :=
    rfl
  have mine : (cmdOp w == 0x02) = true := beq_iff_eq.2 op
  refine ⟨fun busy => ?_, fun free clean => ?_, fun a free bad => ?_⟩
  · rw [exec_preload, facetHead_wait head op rfl mine (preloadBody_busy good busy)]
  · rw [exec_preload, facetHead_done head op rfl mine (preloadBody_reads good free shelf clean)]
    simp only [preloadId, shelf, placeAddr]
  · rw [exec_preload, facetHead_done head op rfl mine (preloadBody_uncorrectable good free shelf bad)]
    rfl

/-- Settles O4: the shadow holds the plane that FLIP names, or is free for the all-zero plane. -/
theorem flipAsksForShadowPlane : Obligations.FlipAsksForShadowPlane := by
  refine ⟨fun f prio w b h s head op plain good shadow named kept => ?_,
    fun f prio w b s head op zero kind field shadow busy => ?_⟩
  · have body : flipBody f.val prio s w b =
        .wait (wantFlip (if h.loaded then s else markWait s f.val prio) f.val prio h.loaded) := by
      simp [flipBody, good, shadow, named, kept]
    exact congrArg Next (facetHead_wait head op rfl (by simp [op, plain]) body)
  · have body : flipZeroBody f.val prio s w b = .wait (wantFlip (takeShadow (markWait s f.val prio) f.val
        { Plane.zeros with prio := prio, task := b.task }) f.val prio false) := by
      simp [flipZeroBody, kind, field, shadow, busy]
    exact congrArg Next (facetHead_wait head op rfl (by simp [op, zero]) body)

section
variable {s v : State} {f : Nat} {prio : Bool} {w : BitVec 128} {b : Binding} {p : Plane} {i : QItem} {l : List QItem}

/-- The checks of R153 and R154 met. -/
theorem passCause_zero (trit : passTrit w = p.id.trit) (digit : passDigit w < fmtDigits b.aFormat)
    (mode : (passMode w == 0) = (!fmtScaled b.wFormat && !fmtScaled b.aFormat))
    (vecs : passFirstVec w + passLen w ≤ passTileVecs w)
    (slots : rangeOk (modeSlots (modeOf (passMode w))) (passSlot w) (passLen w) = true)
    (merge : passMerge w = true → passLast w = true ∧
      rangeOk (modeSlots (modeOf (passMode w))) (passMergeDst w) (passLen w) = true) : passCause w b p = 0 := by
  have hm : (passMerge w && (!passLast w || !rangeOk (modeSlots (modeOf (passMode w))) (passMergeDst w) (passLen w))) = false := by
    cases m : passMerge w with
    | false => rfl
    | true => simp [merge m]
  simp [passCause, trit, Nat.not_le.2 digit, mode, Nat.not_lt.2 vecs, slots, hm]

/-- A PASS on the active plane whose checks are met begins its run. -/
theorem passBody_starts (idle : ((engineN s f).queue prio).running = none) (good : srcBad s f w = false)
    (len : passLen w ≠ 0) (len' : passLen w ≤ 2048) (vecs : passTileVecs w ≠ 0) (vecs' : passTileVecs w ≤ 2048)
    (mode : passMode w ≠ 3) (active : (facetN s f).active.bound w b = true) (kept : (facetN s f).restoring = false)
    (cause : passCause w b (facetN s f).active = 0) (first : freeItems s f (passInQ w) = i :: l)
    (tag : handleTag i.handle = passInTag w) (tile : tileLenOk b.aFormat (passTileVecs w) i.handle = true)
    (fill : prio = false → (facetN s f).flipAsk ≠ some true ∧ prioReady s f = false) (read : checkItem s i = (v, none)) :
    passBody f prio s w b = .done (startRun v f prio w b (facetN s f).active i) := by
  have ahead : (!prio && ((facetN s f).flipAsk == some true || prioReady s f)) = false := by
    cases prio with
    | true => rfl
    | false => simp [fill rfl]
  simp [passBody, idle, good, len, Nat.not_lt.2 len', vecs, Nat.not_lt.2 vecs', mode, passPlane, active, kept, cause, first, tag,
    tile, ahead, read]

end

/-- Settles O5: the run is `runOf` of the state in which the tile's words have been read. -/
theorem passStartsItsRun : Obligations.PassStartsItsRun := by
  intro f prio w b i l v s head op good idle len len' vecs vecs' mode active kept trit digit modes range slots merge first tag tile
    fill read
  have body := passBody_starts idle good len len' vecs vecs' mode active kept
    (passCause_zero trit digit modes range slots merge) first tag tile fill read
  refine ⟨runOf v f.val prio w b (facetN s f.val).active i, rfl, rfl, rfl, rfl, rfl, rfl, rfl, rfl, rfl, rfl, rfl, rfl, rfl, rfl, ?_⟩
  exact congrArg Next (facetHead_done head op rfl (by simp [op]) body)

end Sys2Proof.Machine
end

section
/-! PROOFS. TREE, MERGE, REDUCE, DRAIN, FENCE and TIME_WAIT at the head (R156 to R161). -/

namespace Sys2Proof.Machine

section
variable {s : State} {f : Nat} {prio : Bool} {w : BitVec 128} {b : Binding} {x : Facet}

theorem mergeBad_none {task a c n : Nat} (ha : rangeBad x task a n = none) (hc : rangeBad x task c n = none)
    (mode : modeAt x a = modeAt x c) : mergeBad x task a c n = none := by
  simp [mergeBad, ha, hc, mode]

theorem gatherLevels_zero {t : TreeDecl} : gatherLevels s t 0 = [] := rfl

/-- Without GATHER a drain takes no winners of children. -/
theorem drainBody_plain (op : drainOp w ≠ 3) (form : drainForm w ≠ 3) (vecs : drainVecs w ≠ 0) (vecs' : drainVecs w ≤ 2048)
    (rows : drainRows w ≠ 0) (rows' : drainRow w + drainRows w ≤ 512) (dest : drainDest w = false) (gather : drainGather w = 0)
    (fits : bufTooBig (streamInto s f b.task (drainOutQ w))
      (sumTileBytes (drainForm w) (drainOp w != 0) (if drainOp w = 0 then drainRows w else 1) (drainVecs w)) = false)
    (ready : rangeReady (facetN s f) prio b.task ((engineN s f).queue prio).scale (drainSlot w) (drainVecs w) = true)
    (free : beingRead (facetN s f) (drainSlot w) (slotsAt (facetN s f) (drainSlot w) * drainVecs w) = false)
    (range : rangeOk (slotsAt (facetN s f) (drainSlot w)) (drainSlot w) (drainVecs w) = true)
    (good : rangeBad (facetN s f) b.task (drainSlot w) (drainVecs w) = none)
    (allowed : formAllowed (modeAt (facetN s f) (drainSlot w)) (drainForm w) = true) :
    drainBody f prio s w b =
      (let v := noteDrainWait s f prio
       let u := v.raiseTo (fam 0x3500_08 f) (symbolOf ((((engineN v f).queue prio).drainWait).getD 0))
       .done (modFacet (takeCmd u f prio) f fun x => { x with drains := x.drains ++ [drainJob u f prio w b [] []] })) := by
  have fields : ¬ (drainOp w = 3 ∨ drainForm w = 3 ∨ drainVecs w = 0 ∨ 2048 < drainVecs w ∨ drainRows w = 0 ∨ 512 < drainRows w
      ∨ 512 < drainRow w + drainRows w ∨ 11 < drainGather w) := by omega
  have routed : drainRouting s (facetN s f) w b = true := by simp [drainRouting, dest, gather]
  unfold slotsAt at range
  unfold drainBody
  rw [if_neg fields]
  simp only [routed, dest, fits, ready, free, range, good, allowed, gather, gatherLevels_zero, ite_self, Bool.not_true,
    Bool.not_false, Bool.and_false, Bool.or_false, Bool.false_and, Bool.false_eq_true, if_false]
  cases treeFor (facetN s f) b.task <;> rfl

end

/-- Settles O7: TREE with its own position and MERGE of ranges that its checks pass. -/
theorem treeAndMergeBegin : Obligations.TreeAndMergeBegin := by
  refine ⟨fun f prio w b s head op pos ord => ?_, fun f prio w b s head op count count' h => ?_⟩
  · have leaf : ((treeOf w b.task).ordMask != 0 && !(treeOf w b.task).ordMask.testBit (leafOf s b.task)) = false := by
      rcases ord with ord | ord <;> simp [ord]
    have body : treeBody f.val prio s w b = .done (modFacet (popCmd s f.val prio) f.val fun x =>
        { x with trees := (x.trees.filter fun q => q.task != b.task) ++ [treeOf w b.task] }) := by
      have task : (treeOf w b.task).task = b.task := rfl
      simp [treeBody, pos, task, leaf]
    exact congrArg Next (facetHead_done head op rfl (by simp [op]) body)
  · obtain ⟨readyA, readyB, rangeA, rangeB, goodA, goodB, mode⟩ := h
    have fields : ¬ (mergeCount w = 0 ∨ 2048 < mergeCount w) := by omega
    refine congrArg Next (facetHead_done head op rfl (by simp [op]) ?_)
    unfold mergeBody
    simp [fields, readyA, readyB, rangeA, rangeB, mergeBad_none goodA goodB mode]

/-- Settles O8: `reduceJudge` hands the part of the tree on to the role. -/
theorem reduceBegins : Obligations.ReduceBegins := by
  intro f prio w b t p s head op count count' level level' tree k ready range good job
  have fields : ¬ (reduceCount w = 0 ∨ 2048 < reduceCount w ∨ reduceLevel w = 0 ∨ 11 < reduceLevel w) := by omega
  refine ⟨fun role part => ?_, fun i role part taken task lvl cnt mode => ?_⟩
  · refine congrArg Next (facetHead_done head op rfl (by simp [op, role]) ?_)
    simp [reduceSendBody, reduceJudge, fields, tree, part, k, ready, range, good, level', startReduce, job]
  · have agrees : i.agrees b.task (reduceLevel w) (reduceCount w) (modeAt (facetN s f.val) (reduceSlot w)) = true := by
      simp [Inbound.agrees, task, lvl, cnt, mode]
    refine congrArg Next (facetHead_done head op rfl (by simp [op, role]) ?_)
    simp [reduceGatherBody, reduceJudge, fields, tree, part, k, ready, range, good, level', startReduce, job, taken, agrees]

/-- Settles O9: the three operations have one body (`drainBody_plain`). -/
theorem drainBegins : Obligations.DrainBegins := by
  intro f prio w b s head op form form' vecs vecs' rows rows' dest gather fits ready free range good allowed v u after
  have body := drainBody_plain form form' vecs vecs' rows rows' dest gather fits ready free range good allowed
  refine ⟨fun o => ?_, fun o => ?_, fun o => ?_⟩ <;>
    exact congrArg Next (facetHead_done head op rfl (by simp [op, o]) body)

section
variable {s : State} {e : Nat} {prio : Bool} {w : BitVec 128} {b : Binding}

/-- Every engine accepts FENCE and TIME_WAIT (R147). -/
theorem acceptedBy_wait {op : Nat} (h : op = 0x30 ∨ op = 0x31) : acceptedBy e op = true := by
  rcases h with rfl | rfl <;> simp [acceptedBy]

theorem modEngine_tasks {g : Engine → Engine} : (modEngine s e g).tasks = s.tasks := by
  unfold modEngine
  split <;> rfl

theorem modEngine_now {g : Engine → Engine} : (modEngine s e g).now = s.now := by
  unfold modEngine
  split <;> rfl

theorem takeCmd_tasks : (takeCmd s e prio).tasks =
    (((engineN s e).queue prio).binding.elim s fun b => touch s b.task).tasks := by
  unfold takeCmd modQueue
  rw [modEngine_tasks]
  cases ((engineN s e).queue prio).binding <;> rfl

theorem takeCmd_now : (takeCmd s e prio).now = s.now := by
  unfold takeCmd modQueue
  rw [modEngine_now]
  cases ((engineN s e).queue prio).binding <;> rfl

/-- The counting of a command changes objects alone. -/
theorem popCmd_eq : ∃ o, popCmd s e prio = { takeCmd s e prio with objs := o } := by
  unfold popCmd
  dsimp only
  split
  · exact ⟨_, rfl⟩
  · cases headOf s e prio with
    | none => exact ⟨_, rfl⟩
    | some w =>
      dsimp only
      split <;> exact ⟨_, rfl⟩

theorem popCmd_tasks : (popCmd s e prio).tasks = (takeCmd s e prio).tasks := by
  obtain ⟨o, h⟩ := popCmd_eq (s := s) (e := e) (prio := prio)
  rw [h]

theorem popCmd_now : (popCmd s e prio).now = s.now := by
  obtain ⟨o, h⟩ := popCmd_eq (s := s) (e := e) (prio := prio)
  rw [h, takeCmd_now]

/-- Progress noted changes neither a task's class nor its checkpoints (R282). -/
theorem findTask_touch {n m : Nat} {t : Task} (h : findTask (touch s n) m = some t) :
    ∃ u, findTask s m = some u ∧ t.cls = u.cls ∧ ∀ k, t.tokenDue k = u.tokenDue k := by
  have same : (fun t : Task => t.num == m) ∘ (fun t : Task => if t.num == n then { t with progressAt := s.up } else t) =
      fun t => t.num == m := by
    funext t
    dsimp only [Function.comp_apply]
    split <;> rfl
  unfold findTask touch modTask at h
  rw [List.find?_map, same] at h
  obtain ⟨u, hu, rfl⟩ := Option.map_eq_some_iff.1 h
  refine ⟨u, hu, ?_, fun k => ?_⟩ <;> split <;> rfl

/-- A command that leaves its queue changes neither the class nor the checkpoints of a task. -/
theorem findTask_popCmd {m : Nat} {t : Task} (h : findTask (popCmd s e prio) m = some t) :
    ∃ u, findTask s m = some u ∧ t.cls = u.cls ∧ ∀ k, t.tokenDue k = u.tokenDue k := by
  unfold findTask at h
  rw [popCmd_tasks, takeCmd_tasks] at h
  cases bound : ((engineN s e).queue prio).binding with
  | none => exact ⟨t, by rwa [bound] at h, rfl, fun _ => rfl⟩
  | some b => exact findTask_touch (n := b.task) (by rwa [bound] at h)

theorem fenceBody_holds (holds : fenceHolds s e b.task w = true)
    (due : ∀ t, findTask s b.task = some t → t.cls = .fill ∨ stampBefore (t.tokenDue (fenceToken w)) s.now = false) :
    fenceBody e prio s w b = .done (let t := popCmd s e prio
      if fenceSignal w then { t with out := t.out ++ [Out.token (Fin.ofNat 64 e) b.task (fenceToken w)] } else t) := by
  unfold fenceBody
  rw [holds]
  cases signal : fenceSignal w with
  | false => rfl
  | true =>
    simp only [Bool.not_true, Bool.false_eq_true, if_false, if_true]
    split
    next t found =>
      obtain ⟨u, hu, cls, token⟩ := findTask_popCmd (s := s) (e := e) (prio := prio) found
      have early : (t.cls != .fill && stampBefore (t.tokenDue (fenceToken w)) (popCmd s e prio).now) = false := by
        rw [popCmd_now, cls, token]
        rcases due u hu with h | h <;> simp [h]
      rw [early]
      rfl
    next => rfl

theorem fenceBody_waits (holds : fenceHolds s e b.task w = false) : fenceBody e prio s w b = .wait (markWait s e prio) := by
  simp [fenceBody, holds]

end

section
variable {s : State} {e : EngineId} {prio : Bool} {w : BitVec 128} {b : Binding} {t : Nat}

/-- What TIME_WAIT without STRICT comes to at the head, in the order of R161 and R165. -/
theorem timeWaitBody_lenient (stamp : stampTicks (waitStamp w) = some t) (strict : waitStrict w = false) :
    timeWaitBody e.val prio s w b =
      let late := ((engineN s e.val).queue prio).waitAt = none ∧ s.isPast t = true
      if heldOrStopped s e.val = true ∧ late then .wait s
      else if stampBefore s.now t = true ∨ heldOrStopped s e.val = true then .wait (markWait s e.val prio)
      else if late ∧ e.val < 32 then .done (popCmd (s.inc (fam 0x3700_05 e.val)) e.val prio)
      else .done (popCmd s e.val prio) := by
  unfold timeWaitBody
  rw [stamp]
  simp only [strict, Bool.and_eq_true, Bool.or_eq_true, Option.isNone_iff_eq_none, Bool.not_false, if_true, Bool.not_eq_true',
    and_assoc]
  by_cases late : ((engineN s e.val).queue prio).waitAt = none ∧ s.isPast t = true
  · by_cases facet : e.val < 32 <;> simp [late.1, late.2, facet]
  · have notLate : (((engineN s e.val).queue prio).waitAt.isNone && s.isPast t) = false := by
      rw [Bool.eq_false_iff]
      simpa using late
    have notLate' : ¬ (((engineN s e.val).queue prio).waitAt = none ∧ s.isPast t = true ∧ e.val < 32) := fun h =>
      late ⟨h.1, h.2.1⟩
    simp [notLate, late, notLate']

end

/-- Settles O10: the bodies of FENCE and TIME_WAIT at the head, whichever row runs them. -/
theorem fenceAndTimeWait : Obligations.FenceAndTimeWait := by
  refine ⟨fun e prio w b s head op due => ?_, fun e prio w b t s head op stamp strict => ?_⟩
  · intro after
    have runs : Next (runHead s e.val prio (fun w => cmdOp w == 0x30) (fenceBody e.val prio)) = after := by
      have ok : acceptedBy e.val (cmdOp w) = true := acceptedBy_wait (.inl op)
      have mine : (cmdOp w == 0x30) = true := beq_iff_eq.2 op
      have self : Fin.ofNat 64 e.val = e := Fin.ext (Nat.mod_eq_of_lt e.isLt)
      unfold after
      split
      next holds =>
        rw [runHead_done (body := fenceBody e.val prio) head ok mine (fenceBody_holds holds due), self]
      next waits =>
        rw [runHead_wait (body := fenceBody e.val prio) head ok mine (fenceBody_waits (Bool.eq_false_iff.2 waits))]
    exact ⟨runs, runs⟩
  · intro fresh late after
    have runs : Next (runHead s e.val prio (fun w => cmdOp w == 0x31) (timeWaitBody e.val prio)) = after := by
      have ok : acceptedBy e.val (cmdOp w) = true := acceptedBy_wait (.inr op)
      have mine : (cmdOp w == 0x31) = true := beq_iff_eq.2 op
      have body := timeWaitBody_lenient (s := s) (e := e) (prio := prio) (b := b) stamp strict
      unfold after late fresh
      split
      next c1 => rw [runHead_wait (body := timeWaitBody e.val prio) head ok mine (body.trans (if_pos c1))]
      next c1 =>
        replace body := body.trans (if_neg c1)
        split
        next c2 => rw [runHead_wait (body := timeWaitBody e.val prio) head ok mine (body.trans (if_pos c2))]
        next c2 =>
          replace body := body.trans (if_neg c2)
          split
          next c3 => rw [runHead_done (body := timeWaitBody e.val prio) head ok mine (body.trans (if_pos c3))]
          next c3 => rw [runHead_done (body := timeWaitBody e.val prio) head ok mine (body.trans (if_neg c3))]
    exact ⟨runs, runs⟩

end Sys2Proof.Machine
end

section
/-! PROOFS. What keeps the facets, and the active plane of each: flips, loads and preemption (R54, R152, R163). -/

namespace Sys2Proof.Machine

section
variable {s t : State} {f k : Nat}

theorem facetN_of_facets (h : t.facets = s.facets) : facetN t f = facetN s f := by rw [facetN, h, facetN]

/-- A change of a facet that exists. -/
theorem facetN_modFacet (s : State) (f : FacetId) (g : Facet → Facet) : facetN (modFacet s f.val g) f.val = g (facetN s f.val) := by
  have e : s.facets[f.val]? = some s.facets[f.val] := Vector.getElem?_eq_getElem f.isLt
  simp [facetN, modFacet, e]

/-- A change of one facet leaves the others. -/
theorem facetN_modFacet_other {g : Facet → Facet} (h : f ≠ k) : facetN (modFacet s f g) k = facetN s k := by
  unfold modFacet
  split
  · simp [facetN, Vector.getElem?_setIfInBounds_ne h]
  · rfl

/-- What a change of a facet keeps of it, every facet keeps. -/
theorem facetN_modFacet_keeps {α : Type} {p : Facet → α} {g : Facet → Facet} (h : ∀ x, p (g x) = p x) :
    p (facetN (modFacet s f g) k) = p (facetN s k) := by
  by_cases e : f = k
  · subst e
    unfold modFacet
    split
    next x at_ =>
      have lt : f < 32 := (Vector.getElem?_eq_some_iff.1 at_).1
      simp [facetN, at_, Vector.getElem?_setIfInBounds_self_of_lt lt, h]
    · rfl
  · rw [facetN_modFacet_other e]

/-! ### What leaves the facets as they are -/

theorem raise_facets {code unit : Nat} {data : Bytes} : (s.raise code unit data).facets = s.facets := by
  obtain ⟨o, e, h⟩ := State.raise_frame s code unit data
  rw [h]

theorem ite_facets {c : Prop} [Decidable c] {a b : State} {l : Vector Facet 32} (ha : a.facets = l) (hb : b.facets = l) :
    (if c then a else b).facets = l := by
  split
  · exact ha
  · exact hb

theorem inc_facets {oid : Nat} : (s.inc oid).facets = s.facets := rfl

theorem modStream_facets {eic n : Nat} {g : Stream → Stream} : (modStream s eic n g).facets = s.facets := rfl

theorem touch_facets {n : Nat} : (touch s n).facets = s.facets := rfl

theorem peerSend_facets {p : PeerPort} {fr : PeerFrame} : (peerSend s p fr).facets = s.facets := by
  unfold peerSend
  dsimp only
  split
  · split <;> rfl
  · rfl

theorem sendToOr_facets {ord type flags channel : Nat} {arg payload : Bytes} :
    (sendToOr s ord type flags channel arg payload).facets = s.facets := by
  unfold sendToOr sendTo sendFreeing
  split
  · rfl
  · exact peerSend_facets

theorem releaseBuf_facets {eic n serial idx : Nat} : (releaseBuf s eic n serial idx).facets = s.facets := by
  unfold releaseBuf
  split
  · rfl
  · split
    · rfl
    · extract_lets u v w
      have hw : w.facets = s.facets := rfl
      refine ite_facets ?_ rfl
      split
      · exact ite_facets hw (sendToOr_facets.trans hw)
      · exact hw

theorem releaseHold_facets {h : Option Hold} : (releaseHold s h).facets = s.facets := by
  unfold releaseHold
  split
  · split
    · exact releaseBuf_facets
    · rfl
  · rfl

theorem addPlay_facets {out wave scale start : Nat} {ahead : Bool} : (addPlay s out wave scale start ahead).facets = s.facets := by
  unfold addPlay
  extract_lets late
  clear_value late
  exact ite_facets inc_facets rfl

theorem foldl_facets {α : Type} {g : State → α → State} {l : List α} (h : ∀ t x, (g t x).facets = t.facets) :
    (l.foldl g s).facets = s.facets :=
  List.foldlRecOn (motive := fun t => t.facets = s.facets) l g rfl fun t ht x _ => (h t x).trans ht

theorem foldl_addPlay_facets {l : List Nat} {start : Nat} {ahead : Bool} {out wave scale : State → Nat → Nat} :
    (l.foldl (fun s i => addPlay s (out s i) (wave s i) (scale s i) start ahead) s).facets = s.facets := by
  induction l generalizing s with
  | nil => rfl
  | cons i l ih =>
    rw [List.foldl_cons, ih]
    exact addPlay_facets

theorem feedForward_facets {up ahead : Bool} {num den start : Nat} :
    (feedForward s f up num den start ahead).facets = s.facets := by
  unfold feedForward
  by_cases off : s.num 0x7300_01 = 0
  · rw [if_pos off]
  · rw [if_neg off]
    exact foldl_addPlay_facets

theorem fillWave_facets {task : Nat} {up : Bool} : (fillWave s f task up).facets = s.facets := by
  unfold fillWave
  split
  · rfl
  · split
    · rfl
    · exact feedForward_facets

theorem setOut_facets {out code : Nat} : (setOut s out code).facets = s.facets := rfl

/-! ### What leaves the active planes as they are -/

/-- The active plane of facet k is the same in both states. -/
def SameActive (k : Nat) (s t : State) : Prop := (facetN t k).active = (facetN s k).active

theorem sameActive_of_facets (h : t.facets = s.facets) : SameActive k s t := by rw [SameActive, facetN_of_facets h]

theorem SameActive.trans {u : State} (h : SameActive k s t) (h' : SameActive k t u) : SameActive k s u := Eq.trans h' h

theorem sameActive_modFacet {g : Facet → Facet} (h : ∀ x, (g x).active = x.active) : SameActive k s (modFacet s f g) :=
  facetN_modFacet_keeps (p := Facet.active) h

theorem sameActive_foldl {α : Type} {g : State → α → State} {l : List α} (h : ∀ t x, SameActive k t (g t x)) :
    SameActive k s (l.foldl g s) :=
  List.foldlRecOn (motive := fun t => SameActive k s t) l g rfl fun t ht x _ => ht.trans (h t x)

theorem sameActive_finishRuns : SameActive k s (finishRuns s f) := by
  unfold finishRuns
  extract_lets x ended u v y w
  have hw : SameActive k v w := sameActive_modFacet fun _ => rfl
  have hu : SameActive k s u := sameActive_modFacet fun _ => rfl
  have hv : SameActive k s v := hu.trans (sameActive_of_facets (foldl_facets fun _ _ => releaseHold_facets))
  split
  · exact hv
  · dsimp only
    split
    · exact hv
    · split
      · exact hv.trans hw
      · exact (hv.trans hw).trans (sameActive_of_facets releaseHold_facets)

theorem sameActive_reloadShadow : SameActive k s (reloadShadow s f) := by
  have load {p : Plane} : SameActive k s (modFacet s f fun x => beginLoad x p) := sameActive_modFacet fun _ => rfl
  have pend {p : Plane} : SameActive k s (modFacet s f fun x => { beginLoad x p with fillPending := none }) :=
    sameActive_modFacet fun _ => rfl
  unfold reloadShadow
  extract_lets x pending
  have hp : SameActive k s pending := by
    unfold pending
    split
    · exact pend
    · rfl
  split
  · rfl
  · split
    · exact sameActive_modFacet fun _ => rfl
    · split
      · rfl
      · split
        · split
          · exact load
          · exact hp
        · exact hp

theorem sameActive_preempt : SameActive k s (preempt s f) := by
  unfold preempt
  dsimp only
  split
  · rfl
  · split
    · rfl
    · exact (sameActive_modFacet (f := f) (g := fun x => { x with preempted := true }) fun _ => rfl).trans
        (sameActive_of_facets fillWave_facets)

theorem sameActive_predictRing {row lane : Nat} : SameActive k s (predictRing s f row lane) := by
  unfold predictRing
  extract_lets x l
  split
  · rfl
  · dsimp -zeta only
    extract_lets p inside u
    have hu : SameActive k s u := sameActive_of_facets setOut_facets
    exact hu.trans (sameActive_modFacet fun _ => rfl)

theorem sameActive_startRelock {triggers : Nat} {acquires : Bool} : SameActive k s (startRelock s f triggers acquires) := by
  unfold startRelock startRelockAt
  extract_lets x u v
  have hu : SameActive k s u := sameActive_modFacet fun _ => rfl
  have hv : SameActive k s v := hu.trans (sameActive_modFacet fun _ => rfl)
  split
  · rfl
  · refine hv.trans ?_
    unfold predictRings
    dsimp only
    split
    · rfl
    · exact sameActive_foldl fun _ _ => sameActive_predictRing

theorem sameActive_lockCheck : SameActive k s (lockCheck s f) := by
  unfold lockCheck
  dsimp only
  split
  · exact sameActive_startRelock
  · rfl

end

/-- The flip makes the plane of the shadow active (R46, R74). -/
theorem flipIn_active {s : State} {f : FacetId} {h : Shadow} (shadow : (facetN s f.val).shadow = some h) :
    (facetN (flipIn s f.val) f.val).active = h.plane := by
  unfold flipIn
  extract_lets +onlyGivenNames x
  rw [shadow]
  dsimp -zeta only
  split
  · have flipped : (facetN (modFacet s f.val fun x => flipBack x h) f.val).active = h.plane := by
      rw [facetN_modFacet]
      rfl
    exact Eq.trans (sameActive_finishRuns.trans sameActive_reloadShadow) flipped
  · extract_lets past u y v w
    have flipped : (facetN v f.val).active = h.plane := by
      unfold v
      rw [facetN_modFacet]
      rfl
    have kept : SameActive f.val v w := by
      unfold w
      clear_value past
      split
      · split
        · rfl
        · exact sameActive_of_facets releaseHold_facets
      · rfl
    exact Eq.trans (((kept.trans sameActive_finishRuns).trans sameActive_reloadShadow).trans sameActive_lockCheck) flipped

/-- Settles O11: the load's checks, the flip's boundary (`flipIn_active`) and the preemption of the fill run. -/
theorem loadsFlipsPreemption : Obligations.LoadsFlipsPreemption := by
  refine ⟨fun f h s shadow loading still good => ?_, fun f h s => ?_, fun f r s ready run kept => ?_⟩
  · have good' : (h.plane.id.zero || recordOk (s.num 0x3000_04) h.plane.id.recId h.plane.bytes) = true := by
      simpa using good
    change execShadowLoadComplete f s = _
    simp [execShadowLoadComplete, shadow, loading, still, good']
  · intro t due shadow
    refine ⟨by rw [flipIn_active shadow], ?_⟩
    change execPlaneFlip f s = _
    simp only [t] at due shadow
    simp [execPlaneFlip, t, due, shadow]
  · change execFillPreemption f s = _
    simp [execFillPreemption, ready, preempt, run, kept]

end Sys2Proof.Machine
end

section
/-! PROOFS. Verdicts, sweeps and confirmations; codes, merges, reduces and drains written (R61-R67, R115-R159). -/

namespace Sys2Proof.Machine

/-- Settles O12: a verdict by its two cases, and a failed one by the cases of `failedVerdict`. -/
theorem passVerdicts : Obligations.PassVerdicts := by
  unfold Obligations.PassVerdicts
  intro f errors y rest s inflight x exact codes v u
  have run : exec (.passVerdict f errors) s = if v.accepted then
      Next (settleRuns
        (let t := modFacet u f.val fun x => { x with writes := x.writes ++ [codeWriteOf x y codes], afterSwap := false }
         if y.attempt = 2 then t.inc (fam 0x3100_03 f.val) else t) f.val)
      else Next (settleRuns (failedVerdict u f.val y v (suspects codes exact)) f.val) := by
    change execPassVerdict f errors s = _
    rw [execPassVerdict, inflight]
  refine ⟨fun accepted => by rw [run, if_pos accepted], fun refused first => ?_⟩
  intro t swapped plane ⟨r, found, left⟩
  rw [run, refused, if_neg Bool.false_ne_true, failedVerdict]
  simp only [t] at swapped plane found
  simp [swapped, found, left, first, plane, t]

theorem differs_not (codes exact : List Int) (rows : List Nat) :
    (rows.filter fun r => !(codes.getD r 0 != exact.getD r 0)) = rows.filter fun r => codes.getD r 0 == exact.getD r 0 := by
  simp [bne]

/-- Settles O13: each command is its body where the facet is in the state that it speaks of. -/
theorem sweepsConfirmationsSwaps : Obligations.SweepsConfirmationsSwaps := by
  unfold Obligations.SweepsConfirmationsSwaps
  refine ⟨?_, fun f errors c s confirm => ⟨fun held => ?_, fun issued => ?_⟩, fun f s swapping inflight => ?_⟩
  · intro f y rest s sweeps confirm swapping exact t
    change execSweepComplete f s = _
    simp [execSweepComplete, sweeps, confirm, swapping, t, exact]
  · change execConfirmationVerdict f errors s = _
    simp [execConfirmationVerdict, confirm, held]
  · change execConfirmationVerdict f errors s = _
    simp only [execConfirmationVerdict, confirm, issued, Bool.not_true, Bool.false_eq_true, if_false, differs_not]
  · change execSwapReloadComplete f s = _
    simp [execSwapReloadComplete, swapping, inflight]

/-! ### What `readBoth` does once the words have been read -/

section
variable {s u : State} {f task row rows lo n : Nat} {go : State → State}

theorem readBoth_read (read : checkRows s f row rows lo n = (u, none)) : readBoth s f task row rows lo n go = go u := by
  rw [readBoth, read]

theorem readBoth_uncorrectable {a : Nat} (read : checkRows s f row rows lo n = (u, some a)) :
    readBoth s f task row rows lo n go = dropBoth (readAbort u .accumulator f a f true task) f task := by
  rw [readBoth, read]

end

/-- Settles O14: the words are read (`readBoth_read`), then written, or they abort the task. -/
theorem codesMergesReducesWritten : Obligations.CodesMergesReducesWritten := by
  unfold Obligations.CodesMergesReducesWritten
  refine ⟨?_, ?_, ?_⟩
  · intro f c s m t write due owner mode live
    have run : exec (.codeWritten f) s = Next (settleRuns (if c.first then write t
        else readBoth t f.val c.task 0 512 c.slot (modeSlots c.mode) write) f.val) := by
      change execCodeWritten f s = _
      simp only [m] at owner mode live
      simp [execCodeWritten, due, owner, mode, live, t, write]
    refine ⟨fun first => ?_, fun u first read => ?_, fun u a first read => ?_⟩
    · rw [run, if_pos first]
    · rw [run, if_neg (by simp [first]), readBoth_read read]
    · rw [run, if_neg (by simp [first]), readBoth_uncorrectable read]
  · intro f j u v s due n good readA readB
    change execMergeComplete f s = _
    simp only [execMergeComplete, due, good]
    rw [readBoth_read readA, readBoth_read readB]
    cases j.run <;> rfl
  · intro f j rest u s head read done
    have run : exec (.reduceDelivered f) s = Next (settleRuns (finishReduce u f.val j) f.val) := by
      change execReduceDelivered f s = _
      simp only [execReduceDelivered, head, readBoth_read read]
    refine ⟨fun i got => ?_, fun v got sent => ?_⟩
    · rw [run, finishReduce, got]
      rfl
    · rw [run, finishReduce, got]
      simp only [sent]
      rfl

/-! ### Drains whose children, if any, have nothing to take -/

section
variable {s u : State} {f : FacetId} {d : DrainJob}

theorem winner_atTag_same (tag : Nat) (w : Winner) : Winner.atTag tag tag w = w := by simp [Winner.atTag]

/-- A drain whose tile has been pushed is over. -/
theorem drainComplete_pushed (due : (facetN s f.val).drains.find? (drainDue s f.val) = some d) {k : Nat × Nat × Nat}
    (pushing : d.pushing = some k) : exec (.drainComplete f) s = Next (settleRuns (finishDrain s f.val d) f.val) := by
  change execDrainComplete f s = _
  simp [execDrainComplete, due, pushing]

/-- A drain that has nothing pushed reads its elements first. -/
theorem drainComplete_reads (due : (facetN s f.val).drains.find? (drainDue s f.val) = some d)
    (none_come : comeIns (facetN s f.val) d = []) (pushing : d.pushing = none) :
    exec (.drainComplete f) s = Next (settleRuns (readBoth s f.val d.task d.row d.rows d.slotBase
      (slotsAt (facetN s f.val) d.slotBase * d.vectors) fun s => finishDrain s f.val d) f.val) := by
  have late : takeLate s f.val d = (s, d) := by simp [takeLate, none_come]
  change execDrainComplete f s = _
  simp [execDrainComplete, due, pushing, late]

/-- A MAX or MIN drain to its output queue without winners of children. -/
theorem drainWinners_own (ins : d.ins = []) (dest : d.dest = false) {ws : List Winner}
    (own : ws = (drainElems (facetN s f.val) d).map fun es => vectorWinner (d.op == 1) d es) :
    drainWinners s f.val d =
      (let inexact := ws.any fun w => w.value.inexact
       if d.pushing.isSome then tileReleased s f.val d d.vectors inexact else
       let step := if modeAt (facetN s f.val) d.slotBase = .integer then satStep (ws.map fun w => w.value.int) else 0
       if step ≠ 0 then saturate s f.val d step
       else sendTile s f.val d (sumTile (drainHead d true d.scale) (ws.map fun w => (w.value, w.index))) d.vectors inexact) := by
  subst own
  simp only [drainWinners, ins, dest, List.foldl_nil, Bool.false_eq_true, if_false, winner_atTag_same]

end

/-- Settles O15: a drain reads (`drainComplete_reads`) or is over (`drainComplete_pushed`), by its form a sum or winners. -/
theorem drainCompletes : Obligations.DrainCompletes := by
  unfold Obligations.DrainCompletes
  intro f d s due none_come ins mode read sum best send
  have sent : ∀ u tile n inexact, sendTile u f.val d tile n inexact = send u tile n inexact := fun _ _ _ _ => rfl
  refine ⟨fun u a pushing words => ?_, fun op => ⟨fun k pushing => ?_, fun u pushing words => ?_⟩,
    fun op dest => ⟨fun k pushing => ?_, fun u pushing words => ?_⟩⟩
  · rw [drainComplete_reads due none_come pushing, readBoth_uncorrectable words]
  · simp [drainComplete_pushed due pushing, finishDrain, op, drainSum, pushing, sum]
  · rw [drainComplete_reads due none_come pushing, readBoth_read words, ← sent]
    simp [finishDrain, op, drainSum, pushing, sum, mode]
  · rw [drainComplete_pushed due pushing, finishDrain, if_neg op, drainWinners_own ins dest rfl]
    simp [pushing, best]
  · rw [drainComplete_reads due none_come pushing, readBoth_read words, ← sent, finishDrain, if_neg op,
      drainWinners_own ins dest rfl]
    simp [pushing, best, mode]

end Sys2Proof.Machine
end

section
/-! PROOFS. The girdle rows of an exact pass (R60, R61), winners (R132) and rounding to FP32 (R170). -/

namespace Sys2Proof.Machine

/-! ### Syndromes are linear in the codes of the rows -/

theorem weightedSum_cons (w : Nat → Int) (c : Int) (p : List Int) :
    weightedSum w (c :: p) = w 0 * c + weightedSum (fun r => w (r + 1)) p := by
  simp [weightedSum, List.mapIdx_cons]

section
variable {α : Type} (w : Nat → Int) (k : Nat) (rows : List α) (d : Int) (g h : α → Int)

theorem weightedSum_map_add :
    weightedSum w (rows.map fun a => d * g a + h a) = d * weightedSum w (rows.map g) + weightedSum w (rows.map h) := by
  induction rows generalizing w with
  | nil => simp [weightedSum]
  | cons a l ih =>
    simp only [List.map_cons, weightedSum_cons, ih]
    ring

theorem getD_map_add (i : Nat) :
    (rows.map fun a => d * g a + h a).getD i 0 = d * (rows.map g).getD i 0 + (rows.map h).getD i 0 := by
  rw [List.getD_eq_getElem?_getD, List.getD_eq_getElem?_getD, List.getD_eq_getElem?_getD]
  cases e : rows[i]? <;> simp [e]

theorem syndrome_map_add :
    syndrome w k (rows.map fun a => d * g a + h a) = d * syndrome w k (rows.map g) + syndrome w k (rows.map h) := by
  simp only [syndrome, ← List.map_take, weightedSum_map_add, getD_map_add]
  ring

end

/-- The sum of R45 by its first lane. -/
theorem dot_cons_digit (d : Nat) (ds : List Nat) (w : List Int) : dot (d :: ds) w = d * w.getD 0 0 + dot ds w.tail := by
  cases w with
  | nil => cases ds <;> simp [dot]
  | cons t ts => simp [dot]

/-- A divisor of the syndromes of every lane's column divides that of the sums. -/
theorem dvd_syndrome_dot (w : Nat → Int) (k : Nat) (c : Int) (digits : List Nat) (rows : List (List Int))
    (cols : ∀ j < digits.length, c ∣ syndrome w k (rows.map fun r => r.getD j 0)) :
    c ∣ syndrome w k (rows.map fun r => dot digits r) := by
  induction digits generalizing rows with
  | nil =>
    have zero : syndrome w k (rows.map fun r => dot [] r) = 0 := by
      have twice := syndrome_map_add w k rows 1 (fun _ => 0) fun _ => 0
      simp only [mul_zero, add_zero, one_mul] at twice
      simp only [dot]
      linarith
    rw [zero]
    exact dvd_zero c
  | cons d ds ih =>
    have first := cols 0 (by simp)
    have rest := ih (rows.map List.tail) fun j lt => by
      have col := cols (j + 1) (by simpa using lt)
      simpa [List.map_map, Function.comp_def, List.getD_eq_getElem?_getD] using col
    simp only [dot_cons_digit, List.map_map, Function.comp_def] at rest ⊢
    rw [syndrome_map_add]
    exact dvd_add (Dvd.dvd.mul_left first _) rest

/-- Settles O17: both syndromes are linear, so they vanish modulo 9 for the sums as they do for every lane. -/
theorem exactPassesAreAccepted : Obligations.ExactPassesAreAccepted := by
  unfold Obligations.ExactPassesAreAccepted
  intro digits rows _ _ girdle v
  have plain : (9 : Int) ∣ syndrome (fun _ => 1) 0 (rows.map fun r => dot digits r) :=
    dvd_syndrome_dot _ 0 9 digits rows fun j lt => by
      obtain ⟨sum, -⟩ := girdle j lt
      simpa only [syndrome, weightedSum_one] using sum
  have weighted : (9 : Int) ∣ syndrome girdleWeight 2 (rows.map fun r => dot digits r) :=
    dvd_syndrome_dot _ 2 9 digits rows fun j lt => by
      obtain ⟨-, sum⟩ := girdle j lt
      simpa only [syndrome, weightedSum_girdleWeight] using sum
  have first : v.d1 = 0 := by
    have := verdictOf_d1 (rows.map fun r => dot digits r)
    rw [Int.emod_eq_zero_of_dvd plain] at this
    exact_mod_cast this
  have second : v.d2 = 0 := by
    have := verdictOf_d2 (rows.map fun r => dot digits r)
    rw [Int.emod_eq_zero_of_dvd weighted] at this
    exact_mod_cast this
  refine ⟨first, second, fun small => v.accepted_iff.2 ⟨first, second, (verdictOf_ranges_eq_zero _).2 ?_⟩⟩
  intro c mem
  obtain ⟨r, inRows, rfl⟩ := List.mem_map.1 mem
  have := small r inRows
  omega

/-! ### Winners: the better of two is the least in a linear order -/

/-- The value of an element. -/
def Elem.value (v : Elem) : ℚ := v.int * (2 : ℚ) ^ v.exp

theorem Elem.value_at (v : Elem) {e : Int} (le : e ≤ v.exp) :
    v.value = ((v.int * 2 ^ (v.exp - e).toNat : Int) : ℚ) * (2 : ℚ) ^ e := by
  have split : (2 : ℚ) ^ v.exp = 2 ^ (v.exp - e).toNat * (2 : ℚ) ^ e := by
    rw [← zpow_natCast, ← zpow_add₀ two_ne_zero]
    congr 1
    omega
  rw [Elem.value, split]
  push_cast
  ring

theorem Elem.lt_iff (a b : Elem) : Elem.lt a b = true ↔ a.value < b.value := by
  have pos : (0 : ℚ) < 2 ^ min a.exp b.exp := zpow_pos two_pos _
  rw [a.value_at (min_le_left _ b.exp), b.value_at (min_le_right a.exp _), mul_lt_mul_iff_left₀ pos, Int.cast_lt]
  exact decide_eq_true_iff

/-- What MAX and MIN compare by: the value, the greatest first for MAX, then the index. -/
def Winner.key (isMax : Bool) (w : Winner) : ℚ ×ₗ Nat := toLex (if isMax then -w.value.value else w.value.value, w.index)

theorem Winner.key_le_iff (isMax : Bool) (a b : Winner) : a.key isMax ≤ b.key isMax ↔
    (if isMax then b.value.value < a.value.value else a.value.value < b.value.value) ∨
      a.value.value = b.value.value ∧ a.index ≤ b.index := by
  cases isMax <;> simp [Winner.key, Prod.Lex.toLex_le_toLex]

theorem Winner.best_eq (isMax : Bool) (a b : Winner) :
    Winner.best isMax a b = if a.key isMax ≤ b.key isMax then a else b := by
  rw [Winner.best]
  rcases lt_trichotomy a.value.value b.value.value with lt | same | gt
  · cases isMax <;> simp [Winner.key_le_iff, Elem.lt_iff, lt, lt.not_gt, lt.ne]
  · cases isMax <;> simp [Winner.key_le_iff, Elem.lt_iff, same]
  · cases isMax <;> simp [Winner.key_le_iff, Elem.lt_iff, gt, gt.not_gt, gt.ne']

theorem Winner.key_ne {isMax : Bool} {a b : Winner} (differ : a.index ≠ b.index) : a.key isMax ≠ b.key isMax := by
  intro same
  exact differ (congrArg (fun k => (ofLex k).2) same)

/-- Settles O19: `Winner.best` chooses the lesser key, and keys of different indices differ. -/
theorem winnersDoNotDependOnOrder : Obligations.WinnersDoNotDependOnOrder := by
  unfold Obligations.WinnersDoNotDependOnOrder
  intro isMax a b c ab
  simp only [Winner.best_eq]
  refine ⟨?_, fun _ _ => ?_⟩
  · rcases lt_or_gt_of_ne (Winner.key_ne (isMax := isMax) ab) with lt | gt
    · rw [if_pos lt.le, if_neg lt.not_ge]
    · rw [if_neg gt.not_ge, if_pos gt.le]
  · by_cases hab : a.key isMax ≤ b.key isMax
    · by_cases hbc : b.key isMax ≤ c.key isMax
      · simp [hab, hbc, hab.trans hbc]
      · simp [hab, hbc]
    · by_cases hbc : b.key isMax ≤ c.key isMax
      · simp [hab, hbc]
      · have hac : ¬ a.key isMax ≤ c.key isMax := fun le => hbc ((not_le.1 hab).le.trans le)
        simp [hab, hbc, hac]

/-! ### Rounding to FP32 -/

theorem rneNat_nearest (n : Nat) {d : Nat} (pos : 0 < d) : 2 * n ≤ 2 * (rneNat n d * d) + d ∧ 2 * (rneNat n d * d) ≤ 2 * n + d := by
  have parts := Nat.div_add_mod' n d
  have lt := Nat.mod_lt n pos
  have up : (n / d + 1) * d = n / d * d + d := by ring
  simp only [rneNat]
  split_ifs <;> omega

/-- The comparison by which `ratLog2` corrects its estimate. -/
theorem two_zpow_le_iff (num den : Nat) (k : Int) :
    (if 0 ≤ k then decide (den * 2 ^ k.toNat ≤ num) else decide (den ≤ num * 2 ^ (-k).toNat)) = true ↔ (2 : ℚ) ^ k * den ≤ num := by
  split
  next nonneg =>
    obtain ⟨n, rfl⟩ := Int.eq_ofNat_of_zero_le nonneg
    simp only [Int.ofNat_eq_natCast, Int.toNat_natCast, decide_eq_true_eq, zpow_natCast]
    rw [mul_comm]
    exact_mod_cast Iff.rfl
  next neg =>
    obtain ⟨n, hn⟩ := Int.eq_ofNat_of_zero_le (show 0 ≤ -k by omega)
    obtain rfl : k = -n := by omega
    simp only [neg_neg, Int.toNat_natCast, decide_eq_true_eq, zpow_neg, zpow_natCast]
    rw [inv_mul_le_iff₀ (by positivity), mul_comm num]
    exact_mod_cast Iff.rfl

/-- The floor of the logarithm is what it should be: the quotient lies between 2^l and 2^(l+1). -/
theorem ratLog2_spec {num den : Nat} (hn : num ≠ 0) (hd : den ≠ 0) :
    (2 : ℚ) ^ ratLog2 num den * den ≤ num ∧ (num : ℚ) < 2 ^ (ratLog2 num den + 1) * den := by
  have nlow : (2 : ℚ) ^ (num.log2 : Int) ≤ num := by exact_mod_cast Nat.log2_self_le hn
  have nhigh : (num : ℚ) < 2 ^ ((num.log2 : Int) + 1) := by exact_mod_cast Nat.lt_log2_self
  have dlow : (2 : ℚ) ^ (den.log2 : Int) ≤ den := by exact_mod_cast Nat.log2_self_le hd
  have dhigh : (den : ℚ) < 2 ^ ((den.log2 : Int) + 1) := by exact_mod_cast Nat.lt_log2_self
  have above : (num : ℚ) < 2 ^ ((num.log2 : Int) - den.log2 + 1) * den := by
    calc (num : ℚ) < 2 ^ ((num.log2 : Int) + 1) := nhigh
      _ = 2 ^ ((num.log2 : Int) - den.log2 + 1) * 2 ^ (den.log2 : Int) := by
        rw [← zpow_add₀ two_ne_zero]
        congr 1
        ring
      _ ≤ _ := by gcongr
  have below : (2 : ℚ) ^ ((num.log2 : Int) - den.log2 - 1) * den ≤ num := by
    calc (2 : ℚ) ^ ((num.log2 : Int) - den.log2 - 1) * den
        ≤ 2 ^ ((num.log2 : Int) - den.log2 - 1) * 2 ^ ((den.log2 : Int) + 1) := by gcongr
      _ = 2 ^ (num.log2 : Int) := by
        rw [← zpow_add₀ two_ne_zero]
        congr 1
        ring
      _ ≤ _ := nlow
  simp only [ratLog2, two_zpow_le_iff]
  split_ifs with tooBig fits
  · exact absurd tooBig above.not_ge
  · exact ⟨fits, above⟩
  · exact ⟨below, by simpa using fits⟩

/-- The encoding of a normal number: exponent field Q + 1, the significand with its leading bit. -/
theorem fl32_normal {Q r : Nat} (low : 2 ^ 23 ≤ r) (high : r < 2 ^ 24) (finite : Q < 254) :
    fl32 (Q * 2 ^ 23 + r) = .fin false r ((Q : Int) - 149) := by
  have ex : bitsOf (Q * 2 ^ 23 + r) 30 23 = Q + 1 := by
    rw [bitsOf]
    omega
  have sign : (Q * 2 ^ 23 + r).testBit 31 = false := Nat.testBit_lt_two_pow (by omega)
  have frac : (Q * 2 ^ 23 + r) % 2 ^ 23 + 2 ^ 23 = r := by omega
  simp only [fl32, ex, sign, frac]
  rw [if_neg (by omega), if_neg (by omega)]
  congr 1
  omega

theorem fl32_subnormal {r : Nat} (high : r < 2 ^ 23) : fl32 r = .fin false r (-149) := by
  have ex : bitsOf r 30 23 = 0 := by
    rw [bitsOf]
    omega
  have sign : r.testBit 31 = false := Nat.testBit_lt_two_pow (by omega)
  have frac : r % 2 ^ 23 = r := Nat.mod_eq_of_lt high
  simp only [fl32, ex, sign, frac]
  rfl

/-- A rounded significand, a carry out of it included, reads back as itself at its exponent. -/
theorem fl32_significand {Q r : Nat} (high : r ≤ 2 ^ 24) (low : Q = 0 ∨ 2 ^ 23 ≤ r) (finite : Q * 2 ^ 23 + r < 0x7F800000) :
    ∃ m E : Nat, fl32 (Q * 2 ^ 23 + r) = .fin false m ((E : Int) - 149) ∧ m * 2 ^ E = r * 2 ^ Q ∧ Q ≤ E := by
  by_cases carry : r = 2 ^ 24
  · have moved : Q * 2 ^ 23 + r = (Q + 1) * 2 ^ 23 + 2 ^ 23 := by omega
    refine ⟨2 ^ 23, Q + 1, ?_, ?_, by omega⟩
    · rw [moved, fl32_normal (by omega) (by omega) (by omega)]
    · rw [carry, pow_succ' 2 Q, ← mul_assoc, ← pow_succ]
  · refine ⟨r, Q, ?_, rfl, le_rfl⟩
    by_cases normal : 2 ^ 23 ≤ r
    · exact fl32_normal normal (by omega) (by omega)
    · obtain rfl : Q = 0 := by omega
      simpa using fl32_subnormal (by omega)

/-- The exponent that the rounding chooses keeps the significand in its width. -/
theorem significand_range {num den k Q : Nat} (hn : num ≠ 0) (hd : den ≠ 0)
    (choice : (Q : Int) - 149 = max (ratLog2 num den - k - 23) (-149)) :
    num * 2 ^ 149 < 2 ^ 24 * (den * 2 ^ k * 2 ^ Q) ∧ (Q = 0 ∨ 2 ^ 23 * (den * 2 ^ k * 2 ^ Q) ≤ num * 2 ^ 149) := by
  obtain ⟨low, high⟩ := ratLog2_spec hn hd
  have scaled (p : Nat) : ((2 ^ p * (den * 2 ^ k * 2 ^ Q) : Nat) : ℚ) = 2 ^ ((p : Int) + k + Q - 149) * den * 2 ^ 149 := by
    have split : (2 : ℚ) ^ p * 2 ^ k * 2 ^ Q = 2 ^ ((p : Int) + k + Q - 149) * 2 ^ 149 := by
      rw [← zpow_natCast, ← zpow_natCast, ← zpow_natCast, ← zpow_natCast, ← zpow_add₀ two_ne_zero, ← zpow_add₀ two_ne_zero,
        ← zpow_add₀ two_ne_zero]
      congr 1
      omega
    push_cast
    calc (2 : ℚ) ^ p * (den * 2 ^ k * 2 ^ Q) = (2 : ℚ) ^ p * 2 ^ k * 2 ^ Q * den := by ring
      _ = _ := by rw [split]; ring
  have numerator : ((num * 2 ^ 149 : Nat) : ℚ) = num * 2 ^ 149 := by rw [Nat.cast_mul, Nat.cast_pow, Nat.cast_ofNat]
  constructor
  · rw [← Nat.cast_lt (α := ℚ), scaled 24]
    rw [numerator]
    gcongr
    calc (num : ℚ) < 2 ^ (ratLog2 num den + 1) * den := high
      _ ≤ _ := by
        gcongr
        · exact one_le_two
        · omega
  · by_cases least : Q = 0
    · exact .inl least
    · right
      rw [← Nat.cast_le (α := ℚ), scaled 23]
      rw [numerator]
      gcongr
      calc (2 : ℚ) ^ ((23 : Int) + k + Q - 149) * den ≤ 2 ^ ratLog2 num den * den := by
            gcongr
            · exact one_le_two
            · omega
        _ ≤ num := low

/-- The choice of the exponent Q - 149, and the quotient n / d that is rounded there. -/
theorem roundMag_fp32 {num den : Nat} (k : Nat) (hn : num ≠ 0) (hd : 0 < den) :
    ∃ Q n d : Nat, 0 < d ∧ (Q = 0 ∨ 2 ^ 23 * d ≤ n) ∧ n < 2 ^ 24 * d ∧
      (∃ c, c * n = num * 2 ^ 149 ∧ c * d = den * 2 ^ k * 2 ^ Q) ∧
      roundMag 24 (-149) 0x7F800000 num den (-(k : Int)) =
        (let b := Q * 2 ^ 23 + rneNat n d
         if 0x7F800000 ≤ b then (0x7F800000, true) else (b, false)) := by
  obtain ⟨Q, hQ⟩ := Int.eq_ofNat_of_zero_le (show 0 ≤ max (ratLog2 num den - k - 23) (-149) + 149 by omega)
  obtain ⟨high, low⟩ := significand_range (k := k) (Q := Q) hn hd.ne' (by omega)
  have choice : max (ratLog2 num den + -(k : Int) - (((24 : Nat) : Int) - 1)) (-149) = (Q : Int) - 149 := by omega
  have offset : ((Q : Int) - 149 - -149).toNat = Q := by omega
  have shape (n d c : Nat) (cn : c * n = num * 2 ^ 149) (cd : c * d = den * 2 ^ k * 2 ^ Q) (pos : 0 < c) :
      (Q = 0 ∨ 2 ^ 23 * d ≤ n) ∧ n < 2 ^ 24 * d := by
    rw [← cn, ← cd, mul_left_comm, mul_lt_mul_iff_right₀ pos] at high
    rw [← cn, ← cd, mul_left_comm, mul_le_mul_iff_right₀ pos] at low
    exact ⟨low, high⟩
  by_cases up : k + Q ≤ 149
  · have shift : (-(k : Int) - ((Q : Int) - 149)).toNat = 149 - (k + Q) := by omega
    have cn : 2 ^ (k + Q) * (num * 2 ^ (149 - (k + Q))) = num * 2 ^ 149 := by
      rw [mul_left_comm, ← pow_add, Nat.add_sub_cancel' up]
    have cd : 2 ^ (k + Q) * den = den * 2 ^ k * 2 ^ Q := by ring
    obtain ⟨low, high⟩ := shape _ _ _ cn cd (by positivity)
    refine ⟨Q, _, den, hd, low, high, ⟨_, cn, cd⟩, ?_⟩
    rw [roundMag, if_neg hn]
    simp only [choice, offset, shift]
    rw [if_pos (show 0 ≤ -(k : Int) - ((Q : Int) - 149) by omega)]
  · have shift : (-(-(k : Int) - ((Q : Int) - 149))).toNat = k + Q - 149 := by omega
    have cd : 2 ^ 149 * (den * 2 ^ (k + Q - 149)) = den * 2 ^ k * 2 ^ Q := by
      rw [mul_left_comm, ← pow_add, Nat.add_sub_cancel' (by omega), pow_add, mul_assoc]
    obtain ⟨low, high⟩ := shape _ _ _ (mul_comm _ _) cd (by positivity)
    refine ⟨Q, num, _, by positivity, low, high, ⟨_, mul_comm _ _, cd⟩, ?_⟩
    rw [roundMag, if_neg hn]
    simp only [choice, offset, shift]
    rw [if_neg (show ¬ 0 ≤ -(k : Int) - ((Q : Int) - 149) by omega)]

/-- Settles O26: the quotient is rounded to the nearest integer at the exponent chosen, and the pattern reads back as it. -/
theorem roundingIsToNearest : Obligations.RoundingIsToNearest := by
  unfold Obligations.RoundingIsToNearest
  intro num den k hd finite
  by_cases hn : num = 0
  · subst hn
    exact ⟨0, -149, by simpa [roundMag] using fl32_subnormal (r := 0) (by omega), le_rfl, by simp⟩
  obtain ⟨Q, n, d, pos, low, high, ⟨c, cn, cd⟩, rounded⟩ := roundMag_fp32 k hn hd
  obtain ⟨above, below⟩ := rneNat_nearest n pos
  simp only [rounded] at finite ⊢
  split_ifs at finite with tooBig
  rw [if_neg tooBig]
  have atMost : rneNat n d ≤ 2 ^ 24 := by
    by_contra more
    have := Nat.mul_le_mul_right d (show 2 ^ 24 + 1 ≤ rneNat n d by omega)
    omega
  have atLeast : Q = 0 ∨ 2 ^ 23 ≤ rneNat n d := by
    refine low.imp_right fun low => ?_
    by_contra less
    have := Nat.mul_le_mul_right d (show rneNat n d + 1 ≤ 2 ^ 23 by omega)
    rw [add_mul] at this
    omega
  obtain ⟨m, E, reads, same, le⟩ := fl32_significand atMost atLeast (by omega)
  refine ⟨m, E - 149, reads, by omega, ?_⟩
  have exponent : ((E : Int) - 149 + 149).toNat = E := by omega
  have value : m * 2 ^ E * (den * 2 ^ k) = c * (rneNat n d * d) := by
    rw [same, mul_left_comm c, cd]
    ring
  have unit : c * d ≤ 2 ^ E * (den * 2 ^ k) := by
    rw [cd, mul_comm]
    exact Nat.mul_le_mul_right _ (Nat.pow_le_pow_right (by omega) le)
  have above := Nat.mul_le_mul_left c above
  have below := Nat.mul_le_mul_left c below
  have difference : (num : Int) * 2 ^ 149 - m * 2 ^ E * (den * 2 ^ k) = (c * n : Nat) - (c * (rneNat n d * d) : Nat) := by
    rw [cn, ← value]
    push_cast
    ring
  rw [exponent, difference]
  simp only [mul_add, mul_left_comm c 2] at above below
  generalize c * (rneNat n d * d) = x at above below ⊢
  generalize c * n = y at above below ⊢
  omega

end Sys2Proof.Machine
end

section
/-! PROOFS. The vector units: an operation at the head reads its operands, then writes its rows (R168-R176). -/

namespace Sys2Proof.Machine

/-! ### Reads of the vector store leave the bytes as they are -/

theorem readErrs_vectorStore_mem (unit : Nat) (l : List (Nat × ReadOutcome)) (s : State) :
    (readErrs .vectorStore unit l s).1.mem = s.mem := by
  induction l generalizing s with
  | nil => rfl
  | cons e l ih =>
    obtain ⟨a, o⟩ := e
    cases o <;> simp [readErrs, ih, noteCorrected, noteReread, logError, State.faultCorrected, dropErr, modMaint]

theorem checkRanges_vectorStore_mem (unit : Nat) (l : List (Nat × Nat)) (s : State) :
    (checkRanges .vectorStore unit l s).1.mem = s.mem := by
  induction l generalizing s with
  | nil => rfl
  | cons r l ih =>
    have read := readErrs_vectorStore_mem unit (errsAt s (touches (memBase .vectorStore unit + r.1) r.2)) s
    rw [checkRanges, checkRead]
    split
    next u e =>
      rw [e] at read
      rw [ih, read]
    next => exact read

/-! ### The head of a vector unit's queue -/

section
variable {s t u : State} {f : FacetId} {prio : Bool} {w : BitVec 128} {b : Binding} {op : Nat}
  {body : State → VArgs → Binding → Judge} {g : State → State}

theorem settleEngine_vector (s : State) (f : FacetId) : settleEngine s (32 + f.val) = s := if_neg (by omega)

/-- A vector unit accepts the opcodes 40h to 5Bh. -/
theorem acceptedBy_vector (f : FacetId) (low : 0x40 ≤ op) (high : op ≤ 0x5B) : acceptedBy (32 + f.val) op = true := by
  rw [acceptedBy, if_neg (by omega)]
  simp [low, high]

theorem vecFields_head (head : VecHead s f prio w b) : vecFields w = 0 := by
  obtain ⟨-, reserved, prec, len, count⟩ := head
  simp [vecFields, reserved, prec, len, count]

section
variable (head : VecHead s f prio w b) (hop : cmdOp w = op) (low : 0x40 ≤ op) (high : op ≤ 0x5B)

include head hop low high

theorem runVec_done (read : checkRanges .vectorStore f.val (vecReads s f.val op (vargs w)) s = (u, none))
    (hb : body u (vargs w) b = .done t) : runVec s f.val prio op body = t := by
  rw [runVec, runHead_done head.1 (by rw [hop]; exact acceptedBy_vector f low high) (by simp [hop]) (t := t)
    (by simp [vecFields_head head, read, hb]), settleEngine_vector]

theorem runVec_wait (read : checkRanges .vectorStore f.val (vecReads s f.val op (vargs w)) s = (u, none))
    (hb : body u (vargs w) b = .wait t) : runVec s f.val prio op body = t := by
  rw [runVec, runHead_wait head.1 (by rw [hop]; exact acceptedBy_vector f low high) (by simp [hop]) (t := t)
    (by simp [vecFields_head head, read, hb]), settleEngine_vector]

theorem runVec_uncorrectable {a : Nat} (read : checkRanges .vectorStore f.val (vecReads s f.val op (vargs w)) s = (u, some a))
    (hb : body s (vargs w) b = .done t) :
    runVec s f.val prio op body = readAbort u .vectorStore f.val a (32 + f.val) prio b.task := by
  rw [runVec, runHead_done head.1 (by rw [hop]; exact acceptedBy_vector f low high) (by simp [hop])
    (t := readAbort u .vectorStore f.val a (32 + f.val) prio b.task) (by simp [vecFields_head head, read, hb]), settleEngine_vector]

/-- An operation that comes to `g` of the state in which its operands have been read. -/
theorem runVec_reads (done : ∀ u : State, u.mem = s.mem → body u (vargs w) b = .done (g u)) :
    runVec s f.val prio op body = afterReads s f prio w b g := by
  have mem := checkRanges_vectorStore_mem f.val (vecReads s f.val op (vargs w)) s
  rw [afterReads, hop]
  rcases e : checkRanges .vectorStore f.val (vecReads s f.val op (vargs w)) s with ⟨u, _ | a⟩
  · rw [e] at mem
    exact runVec_done head hop low high e (done u mem)
  · exact runVec_uncorrectable head hop low high e (done s rfl)

end

/-- VLOAD and VSTORE read no operand rows. -/
theorem checkRanges_loadStore (isLoad : op = 0x40 ∨ op = 0x41) :
    checkRanges .vectorStore f.val (vecReads s f.val op (vargs w)) s = (s, none) := by
  rw [vecReads, if_pos isLoad, checkRanges]

end

/-! ### Operations on rows -/

section
variable {u : State} {f : FacetId} {prio : Bool} {w : BitVec 128} {b : Binding} {mask : Nat}

theorem rowsBody_done {aLen bLen cLen outBytes : Nat} {op : VArgs → List Nat → List Nat → List Nat → RowOut}
    (inA : inStore (vargs w).a (vargs w).count ((vargs w).inSize * aLen) = true)
    (inB : bLen ≠ 0 → inStore (vargs w).b (vargs w).count ((vargs w).inSize * bLen) = true)
    (inC : cLen ≠ 0 → inStore (vargs w).c (vargs w).count ((vargs w).inSize * cLen) = true)
    (inDst : inStore (vargs w).dst (vargs w).count outBytes = true) :
    rowsBody f.val prio mask aLen bLen cLen outBytes op u (vargs w) b =
      .done (vecDone u f prio w b mask ((List.range (vargs w).count).map fun r =>
        op (vargs w) (readRow u f.val (vargs w).a (vargs w).inSize aLen r)
          (if bLen = 0 then [] else readRow u f.val (vargs w).b (vargs w).inSize bLen r)
          (if cLen = 0 then [] else readRow u f.val (vargs w).c (vargs w).inSize cLen r))) := by
  have operandB : (bLen != 0 && !inStore (vargs w).b (vargs w).count ((vargs w).inSize * bLen)) = false := by
    by_cases zero : bLen = 0
    · simp [zero]
    · simp [inB zero]
  have operandC : (cLen != 0 && !inStore (vargs w).c (vargs w).count ((vargs w).inSize * cLen)) = false := by
    by_cases zero : cLen = 0
    · simp [zero]
    · simp [inC zero]
  simp only [rowsBody, inA, operandB, operandC, inDst, Bool.not_true, Bool.or_false, Bool.false_eq_true, if_false]
  rfl

variable (len : (vargs w).len ≠ 0) (inA : inStore (vargs w).a (vargs w).count ((vargs w).inSize * (vargs w).len) = true)
  (inDst : inStore (vargs w).dst (vargs w).count ((vargs w).outSize * (vargs w).len) = true)
  {g : VArgs → Nat → Nat → Nat → Nat × Nat}

include inA inDst in
theorem elementwise_one :
    elementwise f.val prio mask 1 g u (vargs w) b =
      .done (vecDone u f prio w b mask ((List.range (vargs w).count).map fun r =>
        RowOut.ofFp ((List.range (vargs w).len).map fun i =>
          g (vargs w) ((readRow u f.val (vargs w).a (vargs w).inSize (vargs w).len r).getD i 0) 0 0))) :=
  rowsBody_done inA (by simp) (by simp) inDst

include len inA inDst in
theorem elementwise_two (inB : inStore (vargs w).b (vargs w).count ((vargs w).inSize * (vargs w).len) = true) :
    elementwise f.val prio mask 2 g u (vargs w) b =
      .done (vecDone u f prio w b mask ((List.range (vargs w).count).map fun r =>
        RowOut.ofFp ((List.range (vargs w).len).map fun i =>
          g (vargs w) ((readRow u f.val (vargs w).a (vargs w).inSize (vargs w).len r).getD i 0)
            ((readRow u f.val (vargs w).b (vargs w).inSize (vargs w).len r).getD i 0) 0))) := by
  rw [elementwise, rowsBody_done inA (fun _ => by simpa using inB) (by simp) inDst]
  simp [len]

include len inA inDst in
theorem elementwise_three (inB : inStore (vargs w).b (vargs w).count ((vargs w).inSize * (vargs w).len) = true)
    (inC : inStore (vargs w).c (vargs w).count ((vargs w).inSize * (vargs w).len) = true) :
    elementwise f.val prio mask 3 g u (vargs w) b =
      .done (vecDone u f prio w b mask ((List.range (vargs w).count).map fun r =>
        RowOut.ofFp ((List.range (vargs w).len).map fun i =>
          g (vargs w) ((readRow u f.val (vargs w).a (vargs w).inSize (vargs w).len r).getD i 0)
            ((readRow u f.val (vargs w).b (vargs w).inSize (vargs w).len r).getD i 0)
            ((readRow u f.val (vargs w).c (vargs w).inSize (vargs w).len r).getD i 0)))) := by
  rw [elementwise, rowsBody_done inA (fun _ => by simpa using inB) (fun _ => by simpa using inC) inDst]
  simp [len]

end

/-- Settles O20: `runVec_reads` with the rows of `elementwise_one`, `elementwise_two` and `elementwise_three`. -/
theorem elementwiseOperations : Obligations.ElementwiseOperations := by
  unfold Obligations.ElementwiseOperations
  intro f prio w b s head v inA inDst rd done one two
  have ⟨_, _, _, len, _⟩ := head
  have unary {op mask : Nat} {g : VArgs → Nat → Nat → Nat → Nat × Nat} (hop : cmdOp w = op) (low : 0x40 ≤ op) (high : op ≤ 0x5B) :
      runVec s f.val prio op (elementwise f.val prio mask 1 g) = afterReads s f prio w b fun u => vecDone u f prio w b mask
        ((List.range v.count).map fun r => RowOut.ofFp ((List.range v.len).map fun i => g v (rd u v.a r i) 0 0)) :=
    runVec_reads head hop low high fun _ _ => elementwise_one inA inDst
  refine ⟨fun op => congrArg Next (unary op (by decide) (by decide)), fun op => congrArg Next (unary op (by decide) (by decide)),
    fun op => congrArg Next (unary op (by decide) (by decide)), fun op => congrArg Next (unary op (by decide) (by decide)),
    fun op => congrArg Next (unary op (by decide) (by decide)), fun op => congrArg Next (unary op (by decide) (by decide)),
    fun op => congrArg Next (unary op (by decide) (by decide)), fun op => congrArg Next (unary op (by decide) (by decide)),
    fun inB => ?_⟩
  have binary {op mask : Nat} {g : VArgs → Nat → Nat → Nat → Nat × Nat} (hop : cmdOp w = op) (low : 0x40 ≤ op)
      (high : op ≤ 0x5B) :
      runVec s f.val prio op (elementwise f.val prio mask 2 g) = afterReads s f prio w b fun u => vecDone u f prio w b mask
        ((List.range v.count).map fun r => RowOut.ofFp ((List.range v.len).map fun i =>
          g v (rd u v.a r i) (rd u v.b r i) 0)) :=
    runVec_reads head hop low high fun _ _ => elementwise_two len inA inDst inB
  exact ⟨fun op => congrArg Next (binary op (by decide) (by decide)), fun op => congrArg Next (binary op (by decide) (by decide)),
    fun op => congrArg Next (binary op (by decide) (by decide)), fun op => congrArg Next (binary op (by decide) (by decide)),
    fun op inC => congrArg Next (runVec_reads head op (by decide) (by decide) fun _ _ => elementwise_three len inA inDst inB inC)⟩

/-- Settles O21: `runVec_reads` with the rows of `rowsBody_done`. -/
theorem rowOperations : Obligations.RowOperations := by
  unfold Obligations.RowOperations
  intro f prio w b s head v inA rd out done
  have ⟨_, _, _, len, _⟩ := head
  have zero : v.len = 0 ↔ False := iff_false_intro len
  refine ⟨fun inDst => ⟨fun op => ?_, fun inB => ⟨fun op => ?_, fun op inC => ?_, fun op => ?_⟩⟩, fun op inDst => ?_,
    fun op inDst => ?_, fun op imm most fits inDst => ?_⟩
  · exact congrArg Next (runVec_reads head op (by decide) (by decide) fun u _ => by
      rw [rowsBody_done inA (by simp) (by simp) inDst]
      rfl)
  · refine congrArg Next (runVec_reads head op (by decide) (by decide) fun u _ => ?_)
    rw [rowsBody_done inA (fun _ => inB) (by simp) inDst]
    simp only [zero, if_false]
    rfl
  · refine congrArg Next (runVec_reads head op (by decide) (by decide) fun u _ => ?_)
    rw [rowsBody_done inA (fun _ => inB) (fun _ => inC) inDst]
    simp only [zero, if_false]
    rfl
  · refine congrArg Next (runVec_reads head op (by decide) (by decide) fun u _ => ?_)
    rw [rowsBody_done inA (fun _ => inB) (by simp) inDst]
    simp only [zero, if_false]
    rfl
  · exact congrArg Next (runVec_reads head op (by decide) (by decide) fun u _ => rowsBody_done inA (by simp) (by simp) inDst)
  · exact congrArg Next (runVec_reads head op (by decide) (by decide) fun u _ => by
      rw [rowsBody_done inA (by simp) (by simp) inDst]
      rfl)
  · have good : ¬ ((vargs w).imm = 0 ∨ 256 < (vargs w).imm ∨ (vargs w).len < (vargs w).imm) := by
      simp only [v] at imm most fits
      omega
    exact congrArg Next (runVec_reads head op (by decide) (by decide) fun u _ => by
      rw [if_neg good, rowsBody_done inA (by simp) (by simp) inDst]
      rfl)

/-- Settles O22: each writes one row. -/
theorem dotProductsAndWeightedSums : Obligations.DotProductsAndWeightedSums := by
  unfold Obligations.DotProductsAndWeightedSums
  intro f prio w b s head v inA row
  simp only [v] at inA
  refine ⟨fun op inB inDst => ?_, fun op inB inDst => ?_⟩
  · simp only [v] at inB inDst
    refine congrArg Next (runVec_reads head op (by decide) (by decide) fun u _ => ?_)
    simp only [vdotBody, inA, inB, inDst, Bool.not_true, Bool.or_false, Bool.false_eq_true, if_false]
    rfl
  · simp only [v] at inB inDst
    refine congrArg Next (runVec_reads head op (by decide) (by decide) fun u _ => ?_)
    simp only [vwsumBody, inA, inB, inDst, Bool.not_true, Bool.or_false, Bool.false_eq_true, if_false, List.map_map]
    rfl

theorem any_any_not {α : Type} (l : List (List α)) (p : α → Bool) :
    (l.any fun xs => xs.any fun x => !p x) = true ↔ ¬ ∀ xs ∈ l, ∀ x ∈ xs, p x = true := by
  simp

/-- Settles O23: with finite inputs the rows or tiles are written, else the task ends. -/
theorem samplingAndQuantisation : Obligations.SamplingAndQuantisation := by
  unfold Obligations.SamplingAndQuantisation
  intro f prio w b s head v n rows pop
  refine ⟨fun op inA inDst => ?_, fun op some_ most count inA inDst => ?_, fun op most inA inDst => ?_⟩
  · refine congrArg Next (runVec_reads head op (by decide) (by decide) fun u _ => ?_)
    simp only [v] at inA inDst
    simp only [vsampleBody, inA, inDst, Bool.not_true, Bool.or_false, Bool.false_eq_true, if_false, any_any_not]
    by_cases finite : ∀ r < v.count, ∀ p ∈ pairRow u f.val v r, isFinite p.1 = true
    · rw [if_pos finite, if_neg (by simpa [v] using finite)]
      simp only [List.map_map]
      rfl
    · rw [if_neg finite, if_pos (by simpa [v] using finite)]
  · refine congrArg Next (runVec_reads head op (by decide) (by decide) fun u _ => ?_)
    have fields : ¬ (v.c = 0 ∨ 7 < v.c ∨ 2048 < v.count) := by omega
    simp only [v, n] at inA inDst fields
    simp only [vquantBody, fields, inA, inDst, Bool.not_true, Bool.or_false, Bool.false_eq_true, if_false, any_any_not]
    by_cases finite : ∀ xs ∈ rows u, ∀ x ∈ xs, quantFinite v.c (fmul x v.imm).1 = true
    · rw [if_pos finite, if_neg (by simpa [v, rows] using finite)]
    · rw [if_neg finite, if_pos (by simpa [v, rows] using finite)]
  · refine congrArg Next (runVec_reads head op (by decide) (by decide) fun u _ => ?_)
    have fields : ¬ 7 < v.c := by omega
    simp only [v, n] at inA inDst fields
    simp only [vquantwBody, fields, inA, inDst, Bool.not_true, Bool.or_false, Bool.false_eq_true, if_false, any_any_not]
    by_cases finite : ∀ xs ∈ rows u, ∀ x ∈ xs, isFinite (fmul x v.imm).1 = true
    · rw [if_pos finite, if_neg (by simpa [v, rows] using finite)]
    · rw [if_neg finite, if_pos (by simpa [v, rows] using finite)]

/-- Settles O24: what VLOAD, VSTORE and VSUMCVT do when their buffer or tile is at hand. -/
theorem vectorLoadsStoresAndSums : Obligations.VectorLoadsStoresAndSums := by
  unfold Obligations.VectorLoadsStoresAndSums
  intro f prio w b s head v
  refine ⟨fun i l op queue tag room => ?_, ?_, fun key op pushing sent => ?_, ?_⟩
  · have run {t : State} (hb : vloadBody f.val prio s (vargs w) b = .done t) : exec (.vload f prio) s = Next t :=
      congrArg Next (runVec_done head op (by decide) (by decide) (checkRanges_loadStore (.inl rfl)) hb)
    simp only [v] at queue tag room
    rcases e : checkItem s i with ⟨u, _ | a⟩
    · exact run (by simp [vloadBody, queue, tag, room, e, v])
    · exact run (by simp [vloadBody, queue, tag, room, e])
  · intro x t serial op idle inA stream data key fits taken
    have read := checkRanges_loadStore (s := s) (f := f) (w := w) (op := 0x41) (.inr rfl)
    have body : vstoreBody f.val prio s (vargs w) b =
        match checkRanges .vectorStore f.val (rowRanges v.a v.count (v.inSize * v.len)) t with
        | (u, some a) => .done (readAbort u .vectorStore f.val a (32 + f.val) prio b.task)
        | (u, none) => vstoreEnd f.val prio
            (finishBuf u x.desc.eic x.desc.stream serial (if v.outSize = 4 then 2 else 3) data) key := by
      simp only [v, data] at inA stream fits taken
      simp only [vstoreBody, idle, inA, stream, fits, taken, Bool.not_true, Bool.false_eq_true, if_false]
      rfl
    rcases e : checkRanges .vectorStore f.val (rowRanges v.a v.count (v.inSize * v.len)) t with ⟨u, _ | a⟩
    · rw [e] at body
      by_cases sent : pushed (finishBuf u x.desc.eic x.desc.stream serial (if v.outSize = 4 then 2 else 3) data) key = true
      · simp only [if_pos sent]
        refine congrArg Next (runVec_done head op (by decide) (by decide) read ?_)
        simp only [body, vstoreEnd, if_pos sent]
      · simp only [if_neg sent]
        refine congrArg Next (runVec_wait head op (by decide) (by decide) read ?_)
        simp only [body, vstoreEnd, if_neg sent]
    · rw [e] at body
      exact congrArg Next (runVec_done head op (by decide) (by decide) read body)
  · refine congrArg Next (runVec_done head op (by decide) (by decide) (checkRanges_loadStore (.inr rfl)) ?_)
    simp [vstoreBody, pushing, vstoreEnd, sent]
  · intro op head form rows vecs tile inA inDst
    refine congrArg Next (runVec_reads ‹_› op (by decide) (by decide) fun u mem => ?_)
    have same (line n : Nat) : storeBytes u f.val line n = storeBytes s f.val line n := by rw [storeBytes, storeBytes, mem]
    simp only [v, head, form, rows, vecs] at inA inDst
    simp only [vsumcvtBody, same, inA, decide_eq_true_eq, inDst, Bool.not_true, Bool.or_false, Bool.false_eq_true, if_false]
    rfl

end Sys2Proof.Machine
end

section
/-! PROOFS. The frame of the elementwise operations (R169-R171): what lies outside the rows written keeps its value. -/

namespace Sys2Proof.Machine

/-- From s to t at unit f, nothing but the bytes from address `lo` up to `hi` and the objects VEC_OPS and VEC_FLAGS of the unit changes
of memory, objects and what lies about the unit. -/
structure VecFrame (f lo hi : Nat) (s t : State) : Prop where
  mem : ∀ a, a < lo ∨ hi ≤ a → memByte t.mem a = memByte s.mem a
  val : ∀ oid, oid ≠ fam 0x3900_01 f → oid ≠ fam 0x3900_02 f → t.val oid = s.val oid
  facets : t.facets = s.facets
  stations : t.stations = s.stations
  streams : t.streams = s.streams
  events : t.events = s.events
  out : t.out = s.out

section
variable {s t u : State} {f lo hi : Nat}

theorem VecFrame.refl : VecFrame f lo hi s s := ⟨fun _ _ => rfl, fun _ _ _ => rfl, rfl, rfl, rfl, rfl, rfl⟩

theorem VecFrame.trans (h : VecFrame f lo hi s t) (k : VecFrame f lo hi t u) : VecFrame f lo hi s u :=
  ⟨fun a out => (k.mem a out).trans (h.mem a out), fun oid n m => (k.val oid n m).trans (h.val oid n m),
    k.facets.trans h.facets, k.stations.trans h.stations, k.streams.trans h.streams, k.events.trans h.events, k.out.trans h.out⟩

theorem vecFrame_setNum {oid v : Nat} (own : oid = fam 0x3900_01 f ∨ oid = fam 0x3900_02 f) :
    VecFrame f lo hi s (s.setNum oid v) := by
  refine ⟨fun _ _ => rfl, fun k ops flags => State.val_setVal_other s oid k _ ?_, rfl, rfl, rfl, rfl, rfl⟩
  rcases own with rfl | rfl
  · exact ops
  · exact flags

/-- The head's command leaves its queue. -/
theorem vecFrame_popCmd {prio : Bool} : VecFrame f lo hi s (popCmd s (32 + f) prio) := by
  have taken : VecFrame f lo hi s (takeCmd s (32 + f) prio) := by
    rw [takeCmd]
    cases ((engineN s (32 + f)).queue prio).binding
    all_goals
      simp only [modQueue, modEngine]
      split <;> exact ⟨fun _ _ => rfl, fun _ _ _ => rfl, rfl, rfl, rfl, rfl, rfl⟩
  rw [popCmd, if_neg (by omega), Nat.add_sub_cancel_left]
  split
  · split
    · exact taken.trans (vecFrame_setNum (.inl rfl))
    · exact taken
  · exact taken

theorem vecFrame_vecFlags {task flags : Nat} : VecFrame f lo hi s (vecFlags s f task flags) :=
  (vecFrame_setNum (.inr rfl)).trans ⟨fun _ _ => rfl, fun _ _ _ => rfl, rfl, rfl, rfl, rfl, rfl⟩

theorem memByte_memWrite_outside {m : List Host.Cell} {b : Bytes} {a k : Nat} (out : k < a ∨ a + b.length ≤ k) :
    memByte (memWrite m a b) k = memByte m k := by
  induction b generalizing m a with
  | nil => rfl
  | cons x b ih =>
    have len : (x :: b).length = b.length + 1 := rfl
    rw [memWrite, ih (by omega)]
    exact sparseGet_put_other memDefault m a k x (by omega)

theorem vecFrame_putBytes {line : Nat} {b : Bytes} (low : lo ≤ vstoreBase f + 64 * line)
    (high : vstoreBase f + 64 * line + b.length ≤ hi) : VecFrame f lo hi s (putBytes s f line b) := by
  have cleared (u : State) (p : Nat → Bool) : VecFrame f lo hi u (clearErrs u p) := by
    rw [clearErrs]
    split <;> exact ⟨fun _ _ => rfl, fun _ _ _ => rfl, rfl, rfl, rfl, rfl, rfl⟩
  have written : VecFrame f lo hi s { s with mem := memWrite s.mem (vstoreBase f + 64 * line) b } :=
    ⟨fun a out => memByte_memWrite_outside (by omega), fun _ _ _ => rfl, rfl, rfl, rfl, rfl, rfl⟩
  rw [putBytes, storeMem]
  exact written.trans (cleared _ _)

end

/-! ### Rows of one length -/

theorem outElem_length {size x : Nat} (two_or_four : size = 2 ∨ size = 4) : (outElem size x).1.length = size := by
  rcases two_or_four with rfl | rfl <;> simp [outElem, leBytes_length]

/-- A row of elements takes their size each. -/
theorem ofFp_bytes_length {size : Nat} (two_or_four : size = 2 ∨ size = 4) (l : List (Nat × Nat)) :
    ((RowOut.ofFp l).bytes size).1.length = size * l.length := by
  have grows (l : List (Nat × Nat)) (a : Bytes × Nat) :
      ((l.map fun x => (x.1, true)).foldl (fun (a : Bytes × Nat) v =>
        if v.2 then
          let e := outElem size v.1
          (a.1 ++ e.1, a.2 ||| e.2)
        else (a.1 ++ leBytes 4 v.1, a.2)) a).1.length = a.1.length + size * l.length := by
    induction l generalizing a with
    | nil => simp
    | cons x l ih =>
      simp only [List.map_cons, List.foldl_cons, if_true, ih, List.length_append, outElem_length two_or_four, List.length_cons]
      ring
  have whole := grows l ([], (RowOut.ofFp l).flags)
  rw [List.length_nil, zero_add] at whole
  exact whole

/-- Rows written from a line stay below the line behind the last of them. -/
theorem vecFrame_writeRows {s : State} {f line size n : Nat} {rows : List RowOut} (each : ∀ o ∈ rows, (o.bytes size).1.length = n) :
    VecFrame f (vstoreBase f + 64 * line) (vstoreBase f + 64 * (line + rows.length * rowLines n)) s (writeRows s f line size rows).1 := by
  have fits : n ≤ 64 * rowLines n := by
    rw [rowLines, ceilDiv]
    omega
  rw [writeRows]
  refine List.foldlRecOn _ _ (motive := fun a : State × Nat => VecFrame f _ _ s a.1) VecFrame.refl fun a keeps o mem => ?_
  obtain ⟨i, lt, rfl⟩ : ∃ i, ∃ lt : i < rows.length, o = (rows[i], i) := by
    obtain ⟨r, i⟩ := o
    obtain ⟨lt, same⟩ := List.getElem?_eq_some_iff.1 (List.mem_zipIdx_iff_getElem?.1 mem)
    exact ⟨i, lt, by rw [same]⟩
  have len : (rows[i].bytes size).1.length = n := each _ (List.getElem_mem lt)
  have upTo : (i + 1) * rowLines n ≤ rows.length * rowLines n := Nat.mul_le_mul_right _ lt
  rw [add_mul, one_mul] at upTo
  refine keeps.trans (vecFrame_putBytes ?_ ?_)
  · omega
  · simp only [len]
    omega

/-- Ranges without errors are read without an effect. -/
theorem checkRanges_clean {m : MemKind} {unit : Nat} {l : List (Nat × Nat)} {s : State}
    (clean : ∀ r ∈ l, errsAt s (touches (memBase m unit + r.1) r.2) = []) : checkRanges m unit l s = (s, none) := by
  induction l with
  | nil => rfl
  | cons r l ih =>
    have first : checkRead s m unit r.1 r.2 = (s, none) := by rw [checkRead, clean r (by simp), readErrs]
    rw [checkRanges, first]
    exact ih fun q mem => clean q (List.mem_cons_of_mem r mem)

section
variable {s t : State} {f : FacetId} {prio : Bool} {w : BitVec 128} {b : Binding} {mask : Nat}

theorem outSize_two_or_four (v : VArgs) : v.outSize = 2 ∨ v.outSize = 4 := by
  rw [VArgs.outSize]
  split
  · exact .inr rfl
  · exact .inl rfl

/-- An operation that writes COUNT rows of LEN elements, on operand words without errors. -/
theorem vecFrame_elementwise (clean : ∀ r ∈ vecReads s f.val (cmdOp w) (vargs w), errsAt s (touches (vstoreBase f.val + r.1) r.2) = [])
    {g : State → Nat → Nat → Nat × Nat}
    (done : Next (afterReads s f prio w b fun u => vecDone u f prio w b mask ((List.range (vargs w).count).map fun r =>
      RowOut.ofFp ((List.range (vargs w).len).map fun i => g u r i))) = Next t) :
    VecFrame f.val (vstoreBase f.val + 64 * (vargs w).dst) (vstoreBase f.val + 64 * ((vargs w).dst + (vargs w).count *
      rowLines ((vargs w).outSize * (vargs w).len))) s t := by
  rw [afterReads, checkRanges_clean clean] at done
  obtain rfl := Host.Outcome.next.inj done
  have rows := vecFrame_writeRows (s := popCmd s (32 + f.val) prio) (f := f.val) (line := (vargs w).dst) (size := (vargs w).outSize)
    (n := (vargs w).outSize * (vargs w).len)
    (rows := (List.range (vargs w).count).map fun r => RowOut.ofFp ((List.range (vargs w).len).map fun i => g s r i)) fun o mem => by
      obtain ⟨r, -, rfl⟩ := List.mem_map.1 mem
      simpa using ofFp_bytes_length (outSize_two_or_four (vargs w)) ((List.range (vargs w).len).map fun i => g s r i)
  rw [List.length_map, List.length_range] at rows
  exact vecFrame_popCmd.trans (rows.trans vecFrame_vecFlags)

end

/-- Settles O25: each operation comes to its rows by O20, and rows keep what lies outside them. -/
theorem elementwiseFrame : Obligations.ElementwiseFrame := by
  unfold Obligations.ElementwiseFrame
  intro f prio w b s t head v clean inA inB inC inDst ran
  obtain ⟨scale, exp, rsqrt, recip, tanh, sigmoid, gelu, silu, binary⟩ := elementwiseOperations f prio w b s head inA inDst
  obtain ⟨add, mul, max, min, fma⟩ := binary inB
  have frame : VecFrame f.val (vstoreBase f.val + 64 * v.dst) (vstoreBase f.val + 64 * (v.dst + v.count *
      rowLines (v.outSize * v.len))) s t := by
    rcases ran with ⟨r, o⟩ | ⟨r, o⟩ | ⟨r, o⟩ | ⟨r, o⟩ | ⟨r, o⟩ | ⟨r, o⟩ | ⟨r, o⟩ | ⟨r, o⟩ | ⟨r, o⟩ | ⟨r, o⟩ | ⟨r, o⟩ | ⟨r, o⟩ | ⟨r, o⟩
    · exact vecFrame_elementwise clean ((add o).symm.trans r)
    · exact vecFrame_elementwise clean ((mul o).symm.trans r)
    · exact vecFrame_elementwise clean ((fma o inC).symm.trans r)
    · exact vecFrame_elementwise clean ((max o).symm.trans r)
    · exact vecFrame_elementwise clean ((min o).symm.trans r)
    · exact vecFrame_elementwise clean ((scale o).symm.trans r)
    · exact vecFrame_elementwise clean ((exp o).symm.trans r)
    · exact vecFrame_elementwise clean ((rsqrt o).symm.trans r)
    · exact vecFrame_elementwise clean ((recip o).symm.trans r)
    · exact vecFrame_elementwise clean ((tanh o).symm.trans r)
    · exact vecFrame_elementwise clean ((sigmoid o).symm.trans r)
    · exact vecFrame_elementwise clean ((gelu o).symm.trans r)
    · exact vecFrame_elementwise clean ((silu o).symm.trans r)
  exact ⟨frame.mem, frame.val, frame.facets, frame.stations, frame.streams, frame.events, frame.out⟩

end Sys2Proof.Machine
end

section
/-! PROOFS. Writes and reads over the ring (R401-R403, R422): the checks passed, a write has its object's effect and is answered. -/

namespace Sys2Proof.Machine

section
variable {s t : State} {x : Xfer} {index sub : Nat} {b : Bytes} {codes : Option (Vector Int 16)}

/-- A number not in use ends no transfer. -/
theorem endXfer_unused (free : Unused s x) : endXfer (heard s) x = heard s := by
  obtain ⟨idle, unread⟩ := free
  have idle' : (heard s).ring.xfers[x] = none := idle
  have unread' : (heard s).ring.waiting.any (waitingSeg x) = false := unread
  simp [endXfer, idle', unread']

theorem deliverWrite_unused (free : Unused s x) : deliverWrite s x index sub b codes =
    (let r := writeObject (heard s) index sub b codes
     restartAfter (sendResp r.2 x.val r.1 index sub 0 []) index sub r.1 b) := by
  rw [deliverWrite, endXfer_unused free]

theorem writeObject_accepted {d : ObjDef} (good : judgeWrite s index sub b = 0) (def_ : findDef index sub = some d) :
    writeObject s index sub b codes = applyWrite s index sub d (toVal d.ty b) codes := by
  simp [writeObject, good, def_]

theorem writeObject_refused (bad : judgeWrite s index sub b ≠ 0) :
    writeObject s index sub b codes = (judgeWrite s index sub b, refusedWrite s index sub (judgeWrite s index sub b) b) := by
  simp [writeObject, bad]

theorem restartAfter_of_ne {r : Nat} (other : index ≠ 0x1001 ∨ r ≠ 0 ∨ leNat b ≠ 7) : restartAfter s index sub r b = s := by
  rw [restartAfter, if_neg]
  rintro ⟨node, -, done, seven⟩
  rcases other with h | h | h
  · exact h node
  · exact h done
  · exact h seven

/-- What an object's row says that its write uses. -/
def defRow (index sub : Nat) : Option (Nat × Ty × Bool) := (findDef index sub).map fun d => (d.base, d.ty, d.persist)

/-- An accepted write of an object whose effect ends well is answered with 0. -/
theorem deliverWrite_answered {base : Nat} {ty : Ty} {persist : Bool} {v : Val} (good : Accepted s x index sub b)
    (row : defRow index sub = some (base, ty, persist)) (value : toVal ty b = v)
    (effect : ∀ count k acc expert dflt,
      applyWrite (heard s) index sub ⟨base, count, k, ty, acc, expert, persist, dflt⟩ v codes = (0, t))
    (stays : index ≠ 0x1001 ∨ leNat b ≠ 7) : deliverWrite s x index sub b codes = sendResp t x.val 0 index sub 0 [] := by
  obtain ⟨free, judged⟩ := good
  obtain ⟨⟨_, count, k, _, acc, expert, _, dflt⟩, def_, same⟩ := Option.map_eq_some_iff.1 row
  obtain ⟨rfl, rfl, rfl⟩ := by simpa using same
  rw [deliverWrite_unused free, writeObject_accepted judged def_, value, effect]
  exact restartAfter_of_ne (by tauto)

end

/-- Settles O27: by whether the number is in use, and whether the transfer is whole. -/
theorem parameterTransfers : Obligations.ParameterTransfers := by
  unfold Obligations.ParameterTransfers
  refine ⟨fun x index sub value d s free short def_ => ?_, fun x index sub total value s free long most part => ?_,
    fun x t payload s busy unread len => ⟨fun more => ?_, fun last d def_ good => ?_⟩, fun x index sub s free good => ?_,
    fun x t s busy => ⟨?_, fun late => ?_⟩, fun x n index sub s idle unread found => ?_⟩
  · change execParamWrite x index sub value.length value s = _
    rw [execParamWrite, if_neg (by omega), beginWrite, if_pos rfl, deliverWrite_unused free]
    by_cases good : judgeWrite (heard s) index.toNat sub.toNat value = 0
    · rw [writeObject_accepted good def_]
      simp only [good, if_true]
    · rw [writeObject_refused good]
      simp only [good, if_false]
      exact congrArg Next (restartAfter_of_ne (.inr (.inl good)))
  · change execParamWrite x index sub total value s = _
    rw [execParamWrite, if_neg (by omega), beginWrite, if_neg (by omega), endXfer_unused free]
  · change execParamSeg x t.data.length t.total payload s = _
    simp only [execParamSeg, segment, busy]
    rw [if_neg (by simp [len]), if_pos more]
  · change execParamSeg x t.data.length t.total payload s = _
    have free : Unused (modXfer s x none) x := ⟨Vector.getElem_set_self x.isLt, unread⟩
    simp only [execParamSeg, segment, busy]
    rw [if_neg (by simp [len]), if_neg (by omega), deliverWrite_unused free, writeObject_accepted good def_]
  · change execRcRead x index sub s = _
    simp only [execRcRead, deliverRead, endXfer_unused free, good, ne_eq, not_true_eq_false, if_false]
  · change execParamAbort x s = _
    have busy' : (heard s).ring.xfers[x] = some t := busy
    rw [execParamAbort, endXfer, busy']
  · change execXferTimeout x s = _
    rw [execXferTimeout, endXfer, busy]
    simp [late]
  · change execParamAbort x s = _
    have idle' : (heard s).ring.xfers[x] = none := idle
    have unread' : (heard s).ring.waiting.any (waitingSeg x) = true := unread
    have found' : (heard s).ring.reads.find? (fun e => e.1 == x.val) = some (n, index, sub) := found
    rw [execParamAbort, endXfer, idle', unread', found']
    rfl

/-! ### Node commands -/

/-- A command that its judge lets through leaves 0 in LAST_RESULT and runs. -/
theorem nodeCommand_run {s : State} {code : Nat} (judged : judgeCommand s code = 0) :
    nodeCommand s code = (0, runCommand (s.setNum 0x1000_03 0) code) := by
  simp [nodeCommand, judged]

section
variable {s : State}

theorem runCommand_serve (idle : s.quiesce = 0) : runCommand s 2 = moveNode (layRegions s) .serving 2 := by simp [runCommand, idle]

theorem runCommand_quiesce (idle : s.quiesce = 0) (elsewhere : s.node ≠ .serving) : runCommand s 3 = moveNode s .quiesced 3 := by
  simp [runCommand, idle, elsewhere]

/-- QUIESCE in Serving: the fill tasks go. -/
theorem runCommand_quiesce_serving (idle : s.quiesce = 0) (serving : s.node = .serving) :
    runCommand s 3 = (abortTasks (stopBuilds { s.setNum 0x1000_02 3 with quiesce := 1, quiesceAt := s.up })
      fun t => t.cls == .fill).1 := by
  simp [runCommand, idle, serving, beginQuiesce]

/-- QUIESCE_NOW: every task goes. -/
theorem runCommand_quiesceNow (idle : s.quiesce = 0) :
    runCommand s 4 = (abortTasks (stopBuilds { s.setNum 0x1000_02 4 with quiesce := 2, quiesceAt := s.up }) fun _ => true).1 := by
  simp [runCommand, idle, beginQuiesce]

end

/-- A node command written, and answered. -/
theorem deliverNodeCommand {s t : State} {x : Xfer} {code : Byte} (good : Accepted s x 0x1001 1 [code]) (other : code ≠ 7)
    (judged : judgeCommand (heard s) code.toNat = 0) (run : runCommand ((heard s).setNum 0x1000_03 0) code.toNat = t) :
    deliverWrite s x 0x1001 1 [code] none = sendResp t x.val 0 0x1001 1 0 [] := by
  refine deliverWrite_answered good (ty := .u8) (base := 0x1001) (persist := false) (v := .num code.toNat) (by decide +kernel) rfl
    (fun count k acc expert dflt => ?_) (.inr fun seven => other (BitVec.eq_of_toNat_eq seven))
  change (let r := nodeCommand (heard s) code.toNat; (if r.1 = 0 then 0 else if r.1 = 7 then 5 else 3, r.2)) = _
  rw [nodeCommand_run judged, run]
  rfl

/-- Settles O28: each command passes its judge and runs. -/
theorem nodeCommands : Obligations.NodeCommands := by
  unfold Obligations.NodeCommands
  refine ⟨fun x s idle => ?_, fun s serving quiesce => ⟨fun none_left => ?_, fun first late => ?_⟩⟩
  · intro h
    have idle' : (heard s).quiesce = 0 := idle
    have idle'' : ((heard s).setNum 0x1000_03 0).quiesce = 0 := idle
    have judge {code : Nat} (known : 0 < code ∧ code ≤ 7) (state : acceptedIn code s.node = true) (two : code = 2 → serveCause s = 0)
        (five : code = 5 → s.num 0xC010_02 ≠ 0) : judgeCommand (heard s) code = 0 := by
      have state' : acceptedIn code (heard s).node = true := state
      have two' : code = 2 → serveCause (heard s) = 0 := two
      have five' : code = 5 → (heard s).num 0xC010_02 ≠ 0 := five
      rw [judgeCommand, if_neg (by omega), if_neg (by simp [idle']), state', if_neg (by simp)]
      split
      · exact two' ‹_›
      · rw [if_neg (by tauto)]
    refine ⟨fun good state => ?_, fun good serving safe sealed_ id time serial => ?_, fun good state => ?_, fun good state => ?_,
      fun good state => ?_, fun good state mode => ?_, fun good state => ?_, fun good state => ?_⟩
    · exact congrArg Next (deliverNodeCommand good (by decide) (judge (by decide) (by simp [acceptedIn, state]) (by simp) (by simp)) rfl)
    · have accepts : acceptedIn 2 s.node = true := by
        cases e : s.node <;> simp_all [acceptedIn]
      refine congrArg Next (deliverNodeCommand good (by decide)
        (judge (by decide) accepts (fun _ => by simp [serveCause, id, time, serial]) (by simp)) ?_)
      exact runCommand_serve idle''
    · have accepts : acceptedIn 3 s.node = true := by rcases state with e | e <;> simp [acceptedIn, e]
      have notServing : ((heard s).setNum 0x1000_03 0).node ≠ .serving := by
        change s.node ≠ .serving
        rcases state with e | e <;> simp [e]
      refine congrArg Next (deliverNodeCommand good (by decide) (judge (by decide) accepts (by simp) (by simp)) ?_)
      exact runCommand_quiesce idle'' notServing
    · have serving : ((heard s).setNum 0x1000_03 0).node = .serving := state
      refine congrArg Next (deliverNodeCommand good (by decide)
        (judge (by decide) (by simp [acceptedIn, state]) (by simp) (by simp)) ?_)
      exact runCommand_quiesce_serving idle'' serving
    · refine congrArg Next (deliverNodeCommand good (by decide)
        (judge (by decide) (by simp [acceptedIn, state]) (by simp) (by simp)) ?_)
      exact runCommand_quiesceNow idle''
    · exact congrArg Next (deliverNodeCommand good (by decide)
        (judge (by decide) (by simp [acceptedIn, state]) (by simp) fun _ => mode) rfl)
    · exact congrArg Next (deliverNodeCommand good (by decide) (judge (by decide) (by simp [acceptedIn, state]) (by simp) (by simp)) rfl)
    · have judged : judgeCommand (heard s) 7 = 0 :=
        judge (by decide) (by rcases state with e | e | e <;> simp [acceptedIn, e]) (by simp) (by simp)
      obtain ⟨free, accepted⟩ := good
      have def_ : defRow 0x1001 1 = some (0x1001, .u8, false) := by decide +kernel
      obtain ⟨⟨_, count, k, _, acc, expert, _, dflt⟩, def_, same⟩ := Option.map_eq_some_iff.1 def_
      obtain ⟨rfl, rfl, rfl⟩ := by simpa using same
      have effect : writeObject (heard s) 0x1001 1 [7] none = (0, h) := by
        rw [writeObject_accepted accepted def_]
        change (let r := nodeCommand (heard s) 7; (if r.1 = 0 then 0 else if r.1 = 7 then 5 else 3, r.2)) = _
        rw [nodeCommand_run judged]
        rfl
      refine congrArg Next (?_ : deliverWrite s x 0x1001 1 [7] none = _)
      rw [deliverWrite_unused free, effect]
      exact if_pos ⟨rfl, rfl, rfl, rfl⟩
  · change execQuiesceComplete s = _
    rw [execQuiesceComplete, if_pos ⟨serving, quiesce, by simp [none_left]⟩]
  · change execQuiesceForced s = _
    rw [execQuiesceForced, if_pos ⟨serving, first, late⟩]
    simp [beginQuiesce, first]

end Sys2Proof.Machine
end

section
/-! PROOFS. Selects and settings: each object's write has its effect (R215, R263, R388, R427, R436-R454). -/

namespace Sys2Proof.Machine

theorem toVal_byte (v : Byte) : toVal .u8 [v] = .num v.toNat := rfl

theorem toVal_flag (v : Byte) : toVal .b [v] = .num v.toNat := rfl

theorem leNat_leBytes_two (v : BitVec 16) : leNat (leBytes 2 v.toNat) = v.toNat := leNat_leBytes 2 _ v.isLt

theorem leNat_leBytes_four (v : BitVec 32) : leNat (leBytes 4 v.toNat) = v.toNat := leNat_leBytes 4 _ v.isLt

theorem leNat_leBytes_eight (v : BitVec 64) : leNat (leBytes 8 v.toNat) = v.toNat := leNat_leBytes 8 _ v.isLt

/-- Settles O30: `deliverWrite_answered` with the effect of each object. -/
theorem settingsTakeEffect : Obligations.SettingsTakeEffect := by
  unfold Obligations.SettingsTakeEffect
  intro x s h
  refine ⟨fun v good => ?_, fun v good => ?_, fun p v good => ?_, fun p v good => ?_, fun v good => ?_, fun v good => ?_,
    fun v good => ?_, fun v good => ?_, fun v good => ?_, fun v good => ?_, fun v good => ?_, fun v good => ?_⟩
  · exact congrArg Next (deliverWrite_answered good (base := 0x1F00) (persist := false) (by decide +kernel) (toVal_flag v)
      (fun _ _ _ _ _ => rfl) (.inl (by decide)))
  · exact congrArg Next (deliverWrite_answered good (base := 0x1010) (persist := false) (by decide +kernel) (toVal_flag v)
      (fun _ _ _ _ _ => rfl) (.inl (by decide)))
  · fin_cases p
    · exact congrArg Next (deliverWrite_answered good (base := 0x1110) (persist := false) (by decide +kernel) (toVal_flag v)
        (fun _ _ _ _ _ => rfl) (.inl (by decide)))
    · exact congrArg Next (deliverWrite_answered good (base := 0x1110) (persist := false) (by decide +kernel) (toVal_flag v)
        (fun _ _ _ _ _ => rfl) (.inl (by decide)))
  · have row : defRow (0xA010 + p.val) 12 = some (0xA010, .b, false) := by
      clear good
      revert p
      decide +kernel
    refine congrArg Next (deliverWrite_answered good row (toVal_flag v) (fun _ _ _ _ _ => ?_) (.inl (by omega)))
    fin_cases p <;> rfl
  · exact congrArg Next (deliverWrite_answered good (base := 0xA000) (persist := true) (by decide +kernel) (toVal_byte v)
      (fun _ _ _ _ _ => rfl) (.inl (by decide)))
  · exact congrArg Next (deliverWrite_answered good (base := 0xA020) (ty := .blob) (persist := true) (by decide +kernel) rfl
      (fun _ _ _ _ _ => rfl) (.inl (by decide)))
  · exact congrArg Next (deliverWrite_answered good (base := 0xA000) (ty := .u64) (persist := true) (by decide +kernel)
      (congrArg Val.num (leNat_leBytes_eight v)) (fun _ _ _ _ _ => rfl) (.inl (by decide)))
  · exact congrArg Next (deliverWrite_answered good (base := 0x2000) (persist := false) (by decide +kernel) (toVal_flag v)
      (fun _ _ _ _ _ => rfl) (.inl (by decide)))
  · exact congrArg Next (deliverWrite_answered good (base := 0x5010) (ty := .blob) (persist := false) (by decide +kernel) rfl
      (fun _ _ _ _ _ => rfl) (.inl (by decide)))
  · exact congrArg Next (deliverWrite_answered good (base := 0x7000) (persist := true) (by decide +kernel) (toVal_byte v)
      (fun _ _ _ _ _ => rfl) (.inl (by decide)))
  · exact congrArg Next (deliverWrite_answered good (base := 0x7010) (ty := .u64) (persist := true) (by decide +kernel)
      (congrArg Val.num (leNat_leBytes_eight v)) (fun _ _ _ _ _ => rfl) (.inl (by decide)))
  · exact congrArg Next (deliverWrite_answered good (base := 0x8010) (ty := .blob) (persist := true) (by decide +kernel) rfl
      (fun _ _ _ _ _ => rfl) (.inl (by decide)))

/-! ### Selects -/

section
variable {s : State} (wf : sparseWf dfltOf s.objs = true)

theorem accCode_lt (a : Acc) : accCode a < 8 := by cases a <;> decide

theorem tyCode_lt (t : Ty) : tyCode t < 16 := by cases t <;> decide

/-- Type and access in the word of an entry. -/
theorem catEntry_codes {index sub : Nat} {d : ObjDef} (some_ : sub ≠ 0) (def_ : findDef index sub = some d) :
    bitsOf (catEntry s index sub) 3 0 = tyCode d.ty ∧ bitsOf (catEntry s index sub) 6 4 = accCode (accOf index sub d) := by
  have ty := tyCode_lt d.ty
  have acc := accCode_lt (accOf index sub d)
  simp only [catEntry, some_, if_false, def_, bitsOf]
  omega

include wf

theorem State.setNum_wf {oid n : Nat} : sparseWf dfltOf (s.setNum oid n).objs = true := State.setVal_wf _ _ _ wf

theorem catSelect_entry (v : Nat) : (catSelect s v).num 0x1020_02 = catEntry s (bitsOf v 23 8) (bitsOf v 7 0) := by
  rw [catSelect, State.num_setNum_other _ _ _ _ (by decide), State.num, State.setBlob, State.val_setVal_other _ _ _ _ (by decide)]
  exact State.num_setNum_self _ _ _ (State.setNum_wf wf)

theorem streamSelect_none {v : Nat} (absent : findStream s (bitsOf v 12 10) (bitsOf v 9 0) = none) :
    (streamSelect s v).blob 0x4300_02 = [] := by
  rw [streamSelect, absent]
  exact State.blob_setBlob_self _ _ _ (State.setVal_wf _ _ _ wf)

/-- Numbers set one after another from an entry on: the last of an entry stays. -/
theorem ctxSelect_state (v : Nat) : (ctxSelect s v).num 0x5020_02 = (getCtx s v).state.code := by
  simp only [ctxSelect, slotView, List.cons_append, List.nil_append, List.zipIdx_cons, List.zipIdx_nil, List.foldl_cons, List.foldl_nil]
  iterate 14 rw [State.num_setNum_other _ _ _ _ (by decide)]
  exact State.num_setNum_self _ _ _ (State.setNum_wf wf)

theorem sessionSelect_none {v : Nat} (absent : ∀ y ∈ s.sessions, y.tag ≠ v) : (sessionSelect s v).num 0x6020_02 = 0 := by
  have none_ : s.sessions.find? (fun y => y.tag == v) = none := by simpa using absent
  simp only [sessionSelect, none_, List.zipIdx_cons, List.zipIdx_nil, List.foldl_cons, List.foldl_nil]
  iterate 7 rw [State.num_setNum_other _ _ _ _ (by decide)]
  exact State.num_setNum_self _ _ _ (State.setNum_wf wf)

theorem ringSelect_code (v : Nat) : bitsOf ((ringSelect s v).num 0x7400_02) 9 0 =
    outTarget s (ringKey (bitsOf v 4 0) (bitsOf v 14 5) (bitsOf v 21 15)) % 1024 := by
  rw [ringSelect, State.num_setNum_self _ _ _ (State.setNum_wf wf)]
  generalize outTarget s _ = code
  simp only [bitsOf]
  omega

end

/-- Settles O29: `deliverWrite_answered`, and what each snapshot holds. -/
theorem selectsTakeSnapshots : Obligations.SelectsTakeSnapshots := by
  unfold Obligations.SelectsTakeSnapshots
  intro x s wf h
  have wf' : sparseWf dfltOf h.objs = true := wf
  refine ⟨fun v good => ⟨?_, fun d some_ def_ => ?_⟩, fun v good => ?_, fun v good => ?_, fun v good => ⟨?_, fun absent => ?_⟩,
    fun v good => ⟨?_, ?_⟩, fun v good => ?_, fun v good => ⟨?_, fun absent => ?_⟩, fun v good => ⟨?_, ?_⟩, fun v good => ?_⟩
  · exact congrArg Next (deliverWrite_answered good (base := 0x1020) (ty := .u32) (persist := false) (by decide +kernel)
      (congrArg Val.num (leNat_leBytes_four v)) (fun _ _ _ _ _ => rfl) (.inl (by decide)))
  · rw [catSelect_entry wf']
    exact catEntry_codes some_ def_
  · exact congrArg Next (deliverWrite_answered good (base := 0x2100) (ty := .u32) (persist := false) (by decide +kernel)
      (congrArg Val.num (leNat_leBytes_four v)) (fun _ _ _ _ _ => rfl) (.inl (by decide)))
  · exact congrArg Next (deliverWrite_answered good (base := 0x3600) (ty := .u64) (persist := false) (by decide +kernel)
      (congrArg Val.num (leNat_leBytes_eight v)) (fun _ _ _ _ _ => rfl) (.inl (by decide)))
  · exact congrArg Next (deliverWrite_answered good (base := 0x4300) (ty := .u16) (persist := false) (by decide +kernel)
      (congrArg Val.num (leNat_leBytes_two v)) (fun _ _ _ _ _ => rfl) (.inl (by decide)))
  · exact streamSelect_none wf' absent
  · exact congrArg Next (deliverWrite_answered good (base := 0x5020) (ty := .u16) (persist := false) (by decide +kernel)
      (congrArg Val.num (leNat_leBytes_two v)) (fun _ _ _ _ _ => rfl) (.inl (by decide)))
  · exact ctxSelect_state wf' v.toNat
  · exact congrArg Next (deliverWrite_answered good (base := 0x5030) (ty := .u32) (persist := false) (by decide +kernel)
      (congrArg Val.num (leNat_leBytes_four v)) (fun _ _ _ _ _ => rfl) (.inl (by decide)))
  · exact congrArg Next (deliverWrite_answered good (base := 0x6020) (ty := .u64) (persist := false) (by decide +kernel)
      (congrArg Val.num (leNat_leBytes_eight v)) (fun _ _ _ _ _ => rfl) (.inl (by decide)))
  · exact sessionSelect_none wf' absent
  · exact congrArg Next (deliverWrite_answered good (base := 0x7400) (ty := .u32) (persist := false) (by decide +kernel)
      (congrArg Val.num (leNat_leBytes_four v)) (fun _ _ _ _ _ => rfl) (.inl (by decide)))
  · exact ringSelect_code wf' v.toNat
  · exact congrArg Next (deliverWrite_answered good (base := 0x8500) (ty := .u16) (persist := false) (by decide +kernel)
      (congrArg Val.num (leNat_leBytes_two v)) (fun _ _ _ _ _ => rfl) (.inl (by decide)))

end Sys2Proof.Machine
end

section
/-! PROOFS. The context commands (R215) and the commands of the service and of the journal (R318, R322, R495, R501). -/

namespace Sys2Proof.Machine

/-! ### A context command passes its checks -/

section
variable {s : State} {n copy source : Nat} {b : Bool} {d : Bytes} (node : s.node = .serving ∨ s.node = .configuring)
  (desc : s.ctxDesc = some d) (form : descOk d = true)

/-- What a command answers, and leaves in LAST_RESULT. -/
def noted (r : Nat × State) : Nat × State := (r.1, r.2.setNum 0x5010_03 r.1)

/-- The state without its pending descriptor. -/
def descTaken (s : State) : State := { s with ctxDesc := none }

include node desc form

theorem ctxCommand_register : ctxCommand s 1 n b source copy =
    noted (cmdRegister (descTaken s) n (fieldAt d 0 4) (fieldAt d 4 1)) := by
  rcases node with node | node <;>
    simp [ctxCommand, descUsed, descNeeded, sourced, desc, form, node, noted, descTaken]

theorem ctxCommand_deregister (known : (getCtx s n).state ≠ .unregistered) :
    ctxCommand s 2 n b source copy = noted (cmdDeregister s n) := by
  rcases node with node | node <;> simp [ctxCommand, descUsed, descNeeded, sourced, node, known, noted]

theorem ctxCommand_build (known : (getCtx s n).state ≠ .unregistered) (port : upPortOk source d = true) :
    ctxCommand s 3 n b source copy = noted (cmdBuild (descTaken s) n b source copy d) := by
  rw [getCtx] at known
  rcases node with node | node <;>
    simp [ctxCommand, descUsed, descNeeded, sourced, desc, form, port, node, getCtx, known, noted, descTaken]

theorem ctxCommand_switch (known : (getCtx s n).state ≠ .unregistered) :
    ctxCommand s 4 n b source copy = noted (cmdSwitch (descTaken s) n b (fieldAt d 24 8)) := by
  rw [getCtx] at known
  rcases node with node | node <;>
    simp [ctxCommand, descUsed, descNeeded, sourced, desc, form, node, getCtx, known, noted, descTaken]

theorem ctxCommand_discard (known : (getCtx s n).state ≠ .unregistered) :
    ctxCommand s 5 n b source copy = noted (cmdDiscard s n b) := by
  rcases node with node | node <;> simp [ctxCommand, descUsed, descNeeded, sourced, node, known, noted]

theorem ctxCommand_repair (known : (getCtx s n).state ≠ .unregistered) (port : upPortOk source d = true) :
    ctxCommand s 6 n b source copy = noted (cmdRepair (descTaken s) n b source copy d) := by
  rw [getCtx] at known
  rcases node with node | node <;>
    simp [ctxCommand, descUsed, descNeeded, sourced, desc, form, port, node, getCtx, known, noted, descTaken]

theorem ctxCommand_abandon : ctxCommand s 7 n b source copy =
    noted (cmdAbandon (descTaken s) (fieldAt d 0 4) (fieldAt d 4 1) copy) := by
  rcases node with node | node <;> simp [ctxCommand, descUsed, descNeeded, sourced, desc, form, node, noted, descTaken]

theorem ctxCommand_store (port : upPortOk source d = true) : ctxCommand s 8 n b source copy =
    noted (cmdStore (descTaken s) source (fieldAt d 0 4) (fieldAt d 4 1) copy d) := by
  rcases node with node | node <;> simp [ctxCommand, descUsed, descNeeded, sourced, desc, form, port, node, noted, descTaken]

theorem ctxCommand_unstore : ctxCommand s 9 n b source copy =
    noted (cmdUnstore (descTaken s) (fieldAt d 0 4) (fieldAt d 4 1) copy) := by
  rcases node with node | node <;> simp [ctxCommand, descUsed, descNeeded, sourced, desc, form, node, noted, descTaken]

end

/-- The fields of a CTX_CMD word read back (R215). -/
theorem ctxWord_fields {s : State} {op : Nat} (a : CtxArgs) (small : op < 16) :
    ctxWord s (leNat (ctxBytes op a)) =
      (let r := ctxCommand s op a.context.toNat a.slot a.source.toNat a.copyId.toNat
       (result613 r.1 3, r.2)) := by
  have ctx := a.context.isLt
  have src := a.source.isLt
  have copy := a.copyId.isLt
  have slot : a.slot.toNat < 2 := Bool.toNat_lt a.slot
  rw [ctxBytes, leNat_leBytes 8 _ (by omega), ctxWord]
  obtain ⟨v, word⟩ : ∃ v, v = op + 16 * a.context.toNat + 2 ^ 16 * a.slot.toNat + 2 ^ 17 * a.source.toNat +
    2 ^ 32 * a.copyId.toNat := ⟨_, rfl⟩
  rw [← word]
  have fields : bitsOf v 3 0 = op ∧ bitsOf v 15 4 = a.context.toNat ∧ bitsOf v 19 17 = a.source.toNat ∧
      bitsOf v 63 32 = a.copyId.toNat := by
    simp only [bitsOf]
    omega
  have bit : v / 2 ^ 16 % 2 = a.slot.toNat := by omega
  have slotBit : v.testBit 16 = a.slot := by
    rw [Nat.testBit_eq_decide_div_mod_eq, bit]
    cases a.slot <;> rfl
  obtain ⟨opBits, ctxBits, srcBits, copyBits⟩ := fields
  rw [opBits, ctxBits, srcBits, copyBits, slotBit]

/-! ### The commands whose conditions hold -/

section
variable {s : State} {n copy : Nat} {b : Bool} {d : Bytes}

/-- A build from the control node begins in an empty slot. -/
theorem cmdBuild_begins (open_ : (getCtx s n).state ≠ .closing) (named : copy ≠ 0)
    (other : copy ≠ ((getCtx s n).slot (!b)).copyId) (empty : ((getCtx s n).slot b).state = .empty) (room : roomFor215 s d = true) :
    cmdBuild s n b 0 copy d =
      (let t := setCtx s n { getCtx s n with pipes := ((getCtx s n).pipes.filter fun p => p.slot != b)
        ++ [{ slot := b, copy := copy, up := none, down := fieldAt d 11 1 % 16 }] }
       (0, settleBuild (modSlot t n b fun _ =>
        { emptySlot with state := .building, copyId := copy, source := 0, desc := d, gainAt := s.up, askedAt := s.up,
                         extents := (allotExtents t (fieldAt d 16 8)).getD [] }) n b)) := by
  have fresh : (((getCtx s n).slot b).state == .stopped && ((getCtx s n).slot b).copyId == copy) = false := by simp [empty]
  simp only [cmdBuild, fresh, buildSlot]
  simp [open_, named, other, empty, room, portOf]
  rfl

/-- A switch to a whole copy waits for its mitre point. -/
theorem cmdSwitch_waits {notBefore : Nat} (open_ : (getCtx s n).state ≠ .closing)
    (whole : ((getCtx s n).slot b).state = .complete ∨ ((getCtx s n).slot b).state = .draining)
    (sound : ((getCtx s n).slot b).damaged = []) (certified : switchOk s n b = true) :
    cmdSwitch s n b notBefore =
      (let t := setCtx s n { getCtx s n with pendingTo := some b, notBefore := if notBefore = 0 then none else stampTicks notBefore }
       (0, settleCtx (if (getCtx s n).currentCopy = none ∧ mitreDue t (getCtx t n) = true then mitre t n none else t) n)) := by
  rcases whole with state | state <;> simp [cmdSwitch, open_, state, sound, certified]

theorem cmdRepair_waits (held : 4 ≤ ((getCtx s n).slot b).state.code) (named : copy ≠ 0)
    (same : copy = ((getCtx s n).slot b).copyId) (damaged : ((getCtx s n).slot b).damaged ≠ []) :
    cmdRepair s n b 0 copy d = (0, modSlot s n b fun y => { y with
      repairing := ((getCtx s n).slot b).damaged.filter fun k => blockAt ((getCtx s n).slot b).blocks k == [],
      repairPort := none, gainAt := s.up, askedAt := s.up }) := by
  have held' : ¬ ((getCtx s n).slot b).state.code < 4 := by omega
  have good : ¬ (copy = 0 ∨ copy ≠ ((getCtx s n).slot b).copyId ∨ ((getCtx s n).slot b).damaged.isEmpty) :=
    not_or.2 ⟨named, not_or.2 ⟨not_not.2 same, by simp [damaged]⟩⟩
  simp only [cmdRepair, held', good, if_false, portOf]
  rw [if_neg (by simp)]
  cases findLib s (getCtx s n).model (getCtx s n).stage (fieldAt d 32 4) <;> rfl

end

/-- Settles O31: each command passes its checks, and its own conditions hold. -/
theorem contextCommands : Obligations.ContextCommands := by
  unfold Obligations.ContextCommands
  intro x a d s node desc form port h u n b c copy model stage ok takes
  have node' : h.node = .serving ∨ h.node = .configuring := node
  have desc' : h.ctxDesc = some d := desc
  have run {op : Nat} {t : State} (good : takes op) (small : op < 16)
      (cmd : ctxCommand h op n b a.source.toNat copy = noted (0, t)) :
      deliverWrite s x 0x5010 1 (ctxBytes op a) none = sendResp (t.setNum 0x5010_03 0) x.val 0 0x5010 1 0 [] := by
    refine deliverWrite_answered good (base := 0x5010) (ty := .u64) (persist := false) (by decide +kernel) rfl
      (fun _ _ _ _ _ => ?_) (.inl (by decide))
    change ctxWord h (leNat (ctxBytes op a)) = _
    rw [ctxWord_fields a small, cmd]
    rfl
  have bare : descTaken h = u := rfl
  have ctx : getCtx u n = c := rfl
  refine ⟨fun good fresh => ?_, fun good known open_ => ?_, ?_, ?_, fun good known stays complete => ?_,
    fun good known built named same damaged src => ?_, fun good named needed idle => ?_, fun good named src room absent => ?_,
    fun good present empty => ?_⟩
  · refine congrArg Next (run good (by decide) ?_)
    rw [ctxCommand_register node' desc' form, bare, cmdRegister, if_neg (by simp [ctx, fresh])]
  · refine congrArg Next (run good (by decide) ?_)
    rw [ctxCommand_deregister node' desc' form known]
    have done : (cmdDeregister h n).1 = 0 := by
      have stays : (getCtx h n).state ≠ .closing := open_
      rw [cmdDeregister]
      simp only [stays, if_false]
    exact congrArg noted (Prod.ext done rfl)
  · intro good known open_ named other empty src room t
    refine congrArg Next (run good (by decide) ?_)
    rw [ctxCommand_build node' desc' form known (by rw [src]; exact port), bare]
    rw [src]
    exact congrArg noted (cmdBuild_begins open_ named other empty room)
  · intro good known open_ whole sound certified t
    refine congrArg Next (run good (by decide) ?_)
    rw [ctxCommand_switch node' desc' form known, bare]
    exact congrArg noted (cmdSwitch_waits open_ whole sound certified)
  · refine congrArg Next (run good (by decide) ?_)
    have ctx' : getCtx h n = c := rfl
    rw [ctxCommand_discard node' desc' form known]
    simp only [cmdDiscard, ctx', stays, if_false, complete]
  · refine congrArg Next (run good (by decide) ?_)
    rw [ctxCommand_repair node' desc' form known (by rw [src]; exact port), bare, src]
    exact congrArg noted (cmdRepair_waits built named same damaged)
  · refine congrArg Next (run good (by decide) ?_)
    rw [ctxCommand_abandon node' desc' form, bare]
    have idle' : u.requests = [] := idle
    have listed : u.needed.contains (fieldAt d 0 4, fieldAt d 4 1, copy) = true := List.contains_iff_mem.2 needed
    refine congrArg noted ?_
    rw [cmdAbandon]
    simp only [idle', listed, List.filter_nil, List.foldl_nil, List.length_nil, Bool.not_true, Bool.false_eq_true, and_false, or_false,
      named, if_false]
    rfl
  · refine congrArg Next (run good (by decide) ?_)
    rw [ctxCommand_store node' desc' form (by rw [src]; exact port), bare, src]
    have new_ : (u.library.any fun e => e.model == fieldAt d 0 4 && e.stage == fieldAt d 4 1 && e.copyId == copy) = false := by
      rw [List.any_eq_false]
      intro e mem same
      exact absent e mem (by simpa [and_assoc] using same)
    have room' : ¬ libraryRoom u ≤ libraryUsed u := Nat.not_le.2 room
    refine congrArg noted ?_
    simp only [cmdStore, named, room', new_, if_false, OfNat.zero_ne_ofNat, Bool.false_eq_true]
    rfl
  · refine congrArg Next (run good (by decide) ?_)
    rw [ctxCommand_unstore node' desc' form, bare]
    have held : (u.library.any fun e => e.model == fieldAt d 0 4 && e.stage == fieldAt d 4 1 && e.copyId == copy) = true := by
      obtain ⟨e, mem, same⟩ := present
      exact List.any_eq_true.2 ⟨e, mem, by simpa [and_assoc] using same⟩
    have unused : u.contexts = [] := empty
    refine congrArg noted ?_
    simp only [cmdUnstore, held, unused, List.any_nil, Bool.not_true, Bool.false_eq_true, or_self, if_false]
    rfl

/-! ### The service and the journal -/

section
variable {s : State}

theorem serviceCommand_cancel {r : Request} (node : s.node = .serving ∨ s.node = .quiesced)
    (found : s.requests.find? (fun q => q.id == s.num 0x6030_01) = some r) :
    serviceCommand s 1 = (0, (if s.tasks.any fun t => t.jsn == r.jsn then modRequest s r.jsn fun q => { q with cancel := true }
      else rearmBusy (endRequest s r.jsn 16 0 0 3)).setNum 0x6030_03 0) := by
  have accepts : ¬ (s.node ≠ .serving ∧ s.node ≠ .quiesced) := by tauto
  rw [serviceCommand, if_neg accepts]
  simp only [if_true, cancelRequest, found]
  split <;> rfl

theorem serviceCommand_close {y : Session} (node : s.node = .serving ∨ s.node = .quiesced) (named : s.num 0x6030_01 ≠ 0)
    (found : findSession s (s.num 0x6030_01) = some y) :
    serviceCommand s 2 = (0, (if y.state = .active then modSession s y.num fun q => { q with closing := true }
      else freeSession s y).setNum 0x6030_03 0) := by
  have accepts : ¬ (s.node ≠ .serving ∧ s.node ≠ .quiesced) := by tauto
  rw [serviceCommand, if_neg accepts]
  simp only [OfNat.ofNat_ne_one, if_false, closeSession, named, found, Option.some_or]

theorem journalCommand_settle (node : s.node = .configuring ∨ s.node = .quiesced) (open_ : s.journal.settled = false)
    (len : (s.blob 0xB110_01).length % 4 = 0)
    (ascending : strictAscending ((pieces 4 ((s.blob 0xB110_01).length / 4) (s.blob 0xB110_01)).map leNat) = true) :
    journalCommand s 1 = (0, (settleRecords s ((pieces 4 ((s.blob 0xB110_01).length / 4) (s.blob 0xB110_01)).map leNat)).setNum
      0xB110_03 0) := by
  have accepts : ¬ (s.node ≠ .configuring ∧ s.node ≠ .quiesced) := by tauto
  rw [journalCommand, if_pos rfl, settleCommand]
  simp only [accepts, if_false, open_, len, ascending, ne_eq, not_true_eq_false, Bool.not_true, Bool.false_eq_true, or_self]

/-- What ADOPT makes of the mirror partition of an ordinal. -/
def adopted (s : State) (ord : Nat) : State :=
  let opens := openRecords s.journal.mirror
  let list := (opens.map fun o => o.jsn).mergeSort
  let t := opens.foldl (fun t o => adoptRecord t s.journal.mirror o) (modGang s fun g => { g with refuseFrom := some ord })
  let t := ((t.setNum 0xB120_01 ord).setNum 0xB120_02 list.length).setBlob 0xB120_03 ((list.map (leBytes 4)).flatten)
  let t := (modJournal t fun j => { j with mirror := JPart.empty }).setNum 0xA000_06 0xFF
  settleAll (refreshNeeded (t.raise 0xB040 0xFF (leBytes 1 ord ++ leBytes 4 list.length)))

theorem journalCommand_adopt (node : s.node = .configuring ∨ s.node = .serving ∨ s.node = .quiesced)
    (len : (s.blob 0xB110_01).length = 1) (from_ : fieldAt (s.blob 0xB110_01) 0 1 = mirrorFrom s) (some_ : mirrorFrom s ≠ 255) :
    journalCommand s 2 = (0, (adopted s (mirrorFrom s)).setNum 0xB110_03 0) := by
  have accepts : ¬ (s.node ≠ .configuring ∧ s.node ≠ .serving ∧ s.node ≠ .quiesced) := by tauto
  rw [journalCommand, if_neg (by decide), adoptCommand]
  simp only [accepts, if_false, len, from_, some_, ne_eq, not_true_eq_false, or_self, adopted]

end

/-- Settles O32: each command finds its request, its session or its records. -/
theorem serviceAndJournalCommands : Obligations.ServiceAndJournalCommands := by
  unfold Obligations.ServiceAndJournalCommands
  intro x s h
  have service {code : Byte} {t : State} (good : Accepted s x 0x6030 2 [code]) (cmd : serviceCommand h code.toNat = (0, t)) :
      deliverWrite s x 0x6030 2 [code] none = sendResp t x.val 0 0x6030 2 0 [] := by
    refine deliverWrite_answered good (base := 0x6030) (ty := .u8) (persist := false) (v := .num code.toNat) (by decide +kernel) rfl
      (fun _ _ _ _ _ => ?_) (.inl (by decide))
    change (let r := serviceCommand h code.toNat; (result613 r.1 3, r.2)) = _
    rw [cmd]
    rfl
  have journal {code : Byte} {t : State} (good : Accepted s x 0xB110 2 [code]) (cmd : journalCommand h code.toNat = (0, t)) :
      deliverWrite s x 0xB110 2 [code] none = sendResp t x.val 0 0xB110 2 0 [] := by
    refine deliverWrite_answered good (base := 0xB110) (ty := .u8) (persist := false) (v := .num code.toNat) (by decide +kernel) rfl
      (fun _ _ _ _ _ => ?_) (.inl (by decide))
    change (let r := journalCommand h code.toNat; (result613 r.1 1, r.2)) = _
    rw [cmd]
    rfl
  refine ⟨fun r good node found => congrArg Next (service good (serviceCommand_cancel (s := h) node found)),
    fun y good node tag found => congrArg Next (service good (serviceCommand_close (s := h) node tag found)), ?_, ?_⟩
  · intro good node fresh len js ascending
    exact congrArg Next (journal good (journalCommand_settle (s := h) node fresh len ascending))
  · intro good node len from_ some_ ord opens list t t' t''
    exact congrArg Next (journal good (journalCommand_adopt (s := h) node len from_ some_))

end Sys2Proof.Machine
end

section
/-! PROOFS. The Kangeiz ring: frames received, ring management, cyclic maps, requests and blocks (R193, R295, R392-R413). -/

namespace Sys2Proof.Machine

/-! ### Frames received -/

theorem nodeId_countIn (s : State) (p : RingPort) : nodeId (s.inc (fam 0x1110_07 p.val)) = nodeId s :=
  State.num_inc_other _ _ _ (by simp only [fam]; omega)

theorem addResidence_other {s : State} {f : Frame} (time : f.type ≠ 0x50) (probe : f.type ≠ 0x51) : addResidence s f = (f, s) := by
  rw [addResidence, if_neg fun h => h.1.elim time probe]

/-- The next frame of the device's stream moves it on and is delivered. -/
theorem consumeConfirmed_next {s : State} {f : Frame} (single : f.dest ≠ 126) (noSync : f.flags.getLsbD 2 = false)
    (good : frameBad f = false) (next : s.ring.rxNext = some f.seq.toNat) :
    consumeConfirmed s f =
      (let t := deliver { s with ring := { s.ring with rxNext := some ((f.seq.toNat + 1) % 2 ^ 32) } } f true
       drainHeld false t.ring.rxHeld.length t) := by
  have mine : notMine s f = false := by
    rw [notMine, beq_eq_false_iff_ne.2 single]
    rfl
  have stream : isAll f = false := beq_eq_false_iff_ne.2 single
  have synced : syncRx s f = s := by rw [syncRx, noSync, if_neg Bool.false_ne_true]
  have inOrder : (f.seq.toNat + 2 ^ 32 - f.seq.toNat) % 2 ^ 32 = 0 := by omega
  simp only [consumeConfirmed, synced, stream, rxBase, next, mine, good, inOrder, Bool.false_eq_true, if_false, if_true, Bool.not_false,
    setNext]

/-- Settles O33: by what the frame is to the device. -/
theorem ringFramesReceived : Obligations.RingFramesReceived := by
  unfold Obligations.RingFramesReceived
  intro p f s clock up c
  have own : nodeId c = nodeId s := nodeId_countIn s p
  have run : exec (.ringFrameReceive p f) s = Next (receiveFrame s p f) := by
    change execRingFrameReceive p f s = _
    simp [execRingFrameReceive, clock, up]
  refine ⟨fun bad => ?_, fun good named mine => ?_, fun good notSrc notDest single time probe => ?_,
    fun good named dest notSrc single known confirm noSync whole next => ?_⟩
  · simp only [run, receiveFrame, bad, if_true]
    rfl
  · simp only [run, receiveFrame, good, Bool.false_eq_true, if_false]
    rw [if_pos ⟨by rwa [own], by rwa [own]⟩]
  · have transit : ¬ (f.dest = 127 ∨ f.dest = 126 ∧ nodeId c = 0) := by
      rintro (all | ⟨each, -⟩)
      · simp [all] at single
      · simp [each] at single
    have notOwn : ¬ (nodeId c ≠ 0 ∧ f.src.toNat = nodeId c) := by rw [own]; tauto
    have notFor : ¬ (nodeId c ≠ 0 ∧ f.dest.toNat = nodeId c) := by rw [own]; tauto
    simp only [run, receiveFrame, good, Bool.false_eq_true, if_false]
    rw [if_neg notOwn, if_neg notFor, if_neg transit, forward, addResidence_other time probe]
    exact apply_ite Next _ _ _
  · have notOwn : ¬ (nodeId c ≠ 0 ∧ f.src.toNat = nodeId c) := by rw [own]; tauto
    simp only [run, receiveFrame, good, Bool.false_eq_true, if_false]
    rw [if_neg notOwn, if_pos ⟨by rwa [own], by rwa [own]⟩, consume]
    simp only [c] at known
    simp only [known, confirm, Bool.false_eq_true, if_false, if_true]
    exact congrArg Next (consumeConfirmed_next (s := heard c) single noSync whole next)

/-! ### Ring management -/

theorem leBytes_one_byte (b : Byte) : leBytes 1 b.toNat = [b] := by simp [leBytes]

/-- A STATE frame's command that its judges let through runs. -/
theorem stateWrite_run {s : State} {cmd : Byte} (good : judgeWrite s 0x1001 1 [cmd] = 0) (judged : judgeCommand s cmd.toNat = 0) :
    stateWrite s cmd.toNat = (0, runCommand (s.setNum 0x1000_03 0) cmd.toNat) := by
  have row : defRow 0x1001 1 = some (0x1001, .u8, false) := by decide +kernel
  obtain ⟨⟨_, count, k, _, acc, expert, _, dflt⟩, def_, same⟩ := Option.map_eq_some_iff.1 row
  obtain ⟨rfl, rfl, rfl⟩ := by simpa using same
  have effect : writeObject s 0x1001 1 [cmd] none = (0, runCommand (s.setNum 0x1000_03 0) cmd.toNat) := by
    rw [writeObject_accepted good def_]
    change (let r := nodeCommand s cmd.toNat; (if r.1 = 0 then 0 else if r.1 = 7 then 5 else 3, r.2)) = _
    rw [nodeCommand_run judged]
    rfl
  rw [stateWrite, leBytes_one_byte, effect]
  rfl

/-- Settles O34: each frame's body, where its conditions hold. -/
theorem ringManagement : Obligations.RingManagement := by
  unfold Obligations.RingManagement
  refine ⟨fun seq status t s found known => ?_, fun seq t s found due => ?_, fun dir s => rfl,
    fun seq own serial id ring s named mine node => ?_, ?_, fun seq serial kind s mine => ⟨fun node => ?_, fun all => ?_⟩,
    fun s clock => ⟨fun due => ?_, fun heard_ due => ?_, fun up lnk many => ?_, fun down many => ?_, ?_⟩⟩
  · have found' : (heard s).ring.unacked.find? (fun u => u.frame.seq.toNat == seq.toNat) = some t := found
    change execAck seq status s = _
    simp only [execAck, ackIn, found', if_neg (Nat.not_lt.2 known)]
    split <;> rfl
  · have due' : resendDue s t = true := decide_eq_true due
    change execRetxTimeout seq s = _
    simp only [execRetxTimeout, found, due', if_true]
    rfl
  · have node' : (heard s).node = .sealed ∨ (heard s).node = .configuring ∨ (heard s).node = .quiesced := node
    have mine' : ¬ serial.toNat ≠ ownSerial (heard s) := not_not.2 mine
    change execAssign seq own serial id ring s = _
    rw [execAssign, assignIn, if_neg (Nat.not_lt.2 named), if_neg mine', if_pos node']
    rfl
  · intro cmd targets s good other judged t
    have run := stateWrite_run good judged
    have stays : ¬ ((0 : Nat) = 0 ∧ cmd.toNat = 7) := fun h => other h.2
    refine ⟨?_, fun id listed => ?_, fun notListed => ?_⟩
    · change execState cmd false targets s = _
      rw [execState, if_neg Bool.false_ne_true, stateIn, run]
      exact congrArg Next (if_neg stays)
    · have target : targeted (heard s) targets.toNat = true := by
        have id' : nodeId (heard s) ≠ 0 := id
        simp only [targeted, bne_iff_ne.2 id', Bool.true_and]
        exact listed
      change execState cmd true targets s = _
      simp only [execState, if_true, stateAll, target, run, Bool.not_true, Bool.false_eq_true, if_false]
      exact congrArg Next (if_neg fun h => other h.2)
    · have target : targeted (heard s) targets.toNat = false := by
        rcases notListed with none_ | other
        · have none' : nodeId (heard s) = 0 := none_
          simp [targeted, none']
        · exact Bool.and_eq_false_imp.2 fun _ => other
      change execState cmd true targets s = _
      simp only [execState, if_true, stateAll, target, Bool.not_false]
  · have mine' : ¬ serial.toNat ≠ ownSerial (heard s) := not_not.2 mine
    change execReset seq serial kind s = _
    rw [execReset, resetIn, if_neg (by omega), if_neg mine', if_pos node]
    rfl
  · have mine' : ¬ serial.toNat ≠ ownSerial (heard s) := not_not.2 mine
    change execReset seq serial kind s = _
    rw [execReset, resetIn, if_neg (by omega), if_neg mine', if_neg (by omega)]
    rfl
  · change execHeartbeat s = _
    simp only [execHeartbeat, clock, due, decide_true, Bool.and_true, if_true]
    rfl
  · change execNode0Silent s = _
    simp [execNode0Silent, clock, heard_, due]
  · change execEventSend s = _
    have some_ : (s.events.sys.recs.take 64).isEmpty = false := by
      cases e : s.events.sys.recs <;> simp [e] at many ⊢
    simp only [execEventSend, up, if_true, lnk, List.length_nil, Nat.add_zero]
    rw [if_pos (by simp [clock, many])]
    simp only [List.take_nil, List.length_nil, Nat.add_zero, List.length_take, Nat.min_eq_left many, List.map_nil, List.append_nil, some_, List.isEmpty_nil, Bool.false_eq_true, if_false]
    rfl
  · change execEventSend s = _
    have some_ : (s.events.lnk.recs.take 64).isEmpty = false := by
      cases e : s.events.lnk.recs <;> simp [e] at many ⊢
    simp only [execEventSend, down, Bool.false_eq_true, if_false, List.length_nil, Nat.zero_add]
    rw [if_pos (by simp [clock, many])]
    simp only [List.take_nil, List.length_nil, Nat.zero_add, List.length_take, Nat.min_eq_left many, List.map_nil, List.nil_append, some_, List.isEmpty_nil, Bool.false_eq_true, if_true,
      Nat.sub_zero]
    rfl
  · intro lnk q
    refine ⟨fun none_ => ?_, fun some_ => ?_⟩
    · rw [eventsLost, if_pos none_]
    · rw [eventsLost, if_neg some_]

/-! ### Cyclic maps -/

/-- Settles O35: a map fires, a frame waits or is applied, and its entries are written in turn. -/
theorem cyclicMaps : Obligations.CyclicMaps := by
  unfold Obligations.CyclicMaps
  refine ⟨fun m s clock up sends fires port => ?_, fun m stamp payload t s up fits ticks => ⟨fun past => ?_, fun ahead room new_ => ?_⟩,
    fun m c s up due => ?_, fun m e es b s good d def_ done => ?_⟩
  · change execCyclicFire m s = _
    rw [execCyclicFire, if_pos (by simp [clock, up, sends, fires, port])]
    rfl
  · have up' : (heard s).sysUp = true := up
    have past' : (heard s).isPast t = true := past
    change execCyclic m stamp payload s = _
    rw [execCyclic, cyclicIn, if_neg (by simp [up']), if_neg (by simp [fits])]
    simp only [ticks, Option.getD_some, past', if_true]
  · have up' : (heard s).sysUp = true := up
    have ahead' : ¬ (heard s).isPast t = true := by
      change ¬ s.isPast t = true
      simp [ahead]
    have other : ¬ (((heard s).ring.cyclic.filter fun c => c.map == m.val).any fun c => c.stamp == t) = true := by
      simp only [List.any_filter, List.any_eq_true, Bool.and_eq_true, beq_iff_eq, not_exists, not_and]
      exact new_
    have room' : ¬ 4 ≤ ((heard s).ring.cyclic.filter fun c => c.map == m.val).length := Nat.not_le.2 room
    change execCyclic m stamp payload s = _
    rw [execCyclic, cyclicIn, if_neg (by simp [up']), if_neg (by simp [fits])]
    simp only [ticks, Option.getD_some]
    rw [if_neg ahead', if_neg other, if_neg room']
  · change execCyclicApply m s = _
    rw [execCyclicApply, if_pos up, due]
  · rw [applyEntries, applyEntry, writeObject_accepted good def_, if_pos done]

/-! ### Requests and blocks -/

section
variable {s : State} {q : SegIn} {seq : Nat}

/-- Under a new identifier the request is committed. -/
theorem wholeRequest_fresh (takes : refusesNew s = false) (fresh : knownId s q.requestId = .fresh) :
    wholeRequest s q seq true = commitRequest s q.header q.data (q.bad || !requestOk q.header q.data ||
      (getCtx s (fieldAt q.header 20 2 % 4096)).stage != 0) seq true := by
  simp [wholeRequest, fresh, takes]

/-- A repeat of a request that has not ended is acknowledged. -/
theorem wholeRequest_incomplete {jsn : Nat} (known : knownId s q.requestId = .incomplete jsn false) :
    wholeRequest s q seq true = sendAck (sendAck (s.inc 0x6010_09) seq 0x40 0) seq 0x40 5 := by
  simp [wholeRequest, known, ackIf]

end

/-- Settles O36: a segment is kept, and the last one makes the request whole. -/
theorem requestsAndBlocksOnTheRing : Obligations.RequestsAndBlocksOnTheRing := by
  unfold Obligations.RequestsAndBlocksOnTheRing
  refine ⟨fun seq payload s up len takes => ?_, fun id q s found late => ?_, fun seq model stage copy block payload s len up => ?_⟩
  · intro h id q u
    have up' : (heard s).sysUp = true := up
    have run : exec (.svcReq seq payload) s = Next (if (fieldAt h 17 1).testBit 1 then
        sendAck { u with ring := { u.ring with segs := u.ring.segs ++ [q] } } seq.toNat 0x40 0 else wholeRequest u q seq.toNat true) := by
      change execSvcReq seq payload s = _
      rw [execSvcReq, serviceIn, if_neg (by simp [up']), if_neg (by omega), if_neg (by simp [takes])]
      rfl
    have takes' : refusesNew u = false := takes
    refine ⟨fun more => ?_, fun last fresh => ?_, fun jsn last known => ?_⟩
    · rw [run, if_pos more]
    · rw [run, last, if_neg Bool.false_ne_true, wholeRequest_fresh takes' fresh]
    · rw [run, last, if_neg Bool.false_ne_true, wholeRequest_incomplete known]
  · change execSegmentTimeout id s = _
    rw [execSegmentTimeout, found]
    exact if_pos late
  · have up' : (heard s).sysUp = true := up
    change execWeightBlock seq model stage copy block payload s = _
    rw [execWeightBlock, weightIn, if_neg (by omega), if_neg (by simp [up'])]
    rfl

end Sys2Proof.Machine
end

section
/-! PROOFS. Ports, lanes and light, and the link layer between devices (R387-R389, R393, R448-R453, R456-R458). -/

namespace Sys2Proof.Machine

/-! ### Ports and their eye-safety ports -/

@[simp] theorem ringOf_ringEye (p : RingPort) : ringOf (ringEye p) = some p := dif_pos p.isLt

@[simp] theorem ringOf_peerEye (p : PeerPort) : ringOf (peerEye p) = none :=
  dif_neg (by change ¬ p.val + 2 < 2; omega)

@[simp] theorem peerOf_peerEye (p : PeerPort) : peerOf (peerEye p) = some p :=
  (dif_pos (by change 2 ≤ p.val + 2; omega)).trans (congrArg some (Fin.ext (Nat.add_sub_cancel p.val 2)))

/-- An eye-safety port is a Kangeiz port or a peer port, never both. -/
theorem ringOf_of_peerOf {e : EyePort} {p : PeerPort} (h : peerOf e = some p) : ringOf e = none := by
  unfold peerOf at h
  split at h
  case isTrue ge => exact dif_neg (by omega)
  case isFalse => cases h

/-! ### Training and lanes (R387, R388, R448, R449) -/

section Training

variable {s : State} (clock : s.refclk = true)

include clock

theorem execLinkUp_trained {p : RingPort} (m : Option (Fin 4)) (on : s.eyes[ringEye p].txOn = true)
    (lit : s.eyes[ringEye p].lit = true) (shut : linkState s p ≠ 1) :
    execLinkUp p m s = Next (ringUp (if portUp s p then ringDown s p 2 2 else s) p (m.elim 15 fun l => 15 - 2 ^ l.val)) := by
  cases m <;> exact if_pos ⟨clock, shut, on, lit⟩

theorem execPeerLinkTrained_trained {p : PeerPort} (m : Option (Fin 8)) (on : s.eyes[peerEye p].txOn = true)
    (lit : s.eyes[peerEye p].lit = true) (trains : peerLink s p = 1 ∨ peerLink s p = 3) :
    execPeerLinkTrained p m s =
      Next (sendHello ((s.setNum (fam 0xA010_01 p.val) 4).setNum (fam 0xA010_02 p.val) 
        (m.elim 255 fun l => 255 - 2 ^ l.val)) p) := by
  cases m <;> exact if_pos ⟨clock, trains, on, lit⟩

end Training

theorem execLaneFail_four {p : RingPort} {l : Fin 4} {s : State} (lane : (s.num (fam 0x1110_02 p.val)).testBit l.val = true)
    (link : linkState s p = 3) : execLaneFail p l s =
      Next (ringUp (((signalLane s (ringEye p) l.val).inc (fam 0x1110_0A p.val)).raise 0x1012 p.val (leBytes 1 l.val)) p
        (15 - 2 ^ l.val)) := by
  simp [execLaneFail, lane, link]

theorem execLaneFail_three {p : RingPort} {l : Fin 4} {s : State} (lane : (s.num (fam 0x1110_02 p.val)).testBit l.val = true)
    (link : linkState s p = 4) : execLaneFail p l s = Next (ringDown s p 0 3) := by
  simp [execLaneFail, lane, link]

theorem execPeerLaneFail_eight {p : PeerPort} {l : Fin 8} {s : State}
    (lane : (s.num (fam 0xA010_02 p.val)).testBit l.val = true) (link : peerLink s p = 5) : execPeerLaneFail p l s =
      Next (peerLinkUp (((signalLane s (peerEye p) l.val).inc (fam 0xA010_0B p.val)).raise 0xA012 p.val (leBytes 1 l.val)) p
        (255 - 2 ^ l.val)) := by
  simp [execPeerLaneFail, lane, link]

theorem execPeerLaneFail_seven {p : PeerPort} {l : Fin 8} {s : State}
    (lane : (s.num (fam 0xA010_02 p.val)).testBit l.val = true) (link : peerLink s p = 6) :
    execPeerLaneFail p l s = Next (peerDown s p 1) := by
  simp [execPeerLaneFail, lane, link]

/-! ### Light (R389, R450) -/

theorem execLossOfLight_ring {p : RingPort} {s : State} (shut : linkState s p ≠ 1) :
    execLossOfLight (ringEye p) s = Next (ringDown (((modEye s (ringEye p) fun e =>
      { e with lit := false, txOn := false, shutAt := s.up, lastPulse := s.up }).inc (fam 0x1110_09 p.val)).raise 0x1013 p.val [])
        p 1 1) := by
  simp only [execLossOfLight, ringOf_ringEye, shut, if_false]

theorem execLightReturn_ring {p : RingPort} {s : State} (dark : linkState s p < 2) : execLightReturn (ringEye p) s =
    Next (dropPair ((modEye s (ringEye p) fun e => { e with lit := true, txOn := true }).setNum (fam 0x1110_01 p.val) 2)) := by
  simp only [execLightReturn, ringOf_ringEye, dark, if_true]

theorem execLossOfLight_peer {p : PeerPort} {s : State} (enabled : peerLink s p ≠ 0) (shut : peerLink s p ≠ 2) :
    execLossOfLight (peerEye p) s = Next (peerDown (((modEye s (peerEye p) fun e =>
      { e with lit := false, txOn := false, shutAt := s.up, lastPulse := s.up }).inc (fam 0xA010_0A p.val)).raise 0xA013 p.val [])
        p 2) := by
  simp only [execLossOfLight, ringOf_peerEye, peerOf_peerEye, enabled, shut, or_self, if_false]

theorem execLightReturn_peer {p : PeerPort} {s : State} (dark : peerLink s p = 1 ∨ peerLink s p = 2) :
    execLightReturn (peerEye p) s =
      Next ((modEye s (peerEye p) fun e => { e with lit := true, txOn := true }).setNum (fam 0xA010_01 p.val) 3) := by
  simp only [execLightReturn, ringOf_peerEye, peerOf_peerEye, dark, if_true]

theorem execEyeProbe_shut {e : EyePort} {s : State}
    (shut : (∃ p, ringOf e = some p ∧ linkState s p = 1) ∨ (∃ p, peerOf e = some p ∧ peerLink s p = 2))
    (since : 30720000 ≤ s.since s.eyes[e].shutAt) (pulse : 30720000 ≤ s.since s.eyes[e].lastPulse) :
    execEyeProbe e s = Next { modEye s e fun q => { q with lastPulse := s.up } with out := s.out ++ [Out.pulse e] } := by
  have since' : decide (second ≤ s.since s.eyes[e].shutAt) = true := decide_eq_true since
  have pulse' : decide (second ≤ s.since s.eyes[e].lastPulse) = true := decide_eq_true pulse
  rcases shut with ⟨p, port, link⟩ | ⟨p, port, link⟩
  · simp only [execEyeProbe, port, link, since', pulse', beq_self_eq_true, Bool.and_self, if_true]
    rfl
  · simp only [execEyeProbe, ringOf_of_peerOf port, port, link, since', pulse', beq_self_eq_true, Bool.and_self, if_true]
    rfl

/-- Settles O37: each row by the case of its port's state; a peer port's optical port is none of the Kangeiz ports'. -/
theorem portsAndLight : Obligations.PortsAndLight := by
  refine ⟨fun p m s clock on lit link => ?_, fun p m s clock on lit link => ?_,
    fun p l s lane => ⟨execLaneFail_four lane, execLaneFail_three lane⟩,
    fun p s => ⟨execLossOfLight_ring, execLightReturn_ring⟩,
    fun p s => ⟨execLossOfLight_peer, execLightReturn_peer, fun link due => if_pos ⟨link, due⟩⟩,
    fun e s => execEyeProbe_shut, fun p m s clock on lit link => (execPeerLinkTrained_trained clock m on lit link).trans (by cases m <;> rfl),
    fun p l s lane => ⟨execPeerLaneFail_eight lane, execPeerLaneFail_seven lane⟩⟩
  · have down : portUp s p = false := decide_eq_false (by change ¬ 3 ≤ linkState s p; omega)
    refine (execLinkUp_trained clock m on lit (by omega)).trans ?_
    rw [down, if_neg Bool.false_ne_true]
    cases m <;> rfl
  · have up : portUp s p = true := decide_eq_true (by change 3 ≤ linkState s p; omega)
    refine (execLinkUp_trained clock m on lit (by omega)).trans ?_
    rw [up, if_pos rfl]
    cases m <;> rfl

/-! ### The link layer (R457, R458) -/

section LinkLayer

variable {p : PeerPort} {h : PeerHdr} {f : PeerFrame} {answer : Bool} {s t : State}

theorem linkAccept_next (code : h.fecOk = true) (crc : f.crcOk = true)
    (next : h.seq.toNat = (peerCredited (peerAcked s p h.ackSeq.toNat) p h.creditField.toNat).peers[p].rxNext) :
    linkAccept s p h f answer =
      (let v := modPeer (peerCredited (peerAcked s p h.ackSeq.toNat) p h.creditField.toNat) p fun q =>
          { q with rxNext := (q.rxNext + 1) % 2 ^ 32 }
       (if answer then sendLink v p 0x01 0 [] else v, true)) := by
  simp only [linkAccept, code, crc, Bool.not_true, Bool.false_eq_true, if_false]
  exact if_pos next

theorem linkAccept_badCrc (code : h.fecOk = true) (crc : f.crcOk = false) :
    linkAccept s p h f answer = (sendLink s p 0x01 1 [], false) := by
  simp [linkAccept, code, crc]

theorem linkAccept_badCode (code : h.fecOk = false) :
    linkAccept s p h f answer = (sendLink (s.inc (fam 0xA010_08 p.val)) p 0x01 1 [], false) := by
  simp [linkAccept, code]

/-- A frame accepted by the link layer for an ordinal that is not the device's goes on along its route, one hop more. -/
theorem peerFrame_forwarded {type channel hops : Nat} {record payload : Bytes} {consume : State → State} {o : PeerPort}
    (up : peerUp s p = true) (accepted : linkAccept s p h (frameOf h type record payload) true = (t, true))
    (few : h.hops.toNat < 8) (header : headerOk h channel = true) (other : ownOrdinal t h.destOrd.toNat = false)
    (route : routeTo t h.destOrd.toNat = some (o, hops)) :
    peerFrame s p h type channel record payload consume = peerSend (t.inc (fam 0xA010_0E o.val)) o
      { frameOf h type record payload with hops := h.hops.toNat + 1, creditField := 0, via := some p } := by
  have few' : ¬ 8 < h.hops.toNat := by omega
  simp only [peerFrame, up, accepted, header, other, few', Bool.not_true, Bool.false_eq_true, if_false, forwardPeer, route,
    Nat.not_le.2 few]

theorem channel_of_headerOk {channel : Nat} (header : headerOk h channel = true) : h.channel.toNat = channel := by
  simp only [headerOk, Bool.and_eq_true, beq_iff_eq] at header
  exact header.1.2

theorem execLinkAck_accepted (link : 4 ≤ peerLink s p)
    (accepted : linkAccept s p h (frameOf h 0x01 (recordOf h []) []) false = (t, true)) (header : reservedOk455 h = true) :
    execLinkAck p h s = if h.flags.toNat.testBit 0 then Next (peerResend t p) else Next t := by
  have link' : aligned s p = true := decide_eq_true link
  simp only [execLinkAck, link', accepted, header, Bool.not_true, Bool.false_eq_true, if_false]

theorem execPeerResendTimeout_due (link : 4 ≤ peerLink s p) (owed : s.peers[p].unacked ≠ [])
    (due : 615 ≤ s.since s.peers[p].progressAt) : execPeerResendTimeout p s = Next (peerResend s p) := by
  have link' : aligned s p = true := decide_eq_true link
  have owed' : s.peers[p].unacked.isEmpty = false := List.isEmpty_eq_false_iff.2 owed
  simp only [execPeerResendTimeout, link', owed', due, Bool.not_false, Bool.and_self, decide_true, if_true]

theorem execCredit_accepted {returns : List (BitVec 16)} (up : peerUp s p = true)
    (accepted : linkAccept s p h (frameOf h 0x02 (recordOf h []) ((returns.map fun v => leBytes 2 v.toNat).flatten)) true =
      (t, true)) (header : reservedOk455 h = true) (few : returns.length ≤ 32) :
    execCredit p h returns s = Next (returns.foldl (fun t v => peerCredited t p v.toNat) t) := by
  simp only [execCredit, up, accepted, header, Nat.not_lt.2 few, Bool.not_true, Bool.false_eq_true, or_self, if_false]

end LinkLayer

/-! ### HELLO (R453) -/

/-- A link frame sent changes no object but FRAMES_OUT of its port. -/
theorem num_sendLink_other (s : State) (p : PeerPort) (type flags : Nat) (payload : Bytes) {i : Nat}
    (h : i ≠ fam 0xA010_0D p.val) : (sendLink s p type flags payload).num i = s.num i :=
  State.num_inc_other _ _ _ h

/-- The state behind a HELLO of sequence number 0: the numbers of the link begin anew, and PEER_SERIAL holds the far end's. -/
def helloFresh (s : State) (p : PeerPort) (serial : Nat) : State :=
  (sendLink (modPeer s p fun q => { q with rxNext := 1, unacked := [], credits := [] }) p 0x01 0 []).setNum
    (fam 0xA010_10 p.val) serial

theorem peerLink_helloFresh (s : State) (p : PeerPort) (serial : Nat) : peerLink (helloFresh s p serial) p = peerLink s p := by
  have other : fam 0xA010_01 p.val ≠ fam 0xA010_10 p.val := by unfold fam; omega
  have count : fam 0xA010_01 p.val ≠ fam 0xA010_0D p.val := by unfold fam; omega
  exact (State.num_setNum_other _ _ _ _ other).trans (num_sendLink_other _ p _ _ _ count)

theorem execHello_fresh {p : PeerPort} {h : PeerHdr} {ring : BitVec 32} {o port : Byte} {serial : BitVec 64} {s : State}
    (link : peerLink s p = 4 ∨ peerLink s p = 7) (code : h.fecOk = true)
    (crc : (frameOf h 0x03 (recordOf h []) (leBytes 4 ring.toNat ++ [o, port] ++ leBytes 8 serial.toNat)).crcOk = true)
    (header : reservedOk455 h = true) (first : h.seq.toNat = 0) :
    execHello p h ring o port serial s =
      (let u := helloFresh s p serial.toNat
       if ring.toNat = ringId u ∧ o.toNat + 256 * port.toNat = u.num (fam 0xA010_05 p.val) then
        Next (peerLinkUp u p (u.num (fam 0xA010_02 p.val)))
      else Next ((u.setNum (fam 0xA010_01 p.val) 7).raise 0xA014 p.val
        (leBytes 4 ring.toNat ++ leBytes 1 o.toNat ++ leBytes 1 port.toNat ++ leBytes 8 serial.toNat))) := by
  have link' : aligned s p = true := decide_eq_true (by omega)
  have judged : ¬ (peerLink (helloFresh s p serial.toNat) p ≠ 4 ∧ peerLink (helloFresh s p serial.toNat) p ≠ 7) := by
    rw [peerLink_helloFresh]
    omega
  simp only [execHello, link', code, crc, header, first, Bool.not_true, Bool.or_self, Bool.false_eq_true, if_false,
    true_or, if_true]
  exact if_neg judged

/-- Settles O38: each row by the checks that its frame passes; a HELLO that numbers from 0 leaves the link's state to judge. -/
theorem peerLinkLayer : Obligations.PeerLinkLayer := by
  refine ⟨fun p h f answer s => ⟨linkAccept_next, linkAccept_badCrc, linkAccept_badCode⟩,
    fun p h st r tag blk payload t out hops s => ?_,
    fun p h t s => execLinkAck_accepted, fun p s => execPeerResendTimeout_due, fun p h returns t s => execCredit_accepted,
    fun p h ring o port serial s => execHello_fresh⟩
  intro f up accepted few header other route
  refine (congrArg Next (peerFrame_forwarded up accepted few header other route)).trans ?_
  rw [← channel_of_headerOk header]
  rfl

end Sys2Proof.Machine
end

section
/-! PROOFS. Frames of gang tasks, the mirror and weight blocks between devices (R193, R201, R458-R469). -/

namespace Sys2Proof.Machine

/-! ### Frames that the device consumes -/

section Consumed

variable {s u : State} {p : PeerPort} {h : PeerHdr} {type channel : Nat} {arg record payload : Bytes}

/-- A frame that the link layer accepts, with a well-formed header and for the device, has its own effect on the state behind
the link layer. -/
theorem peerFrame_consumed (frame : PeerFrameIn s p h type channel record payload u) (consume : State → State) :
    peerFrame s p h type channel record payload consume = consume u := by
  obtain ⟨up, few, header, t, accepted, own, rfl⟩ := frame
  simp only [peerFrame, up, accepted, header, own, Nat.not_lt.2 few, Bool.not_true, Bool.false_eq_true, if_false, if_true]

theorem peerReceive_consumed (frame : PeerIn s p h type channel arg payload u) {consume : State → State} {v : State}
    (effect : consume u = v) :
    (Host.Outcome.next (peerReceive s p h type channel arg payload consume) : Host.Outcome State Fault Refusal) = Next v :=
  congrArg Next ((peerFrame_consumed frame consume).trans effect)

end Consumed

/-! ### Gang tasks (R461-R465) -/

theorem execRead_served {p : PeerPort} {h : PeerHdr} {payload : Bytes} {e : LibEntry} {o : OpEntry} {u s : State}
    (frame : PeerIn s p h 0x12 2 [] payload u) (size : payload.length = 32) (gap : fieldAt payload 5 3 = 0)
    (rest : fieldAt payload 31 1 = 0) (stream : fieldAt payload 28 2 < 8192)
    (found : libOperand u (fieldAt payload 0 4) (fieldAt payload 4 1) (fieldAt payload 8 4) (fieldAt payload 12 4) = some (e, o))
    (inside : fieldAt payload 16 8 + fieldAt payload 24 4 ≤ o.length) :
    execRead p h payload s =
      (let data := imageRead e.blocks (o.offset + fieldAt payload 16 8) (fieldAt payload 24 4)
       Next (answerRead (countImage u (fieldAt payload 0 4) (fieldAt payload 4 1) (fieldAt payload 8 4)
        (o.offset + fieldAt payload 16 8) (fieldAt payload 24 4))
        h.srcOrd.toNat (fieldAt payload 28 2) (fieldAt payload 30 1) (data.length + 1) 0 data)) := by
  refine peerReceive_consumed frame ?_
  simp only [size, gap, rest, found, Nat.not_le.2 stream, Nat.not_lt.2 inside, ne_eq, not_true_eq_false, or_self, if_false]

theorem execGrant_taken {p : PeerPort} {h : PeerHdr} {gt : BitVec 32} {level : Byte} {t : Task} {u s : State}
    (frame : PeerIn s p h 0x21 1 (leBytes 4 gt.toNat ++ leBytes 1 level.toNat) [] u) (low : 6 ≤ level.toNat)
    (high : level.toNat ≤ 11) (part : partAt u gt.toNat h.destOrd.toNat = some t) :
    execGrant p h gt level s = Next (takeGrant u t.num level.toNat) := by
  refine peerReceive_consumed frame ?_
  simp only [Nat.not_lt.2 low, Nat.not_lt.2 high, or_self, if_false, part]

theorem execPeerReduce_taken {p : PeerPort} {h : PeerHdr} {gt : BitVec 32} {level mode : Byte} {m : Mode} {payload : Bytes}
    {t : Task} {u s : State}
    (frame : PeerIn s p h 0x22 1 (leBytes 4 gt.toNat ++ leBytes 1 level.toNat ++ leBytes 1 mode.toNat) payload u)
    (part : partAt u gt.toNat h.destOrd.toNat = some t) (byte : modeByte mode.toNat = some m)
    (whole : elemsOk mode.toNat m payload = true) :
    execPeerReduce p h gt level mode payload s = Next (touch (takeElems u
      (inboundFrame t h.srcOrd.toNat level.toNat mode.toNat (grantedScale u t.num level.toNat) m payload)) t.num) := by
  refine peerReceive_consumed frame ?_
  simp only [byte, Option.any_some, whole, Bool.not_true, Bool.false_eq_true, if_false, part, takeReduce]

theorem execRepeatTile_taken {p : PeerPort} {h : PeerHdr} {gt : BitVec 32} {scale : Byte} {payload : Bytes} {t : Task}
    {r : TileRepeat} {u s : State} (frame : PeerIn s p h 0x23 1 (leBytes 4 gt.toNat ++ leBytes 1 scale.toNat) payload u)
    (part : partAt u gt.toNat h.destOrd.toNat = some t) (size : payload.length = 8)
    (tile : t.graph.tiles.find? (fun r => r.rowTile == fieldAt payload 0 4 && r.slot == fieldAt payload 4 2
      && r.vectors == fieldAt payload 6 2) = some r) :
    execRepeatTile p h gt scale payload s = Next (settleAllFacets (writeRepeat u t r scale.toNat)) := by
  refine peerReceive_consumed frame ?_
  simp only [size, ne_eq, not_true_eq_false, if_false, part, repeatPart, tile]

theorem execAbort_taken {p : PeerPort} {h : PeerHdr} {gt : BitVec 32} {cause : Byte} {t : Task} {u s : State}
    (frame : PeerIn s p h 0x24 1 (leBytes 4 gt.toNat ++ leBytes 1 cause.toNat) [] u)
    (part : partAt u gt.toNat h.destOrd.toNat = some t) :
    execAbort p h gt cause s = Next (settleAllFacets (abortTask u t.num .replay cause.toNat)) := by
  refine peerReceive_consumed frame ?_
  simp only [part]

/-! ### BATCH (R462) -/

section Batch

variable {u : State} {gt ord model stage copy bound n : Nat} {g : TaskGraph} {c : Ctx}

/-- A device that serves, takes work and does not run the task already judges its part. -/
theorem takeBatch_judged (serving : u.node = .serving) (takes : u.quiesce = 0) (new : findTask u g.task = none) :
    takeBatch u gt ord g model stage copy bound = admitPart u gt ord g model stage copy bound := by
  simp only [takeBatch, serving, takes, new, ne_eq, not_true_eq_false, Option.isSome_none, Bool.false_eq_true, or_self, if_false]

variable (held : (u.contexts.find? fun c => c.2.model == model && c.2.stage == stage && (c.2.holding copy).isSome) = some (n, c))

include held

theorem admitPart_damaged (bad : needsDamaged u (graphOn u { g with jsn := noRequest, copy := copy, context := n, parts := [] })
      copy = true) :
    admitPart u gt ord g model stage copy bound = refusePart (u.faultAborted true) gt ord 256 := by
  simp only [admitPart, held, bad, if_true]

variable (sound : needsDamaged u (graphOn u { g with jsn := noRequest, copy := copy, context := n, parts := [] }) copy = false)

include sound

theorem admitPart_refused {cause retry : Nat}
    (judged : judgeTask u (graphOn u { g with jsn := noRequest, copy := copy, context := n, parts := [] })
      (graphOn u { g with jsn := noRequest, copy := copy, context := n, parts := [] }).cls bound = .refused cause retry) :
    admitPart u gt ord g model stage copy bound = refusePart (countRefusal u cause) gt ord cause := by
  simp only [admitPart, held, sound, Bool.false_eq_true, if_false, judged]

theorem admitPart_admitted {plan : Plan}
    (judged : judgeTask u (graphOn u { g with jsn := noRequest, copy := copy, context := n, parts := [] })
      (graphOn u { g with jsn := noRequest, copy := copy, context := n, parts := [] }).cls bound = .plan plan) :
    admitPart u gt ord g model stage copy bound =
      (let part := graphOn u { g with jsn := noRequest, copy := copy, context := n, parts := [] }
       (part.streams.filter fun d => d.producer == 0x48).foldl (fun s d =>
        (sendFreeing s none ord (gt % 256) 0x11 0 2
          (leBytes 2 (d.stream + d.eic * 1024) ++ leBytes 1 0 ++ leBytes 2 d.poolBlocks) []).getD s)
        (admitTask u part part.cls bound plan (some (gt, [gt % 256])) ord)) := by
  simp only [admitPart, held, sound, Bool.false_eq_true, if_false, judged]

end Batch

/-- A BATCH that is consumed with a valid stamp goes to the part that it names. -/
theorem execBatch_taken {p : PeerPort} {h : PeerHdr} {gt model : BitVec 32} {g : TaskGraph} {stage : Byte} {copy : BitVec 32}
    {bound : BitVec 64} {t : Nat} {u s : State}
    (frame : PeerIn s p h 0x20 1 (leBytes 4 gt.toNat) (leBytes 4 model.toNat ++ leBytes 1 stage.toNat ++ leBytes 4 copy.toNat
      ++ leBytes 1 (clsCode g.cls) ++ leBytes 8 bound.toNat ++ leBytes 4 g.task) u)
    (stamp : stampTicks bound.toNat = some t) {v : State}
    (effect : takeBatch u gt.toNat h.destOrd.toNat g model.toNat stage.toNat copy.toNat t = v) :
    execBatch p h gt g model stage copy bound s = Next v := by
  refine peerReceive_consumed frame ?_
  simp only [stamp, effect]

/-- Settles O39: a consumed frame has its effect on the state behind the link layer; the part of a BATCH is judged once. -/
theorem gangTasks : Obligations.GangTasks := by
  refine ⟨fun p h st r tag blk payload u s frame => peerReceive_consumed frame rfl,
    fun p h st r n u s frame => peerReceive_consumed frame rfl, fun p h payload e o u s => execRead_served,
    fun p h gt level t u s => execGrant_taken, fun p h gt level mode m payload t u s => execPeerReduce_taken,
    fun p h gt b payload t r u s => execRepeatTile_taken, fun p h gt b t u s => execAbort_taken,
    fun p h gt model g stage copy bound t n c u s frame stamp serving takes new held => ?_, fun gt t s found => ?_⟩
  · intro ord part
    have judged : takeBatch u gt.toNat ord g model.toNat stage.toNat copy.toNat t =
      admitPart u gt.toNat ord g model.toNat stage.toNat copy.toNat t := takeBatch_judged serving takes new
    exact ⟨fun bad => execBatch_taken frame stamp (judged.trans (admitPart_damaged held bad)),
      fun sound => ⟨fun plan plans => execBatch_taken frame stamp (judged.trans (admitPart_admitted held sound plans)),
        fun cause retry refused => execBatch_taken frame stamp (judged.trans (admitPart_refused held sound refused))⟩⟩
  · change execPartBoundExpiry gt s = _
    simp only [execPartBoundExpiry, found]

/-! ### The mirror (R467-R469) -/

theorem execJournal_kept {p : PeerPort} {h : PeerHdr} {pos : BitVec 32} {payload : Bytes} {u s : State}
    (frame : PeerIn s p h 0x30 0 (leBytes 4 pos.toNat) payload u)
    (taken : if h.flags.toNat.testBit 1 = true then mirrorFrom u = h.srcOrd.toNat ∨ mirrorFrom u = 255
      else mirrorFrom u = h.srcOrd.toNat ∧ u.gang.refuseFrom ≠ some h.srcOrd.toNat)
    (size : payload.length = 64) (inside : pos.toNat < jPositions) (reserved : (entryOf payload).reservedOk = true) :
    execJournal p h pos payload s =
      (let v := if h.flags.toNat.testBit 1 then modGang (modJournal (u.setNum 0xA000_06 h.srcOrd.toNat) fun j =>
         { j with mirror := JPart.empty }) fun q => { q with refuseFrom := none } else u
       Next (sendToOr (modJournal v fun j =>
          let m := jPut j.mirror pos.toNat (entryOf payload)
          let m := if (entryOf payload).kind = 10 then jDrop m ((List.range (entryOf payload).count).map fun i =>
            (fieldAt (entryOf payload).payload 0 4 + i) % jPositions) else m
          { j with mirror := { m with head := (pos.toNat + 1) % jPositions } })
        h.srcOrd.toNat 0x31 0 0 (leBytes 4 pos.toNat ++ leBytes 1 0) [])) := by
  refine peerReceive_consumed frame ?_
  by_cases resync : h.flags.toNat.testBit 1 = true
  case pos =>
    rw [if_pos resync] at taken
    have taken' : (mirrorFrom u == h.srcOrd.toNat || mirrorFrom u == 255) = true := by simpa using taken
    simp only [resync, Bool.not_true, Bool.and_false, Bool.and_true, Bool.false_or, taken', Bool.false_eq_true, if_false, size,
      ne_eq, not_true_eq_false, Nat.not_le.2 inside, reserved, or_self, if_true]
  case neg =>
    rw [if_neg resync] at taken
    obtain ⟨source, accepts⟩ := taken
    have accepts' : (u.gang.refuseFrom == some h.srcOrd.toNat) = false := beq_eq_false_iff_ne.2 accepts
    simp only [resync, source, accepts', beq_self_eq_true, Bool.not_false, Bool.and_true, Bool.true_or, Bool.not_true,
      Bool.or_self, Bool.false_eq_true, if_false, size, ne_eq, not_true_eq_false, Nat.not_le.2 inside, reserved, or_self, if_true]

theorem execJournalAck_known {p : PeerPort} {h : PeerHdr} {pos : BitVec 32} {status : Byte} {u s : State}
    (frame : PeerIn s p h 0x31 0 (leBytes 4 pos.toNat ++ leBytes 1 status.toNat) [] u) (source : h.srcOrd.toNat = buddy u)
    (sent : (u.gang.mirrorSent.any fun e => e.1 == pos.toNat) = true) :
    (status.toNat = 0 → execJournalAck p h pos status s = Next (mirrorHeld u pos.toNat)) ∧
    (status.toNat = 1 → execJournalAck p h pos status s = Next (mirrorLost u 2)) := by
  constructor <;> intro code <;> refine peerReceive_consumed frame ?_ <;>
    simp [source, sent, code]

theorem execMirrorTimeout_overdue {s : State} (late : ∃ e ∈ s.gang.mirrorSent, s.num 0xA000_07 ≤ s.since e.2) :
    execMirrorTimeout s = Next (mirrorLost s 1) := by
  refine if_pos (List.any_eq_true.2 ?_)
  obtain ⟨e, sent, since⟩ := late
  exact ⟨e, sent, decide_eq_true since⟩

/-! ### Weight blocks between devices (R193, R201, R466) -/

theorem execPeerWeightBlock_taken {p : PeerPort} {h : PeerHdr} {model : BitVec 32} {stage : Byte} {block copy : BitVec 32}
    {payload : Bytes} {u s : State}
    (frame : PeerFrameIn s p h 0x40 3
      (leBytes 4 model.toNat ++ leBytes 1 stage.toNat ++ (h.rest ++ [0]).take 1 ++ leBytes 4 block.toNat)
      (leBytes 4 copy.toNat ++ payload) u) (size : payload.length = 4096) :
    execPeerWeightBlock p h model stage block copy payload s =
      Next (weightBlockIn u model.toNat stage.toNat copy.toNat block.toNat (some p.val) payload).2 :=
  congrArg Next ((peerFrame_consumed frame _).trans (if_neg (by simp [size])))

/-- The blocks that are not written are those whose data is empty. -/
theorem partition_written (blks : List Nat) (data : Nat → Bytes) :
    blks.partition (fun k => data k != []) = (blks.filter fun k => data k != [], blks.filter fun k => data k == []) := by
  simp only [List.partition_eq_filter_filter, Function.comp_def, bne, Bool.not_not]

section Frames

variable {i : Nat} (other : ∀ p : PeerPort, i ≠ fam 0xA010_0D p.val)

include other

/-- A frame sent, or left to wait for its credit, changes no object but the FRAMES_OUT of ports. -/
theorem num_peerSend_other (s : State) (p : PeerPort) (f : PeerFrame) : (peerSend s p f).num i = s.num i := by
  have out (t : State) (f : PeerFrame) (kept : t.num i = s.num i) : (peerOut t p f).num i = s.num i :=
    (State.num_inc_other _ _ _ (other p)).trans kept
  cases via : f.via with
  | none =>
    simp only [peerSend, via]
    split
    · exact out _ _ rfl
    · rfl
  | some v =>
    simp only [peerSend, via]
    split
    · exact (num_sendLink_other _ v _ _ _ (other v)).trans (out _ _ rfl)
    · rfl

theorem num_sendToOr_other (s : State) (ord type flags channel : Nat) (arg payload : Bytes) :
    (sendToOr s ord type flags channel arg payload).num i = s.num i := by
  unfold sendToOr sendTo sendFreeing
  split
  case h_1 => rfl
  case h_2 p _ _ => exact num_peerSend_other other s p _

end Frames

/-- A request for blocks leaves who stands at each port. -/
theorem neighbourOf_sendBlockReq (s : State) (ord model stage copy first count port : Nat) :
    neighbourOf (sendBlockReq s ord model stage copy first count) port = neighbourOf s port := by
  have out (p : PeerPort) : fam 0xA010_05 port ≠ fam 0xA010_0D p.val := by unfold fam; omega
  have counted : fam 0xA010_05 port ≠ 0xA020_06 := by unfold fam; omega
  have kept := (State.num_inc_other (sendToOr s ord 0x41 0 3 (leBytes 4 model ++ leBytes 1 stage ++ leBytes 2 count)
    (leBytes 4 copy ++ leBytes 4 first)) _ _ counted).trans (num_sendToOr_other out s ord 0x41 0 3 _ _)
  exact congrArg (· % 256) kept

/-- So the requests of one upstream port may all name the neighbour of the state before the first of them. -/
theorem foldl_sendBlockReq_neighbour (s t : State) (up model stage copy : Nat) (same : neighbourOf t up = neighbourOf s up)
    (runs : List (Nat × Nat)) :
    runs.foldl (fun t r => sendBlockReq t (neighbourOf t up) model stage copy r.1 r.2) t =
      runs.foldl (fun t r => sendBlockReq t (neighbourOf s up) model stage copy r.1 r.2) t := by
  induction runs generalizing t with
  | nil => rfl
  | cons r rs ih =>
    rw [List.foldl_cons, List.foldl_cons, same]
    exact ih _ ((neighbourOf_sendBlockReq _ _ _ _ _ _ _ _).trans same)

theorem execBlockStallRequest_due {c : BitVec 12} {slot : Bool} {missing : List Nat} {up : Nat} {s : State}
    (source : let x := (getCtx s c.toNat).slot slot
      x.state = .building ∧ portOf x.source x.desc = some up ∧
        missing = (if x.total = 0 then (if blockAt x.blocks 0 = [] then [0] else [])
          else (List.range x.total).filter fun k => blockAt x.blocks k == []) ∨
      x.state ≠ .building ∧ x.repairPort = some up ∧ missing = x.repairing)
    (some_ : missing ≠ []) (stalled : frameTicks ≤ s.since ((getCtx s c.toNat).slot slot).gainAt)
    (asked : frameTicks ≤ s.since ((getCtx s c.toNat).slot slot).askedAt) :
    execBlockStallRequest c slot s =
      (let t := modSlot s c.toNat slot fun y => { y with askedAt := s.up }
       Next ((runsOf missing).foldl (fun u r => sendBlockReq u (neighbourOf t up) (getCtx s c.toNat).model
         (getCtx s c.toNat).stage ((getCtx s c.toNat).slot slot).copyId r.1 (min r.2 65535)) t)) := by
  have some' : missing.isEmpty = false := List.isEmpty_eq_false_iff.2 some_
  rcases source with ⟨building, port, miss⟩ | ⟨built, port, miss⟩
  · simp only [execBlockStallRequest, building, if_true, ← miss, port, some', Option.isNone_some, Bool.false_eq_true,
      Nat.not_lt.2 stalled, Nat.not_lt.2 asked, or_self, if_false, Option.getD_some]
  · simp only [execBlockStallRequest, built, if_false, ← miss, port, some', Option.isNone_some, Bool.false_eq_true,
      Nat.not_lt.2 stalled, Nat.not_lt.2 asked, or_self, Option.getD_some]

/-- Settles O40: a consumed frame has its effect on the state behind the link layer; the blocks of a BLOCK_REQ part into those
written and the rest. -/
theorem mirrorAndPeerBlocks : Obligations.MirrorAndPeerBlocks := by
  refine ⟨fun p h pos payload u s => execJournal_kept, fun p h pos status u s => execJournalAck_known,
    fun s => execMirrorTimeout_overdue, fun p h model stage block copy payload u s => execPeerWeightBlock_taken,
    fun p h model stage count copy first u s frame => ?_, fun c slot missing up s => execBlockStallRequest_due⟩
  intro blks data sent rest v
  have step : execBlockReq p h model stage count copy first s =
      Next (match upstreamOf v model.toNat stage.toNat copy.toNat with
        | none => v
        | some up => (runsOf rest).foldl (fun t r =>
            sendBlockReq t (neighbourOf t up) model.toNat stage.toNat copy.toNat r.1 r.2) v) := by
    refine peerReceive_consumed frame ?_
    simp only [partition_written]
    rfl
  refine ⟨fun port => step.trans (by rw [port]), fun up port => step.trans ?_⟩
  rw [port]
  exact congrArg Next (foldl_sendBlockReq_neighbour v v up _ _ _ rfl _)

end Sys2Proof.Machine
end

section
/-! PROOFS. References of the frame-time counter, and what a frame start does (R258, R261-R264, R305, R409, R485, R598). -/

namespace Sys2Proof.Machine

/-! ### Edges (R262, R598) -/

theorem execFrameInEdge_apart {frac : BitVec 16} {s : State} (apart : ∀ t, s.frameInAt = some t → 307200 ≤ s.up - t)
    (valid : Bool) : execFrameInEdge frac valid s =
      (let u : State := { s with frameInAt := some s.up }
       if valid then if (s.num 0x2000_01).testBit 0 then Next (edgeCheck u frac.toNat) else Next u
       else Next (u.inc 0x8600_05)) := by
  have close : (match s.frameInAt with
      | some t => decide (s.up - t < frameTicks)
      | none => false) = false := by
    split
    case h_1 t last => exact decide_eq_false (Nat.not_lt.2 (apart t last))
    case h_2 => rfl
  cases valid
  · rfl
  · refine if_neg (Bool.eq_false_iff.1 ?_)
    exact close

/-! ### Offset checks (R262, R263) -/

/-- A check while the time state is SET: recorded and counted; the second outside the tolerance in succession loses the time. -/
theorem timeCheck_set {s : State} {offset : Int} (set : s.num 0x2000_03 = 1) :
    timeCheck s offset =
      (let u : State := { (s.setNum 0x2000_04 (fineNs offset)).inc 0x2000_09 with checkAt := s.up }
       if offset.natAbs ≤ s.num 0x2000_05 * 51200000000 then { u with outside := none }
       else match s.outside with
        | none => { u with outside := some (fineNs offset) }
        | some b => ({ u with outside := none }.setNum 0x2000_03 3).raise 0x2013 0xFF (leBytes 4 b ++ leBytes 4 (fineNs offset))) := by
  have kept (i : Nat) (count : i ≠ 0x2000_09) (value : i ≠ 0x2000_04) :
      ({ (s.setNum 0x2000_04 (fineNs offset)).inc 0x2000_09 with checkAt := s.up } : State).num i = s.num i :=
    (State.num_inc_other _ _ _ count).trans (State.num_setNum_other _ _ _ _ value)
  have state := (kept 0x2000_03 (by decide) (by decide)).trans set
  have tolerance := kept 0x2000_05 (by decide) (by decide)
  by_cases within : offset.natAbs ≤ s.num 0x2000_05 * 51200000000
  case pos =>
    rw [if_pos within]
    refine (if_neg (by rw [timeState, state]; decide)).trans ((if_pos (by rw [tolerance]; exact within)).trans (if_neg ?_))
    rw [timeState, state]
    decide
  case neg =>
    rw [if_neg within]
    refine (if_neg (by rw [timeState, state]; decide)).trans ((if_neg (by rw [tolerance]; exact within)).trans ?_)
    rfl

/-! ### PROBE and TIME (R261, R264, R409) -/

theorem execProbe_pair {payload : Bytes} {frac : BitVec 16} {t1 : ProbeSeen} {s : State} (ok : timePayloadOk true payload = true)
    (second_ : s.ring.probes[1] = some t1) (same : t1.id = fieldAt payload 16 2)
    (near : (t1.came - ((s.up : Int) * finePerTick + frac.toNat * fineFrac)).natAbs ≤ 1000000000 * 1572864) :
    execProbe 0 payload frac s =
      (let came : Int := s.up * finePerTick + frac.toNat * fineFrac
       let t0 : Int := came - fieldAt payload 20 4 * finePs
       Next ({ heard s with ring := { (heard s).ring with
        probes := s.ring.probes.set 0 (some { id := fieldAt payload 16 2, came := came, at_ := t0 }),
        pairs := (s.ring.pairs.filter fun (p : Nat × Int) => p.1 != fieldAt payload 16 2)
          ++ [(fieldAt payload 16 2, t1.at_ - t0)] } }.inc 0x1120_06)) := by
  have kept (seen : ProbeSeen) : ((heard s).ring.probes.set 0 (some seen))[1] = some t1 :=
    (Vector.getElem_set_ne (by decide) (by decide) (by decide)).trans second_
  have first (seen : ProbeSeen) : ((heard s).ring.probes.set 0 (some seen))[0] = some seen := Vector.getElem_set_self ..
  refine (if_neg (by simp [ok])).trans ?_
  simp only [Fin.getElem_fin, Fin.val_zero, Fin.val_one]
  rw [first, kept]
  exact if_pos ⟨same.symm, near⟩

theorem execTime_malformed {dir : Fin 2} {wrapped : Bool} {payload : Bytes} {frac : BitVec 16} {s : State}
    (bad : timePayloadOk false payload = false ∨ stampTicks (fieldAt payload 0 8) = none) :
    execTime dir wrapped payload frac s = Next ((heard s).inc 0x1100_0E) :=
  if_pos (by rcases bad with bad | bad <;> simp [bad])

theorem execTime_unpaired {dir : Fin 2} {wrapped : Bool} {payload : Bytes} {frac : BitVec 16} {s : State}
    (ok : timePayloadOk false payload = true)
    (unpaired : wrapped = true ∨ ∀ q ∈ s.ring.pairs, q.1 ≠ fieldAt payload 16 2)
    (stamp : stampTicks (fieldAt payload 0 8) ≠ none) : execTime dir wrapped payload frac s = Next (heard s) := by
  have bad : (!timePayloadOk false payload ∨ (stampTicks (fieldAt payload 0 8)).isNone) = False := by
    simp [ok, stamp]
  simp only [execTime, bad, if_false]
  split
  case h_1 id d t found _ =>
    rcases unpaired with wrap | none_
    · simp only [wrap, Bool.true_or, if_true]
    · have pair := List.find?_some found
      exact absurd (beq_iff_eq.1 pair) (none_ _ (List.mem_of_find?_eq_some found))
  case h_2 => rfl

theorem execTime_paired {dir : Fin 2} {payload : Bytes} {frac : BitVec 16} {d : Int} {t : Nat} {s : State}
    (ok : timePayloadOk false payload = true)
    (pair : s.ring.pairs.find? (fun p => p.1 == fieldAt payload 16 2) = some (fieldAt payload 16 2, d))
    (stamp : stampTicks (fieldAt payload 0 8) = some t) (long : fieldAt payload 12 4 ≠ 0) (port : arrivalPort dir = timePort s) :
    execTime dir false payload frac s =
      (let l : Int := fieldAt payload 12 4
       let a0 := (l * finePs - d) / 2
       let a1 := l * finePs - a0
       let u := (((((heard s).setNum 0x1120_01 (fineNs a0)).setNum 0x1120_02 (fineNs a1)).setNum 0x1120_03
        (fineNs (l * finePs))).setNum 0x1120_04 (fieldAt payload 16 2)).setNum 0x1120_05 1
       let ref : Int := t * finePerTick + fieldAt payload 8 2 * fineFrac + (if dir = 0 then a0 else a1)
        + fieldAt payload 20 4 * finePs
       let v := timeCheck u (offsetOf u ref (frac.toNat * fineFrac))
       if v.setArmed ∧ v.num 0x2000_03 ≠ 3 ∧ (v.node = .configuring ∨ v.node = .quiesced) then
        Next (setCounter v (fineTicks (ref - frac.toNat * fineFrac) % stampPeriod).toNat)
       else Next v) := by
  have found : (heard s).ring.pairs.find? (fun p => p.1 == fieldAt payload 16 2) = some (fieldAt payload 16 2, d) := pair
  have heardPort : timePort (heard s) = timePort s := rfl
  have taken : (false || fieldAt payload 12 4 == 0 || arrivalPort dir != timePort (heard s)) = false := by
    simp [long, port, heardPort]
  refine (if_neg (by simp [ok, stamp])).trans ?_
  simp only [found, stamp, taken, Bool.false_eq_true, if_false, Bool.and_eq_true, bne_iff_ne, Bool.or_eq_true, beq_iff_eq,
    and_assoc]
  rfl

/-- Settles O41: each reference by its checks; a check in SET keeps the first one outside the tolerance. -/
theorem timeReferences : Obligations.TimeReferences := by
  refine ⟨fun frac s apart => ⟨execFrameInEdge_apart (frac := frac) apart true, execFrameInEdge_apart (frac := frac) apart false⟩,
    fun frac s => ⟨rfl, rfl⟩, fun s offset set => ?_, fun payload frac t1 s ok second_ same => execProbe_pair ok second_ same,
    fun dir wrapped payload frac s => ⟨execTime_malformed, fun bad => if_pos (by simp [bad]), execTime_unpaired⟩,
    fun dir payload frac d t s => execTime_paired, fun s set late => if_pos ⟨set, late⟩⟩
  refine ⟨fun within => (timeCheck_set set).trans (if_pos within), fun far => ⟨fun first => ?_, fun b again => ?_⟩⟩
  · rw [timeCheck_set set, if_neg (Nat.not_le.2 far), first]
  · rw [timeCheck_set set, if_neg (Nat.not_le.2 far), again]

/-! ### The frame start (R258, R305, R485) -/

theorem writeSent_none {s : State} (none_ : s.requests = []) : writeSent s = settleAll s := by
  simp [writeSent, none_]

theorem writeSent_one {s : State} {r : Request} (one : s.requests = [r]) (acked : r.acked.isSome = true)
    (new : r.sentAcked = false) : writeSent s = settleAll (noteSent s r) := by
  simp [writeSent, one, acked, new]

theorem reclaimSessions_one {s : State} {x : Session} (one : s.sessions = [x]) (idle : x.state ≠ .active)
    (late : s.num 0x6000_02 * 307200 ≤ s.since x.lastAt) : reclaimSessions s = (freeSession s x).inc 0x6010_06 := by
  have due : s.num 0x6000_02 * frameTicks ≤ s.since x.lastAt := late
  simp [reclaimSessions, one, idle, due]

theorem execFrameStart_due {s : State} (clock : s.refclk = true) (start : s.now % 307200 = 0) (sys : s.sysUp = true) :
    execFrameStart s = Next (frameWork s) := by
  have start' : s.now % frameTicks = 0 := start
  simp only [execFrameStart, clock, start', sys, and_self, if_true]

/-- Settles O42: the work of the frame in the model's order, with one request and with one session. -/
theorem frameStartWork : Obligations.FrameStartWork := by
  intro s clock start sys
  refine ⟨execFrameStart_due clock start sys, fun t => writeSent_none, fun t r one acked new => ?_,
    fun t x => reclaimSessions_one⟩
  rw [writeSent_one one acked new, noteSent]

/-! ### Tasks admitted and aborted (R243, R277, R278, R478) -/

section Admission

variable {g : TaskGraph} {s : State} (serving : s.node = .serving) (takes : s.quiesce = 0) (new : findTask s g.task = none)

include serving takes new

theorem execTaskAdmission_fill (own : findRequest s g.jsn = none) (fill : g.cls = .fill) :
    execTaskAdmission g s =
      if needsDamaged s g (((getCtx s g.context).currentCopy).getD 0) then Next s else
      match judgeTask s (graphOn s g) .fill 0 with
      | .refused cause _ => Next (countRefusal s cause)
      | .plan p => Next (admitTask s (graphOn s g) .fill 0 p none (myOrdinal s)) := by
  refine (if_neg (by simp [serving, takes, new])).trans ?_
  simp only [own, fill, bne_self_eq_false, Bool.false_or] <;> rfl

theorem execTaskAdmission_request {r : Request} (found : findRequest s g.jsn = some r) (next : nextRequest s = some r) :
    execTaskAdmission g s = Next (rearmBusy (admitRequest s r g)) := by
  refine (if_neg (by simp [serving, takes, new])).trans ?_
  simp only [found, next, if_true]

end Admission

theorem kRunOk_long {g : TaskGraph} (long : 2 ^ 24 < g.kLanes ∨ g.bothI8 = true ∧ 2 ^ 23 < g.kLanes) : kRunOk g = false := by
  refine decide_eq_false ?_
  by_cases both : g.bothI8 = true
  · rw [if_pos both]
    omega
  · rw [if_neg both]
    exact Nat.not_le.2 (long.resolve_right fun h => both h.1)

theorem judgeTask_noTime {g : TaskGraph} {cls : Cls} {bound : Nat} {s : State} (slot : cls = .slot) (time : s.num 0x2000_03 = 3) :
    judgeTask s g cls bound = .refused 7 0 :=
  if_pos ⟨slot, time⟩

theorem judgeTask_long {g : TaskGraph} {cls : Cls} {bound : Nat} {s : State} (time : s.num 0x2000_03 ≠ 3)
    (long : 2 ^ 24 < g.kLanes ∨ g.bothI8 = true ∧ 2 ^ 23 < g.kLanes) : judgeTask s g cls bound = .refused 2 0 :=
  (if_neg fun h => time h.2).trans (if_pos (by rw [kRunOk_long long]; rfl))

/-- Settles O43: a task without a request is fill work that R278 judges; one with a request is admitted in its order. -/
theorem tasksAdmittedAndAborted : Obligations.TasksAdmittedAndAborted := by
  refine ⟨fun g s serving takes new own fill => ?_, fun g r s serving takes new found next =>
      execTaskAdmission_request serving takes new found next,
    fun g cls bound s => ⟨judgeTask_noTime, fun time long => judgeTask_long time (.inl long),
      fun time both long => judgeTask_long time (.inr ⟨both, long⟩)⟩,
    fun task c s cause => ?_⟩
  · intro bad
    have step : exec (.taskAdmission g) s = _ := execTaskAdmission_fill serving takes new own fill
    refine ⟨fun damaged => step.trans (if_pos damaged), fun p sound plan => ?_, fun cause retry sound refused => ?_⟩
    · rw [step, if_neg (Bool.eq_false_iff.1 sound), plan]
    · rw [step, if_neg (Bool.eq_false_iff.1 sound), refused]
  · cases c with
    | gang => exact absurd rfl cause
    | _ => rfl

end Sys2Proof.Machine
end

section
/-! PROOFS. Jigs, pushes, releases and stalls (R226-R235, R245-R247, R365). -/

namespace Sys2Proof.Machine

/-! ### The start of a jig (R228-R230) -/

section JigStart

variable {e : Fin 9} {jig : BitVec 8} {eic : PairId} {st : BitVec 10} {entries : List (BitVec 64)} {what : JigData} {x : Stream}
  {s : State} (found : findStream s eic.val st.toNat = some x) (none_ : s.jigs = [])

include found none_

theorem execJigStart_bad {i : Nat} (bad : jigBad e.val (entries.map fun i => i.toNat) = some i) :
    execJigStart e jig eic st entries what s =
      (let es := entries.map fun i => i.toNat
       let u : State := { s with jigTable := sparsePut (fun _ => []) s.jigTable (e.val * 256 + jig.toNat) (es.take 16) }
       Next (jigFault u eic.val e.val jig.toNat st.toNat x.desc.task i 0)) := by
  simp only [execJigStart, found]
  rw [if_neg (by simp [none_])]
  simp only [bad]

theorem execJigStart_good (good : jigBad e.val (entries.map fun i => i.toNat) = none) :
    execJigStart e jig eic st entries what s =
      (let es := entries.map fun i => i.toNat
       let u : State := { s with jigTable := sparsePut (fun _ => []) s.jigTable (e.val * 256 + jig.toNat) (es.take 16) }
       Next (touch { modStream u eic.val st.toNat (bindReceiver (jigShape es)) with jigs := [
        { engine := e.val, jig := jig.toNat, eic := eic.val, stream := st.toNat, entries := es, next := 0,
          tag := bitsOf (jigShape es).ender 53 46, emitted := 0, openBuf := none, data := [], converting := false, what := what,
          reading := 0, got := [], hold := none, skip := 0, ended := false, catchup := false,
          firstSerial := x.nextSerial }] } x.desc.task)) := by
  simp only [execJigStart, found]
  rw [if_neg (by simp [none_])]
  simp only [good, modStream, none_, List.nil_append]

end JigStart

/-! ### The emission of an engine's only jig (R231-R234) -/

section Emission

variable {s : State} {j : JigRun} {errs : List (Nat × ReadOutcome)} (converting : j.converting = false) (reading : j.reading = 0)

include converting reading

theorem emitJig_ended (ended : (jigShape j.entries).total ≤ j.next) :
    emitJig s j errs = endJig s j.eic j.stream (jigShape j.entries).total := by
  simp only [emitJig, converting, reading, bne_self_eq_false, Bool.or_self, Bool.false_eq_true, if_false, ended, if_true]

variable (good : jigBad j.engine j.entries = none) (next : j.next < (jigShape j.entries).total)

include good next

theorem emitJig_outside {i a : Nat}
    (addr : jigAddr s (jigShape j.entries) (jigLimit s j (jigShape j.entries)) j.next = .error (i, a)) :
    emitJig s j errs = runFault s j i a := by
  simp only [emitJig, converting, reading, bne_self_eq_false, Bool.or_self, Bool.false_eq_true, if_false, Nat.not_le.2 next,
    good, Option.map_none, addr]

variable {a : Nat} (addr : jigAddr s (jigShape j.entries) (jigLimit s j (jigShape j.entries)) j.next = .ok a)

include addr

theorem emitJig_ungranted {i b : Nat} (window : windowFault s j (jigShape j.entries) a = some (i, b)) :
    emitJig s j errs = runFault s j i b := by
  simp only [emitJig, converting, reading, bne_self_eq_false, Bool.or_self, Bool.false_eq_true, if_false, Nat.not_le.2 next,
    good, Option.map_none, addr, window]

variable (window : windowFault s j (jigShape j.entries) a = none)

include window

theorem emitJig_waits (ready : jigReady s j = false) :
    emitJig s j errs = if (jigShape j.entries).store then s else loadEmission s j (jigShape j.entries) a errs := by
  simp only [emitJig, converting, reading, bne_self_eq_false, Bool.or_self, Bool.false_eq_true, if_false, Nat.not_le.2 next,
    good, Option.map_none, addr, window, ready, Bool.not_false, if_true]

theorem emitJig_ready (ready : jigReady s j = true) :
    emitJig s j errs = (let sh := jigShape j.entries
      match checkRanges .hbm sh.stack (gatherWord sh j.next) (countGather s j.engine sh) with
      | (u, none) => if sh.store then storeEmission u j sh a else loadEmission u j sh a errs
      | (u, some b) =>
        abortTask (noteHbmBad u sh.stack b 3 (jigTask u j) 1 (contextOf u (jigTask u j))) (jigTask u j) .replay 256) := by
  rcases read : checkRanges .hbm (jigShape j.entries).stack (gatherWord (jigShape j.entries) j.next)
    (countGather s j.engine (jigShape j.entries)) with ⟨u, _ | b⟩ <;>
  simp only [emitJig, converting, reading, bne_self_eq_false, Bool.or_self, Bool.false_eq_true, if_false, Nat.not_le.2 next,
    good, Option.map_none, addr, window, ready, Bool.not_true, read]

end Emission

/-- Without a dip no jig is stopped by one. -/
theorem jigDips_noDips {s : State} (none_ : s.power.dips = []) (e : Nat) (sh : JigShape) : jigDips s e sh = false := by
  simp [jigDips, State.dipping, none_]

/-- The only jig of an engine, which is no catch-up jig, has the engine's emission. -/
theorem execJigEmission_only {e : Fin 9} {jig : BitVec 8} {errs : List (Nat × ReadOutcome)} {j : JigRun} {s : State}
    (only : s.jigs = [j]) (engine : j.engine = e.val) (num : j.jig = jig.toNat) (runs : j.ended = false)
    (own : j.catchup = false) (calm : s.power.dips = []) :
    execJigEmission e jig errs s = Next (emitJig s j errs) := by
  have mine : enginesJigs s e.val = [j] := by simp [enginesJigs, only, engine, runs]
  have running : runningJig s j.eic j.stream = some j := by simp [runningJig, only, runs]
  have noRisk : catchupRisk s j = s := by simp [catchupRisk, own]
  have choice : jigChoice s e.val = if jigReady s j then some j else none := by
    by_cases ready : jigReady s j = true <;> simp [jigChoice, mine, ready]
  have taken : ((jigChoice s e.val).filter fun j => j.jig == jig.toNat).or ([j].filter fun j => j.jig == jig.toNat).head? =
      some j := by
    by_cases ready : jigReady s j = true <;> simp [choice, ready, num, Option.filter]
  have turn : (jigReady s j && !((jigChoice s e.val).any fun k => k.jig == j.jig)) = false := by
    by_cases ready : jigReady s j = true <;> simp [choice, ready]
  simp only [execJigEmission, mine, taken, jigDips_noDips calm, turn, Bool.false_eq_true, if_false, noRisk, running]

/-! ### Conversions, escapes and stalls (R107, R245-R247) -/

theorem execPlaneConvertComplete_made {n : PairId} {c : ConvertJob} {rest : List ConvertJob} {j : JigRun} {s : State}
    (jobs : s.converts[n.val] = c :: rest) (made : c.made = true)
    (jig : (s.jigs.find? fun j => j.eic == c.eic && j.stream == c.stream && !j.ended) = some j) :
    execPlaneConvertComplete n s =
      (let r := pushRecords s c.eic c.stream (jigShape j.entries) c.records
       Next (endJig (endConvert r.1 c r.2) c.eic c.stream (jigShape j.entries).total)) := by
  have running : runningJig s c.eic c.stream = some j := jig
  simp only [execPlaneConvertComplete, jobs, List.head?_cons, made, if_true, running]

theorem grantDue_starved {s : State} {x : Stream} {t : Nat} (starved : x.starvedAt = some t)
    (late : s.num 0x4100_05 ≤ s.since t) (escape : x.desc.escape = true) (new : x.granted = false)
    (pool : x.desc.poolBlocks ≤ x.held) : grantDue s x = true := by
  simp [grantDue, starved, late, escape, new, pool]

section Stall

variable {task : BitVec 16} {t v : Task} {x : Stream} {s : State} (found : findTask s task.toNat = some t)
  (only : s.streams = [x]) (own : x.desc.task = task.toNat) (watch : watched s task.toNat = true)
  (late : s.num 0x4100_04 ≤ s.since t.progressAt)

include found only own watch late

theorem execStallAbort_grant (due : grantDue s x = true) : execStallAbort task s = Next (grantEscape s x) := by
  simp [execStallAbort, found, only, own, watch, late, due]

theorem execStallAbort_youngest (due : grantDue s x = false) (young : youngest s (task.toNat :: blockers s x) = some v) :
    execStallAbort task s = Next (touch (abortTask ((s.inc (fam 0x4200_06 x.desc.eic)).raise 0x4040 x.desc.eic
      (leBytes 1 x.desc.producer ++ leBytes 2 task.toNat ++ leBytes 2 x.desc.stream ++ leBytes 2 v.num)) v.num .replay 256)
      task.toNat) := by
  have chosen (p : Stream → Bool) : (([x].find? p).or [x].head?) = some x := by
    cases keep : p x <;> simp [keep]
  have mine : [x].filter (fun x => x.desc.task == task.toNat) = [x] := by simp [own]
  have due' : [x].find? (grantDue s) = none := by simp [due]
  have set : ([x].map (blockers s)).flatten = blockers s x := by simp
  simp only [execStallAbort, found, watch, only, mine, due', set, young, chosen, Bool.not_true, Bool.false_or,
    Nat.not_lt.2 late, decide_false, Bool.false_eq_true, if_false, Option.map_some, Option.getD_some]

end Stall

/-- Settles O45: a jig by its entries, an emission by its address, a stalled task by the grant that is due. -/
theorem jigsPushesAndStalls : Obligations.JigsPushesAndStalls := by
  refine ⟨fun e jig eic st entries what x s found none_ => ⟨execJigStart_good found none_, fun i => execJigStart_bad found none_⟩,
    fun e jig errs j s only engine num runs own converting reading good calm => ?_,
    fun n c rest j s => execPlaneConvertComplete_made, fun n st s => ⟨fun missing => ?_, fun x found => ?_⟩,
    fun f q x i s head => ?_, fun n st x t s found eic stream starved late escape new pool => ?_,
    fun task t v x s found only own watch late => ⟨execStallAbort_grant found only own watch late,
      execStallAbort_youngest found only own watch late⟩⟩
  · intro sh fault
    have step (v : State) (emit : emitJig s j errs = v) : exec (.jigEmission e jig errs) s = Next v :=
      (execJigEmission_only only engine num runs own calm).trans (congrArg Next emit)
    exact ⟨fun ended => step _ (emitJig_ended converting reading ended),
      fun i a next addr => step _ (emitJig_outside converting reading good next addr),
      fun a next addr => ⟨fun i b window => step _ (emitJig_ungranted converting reading good next addr window),
        fun window ready => step _ (emitJig_waits converting reading good next addr window ready),
        fun window ready => step _ (emitJig_ready converting reading good next addr window ready)⟩⟩
  · change execHandlePush n st s = _
    simp only [execHandlePush, missing]
  · change execHandlePush n st s = _
    simp only [execHandlePush, found]
    split <;> rfl
  · change execBufferRelease f q s = _
    simp only [execBufferRelease, head]
  · change execEscapeGrant n st s = _
    simp only [execEscapeGrant, found, grantDue_starved starved late escape new pool, if_true, grantEscape, eic, stream]

end Sys2Proof.Machine
end

section
/-! PROOFS. Light inputs: interlocks, trips, feeds and failover (R326-R334). -/

namespace Sys2Proof.Machine

/-! ### What noting a power leaves unchanged -/

@[simp] theorem State.raise_light (s : State) (code unit : Nat) (data : Bytes) : (s.raise code unit data).light = s.light := by
  obtain ⟨_, _, frame⟩ := s.raise_frame code unit data
  rw [frame]

/-- The headroom noted tells at most HEADROOM_LOW: it keeps the inputs, and every object but PATH_HEADROOM and EVENTS_DROPPED. -/
theorem noteHeadroom_kept (s : State) (path db : Nat) : (noteHeadroom s path db).light.inputs = s.light.inputs ∧
    ∀ k, k ≠ 0x7010_07 → k ≠ 0x1100_0C → (noteHeadroom s path db).num k = s.num k := by
  have noted (k : Nat) (h : k ≠ 0x7010_07) : (s.setNum 0x7010_07 db).num k = s.num k := State.num_setNum_other _ _ _ _ h
  unfold noteHeadroom
  dsimp only
  split
  case isTrue =>
    split
    · exact ⟨rfl, fun k h _ => noted k h⟩
    · exact ⟨by rw [State.raise_light]; rfl, fun k h h2 => (State.num_raise_other _ _ _ _ _ h2).trans (noted k h)⟩
  case isFalse =>
    split
    · exact ⟨rfl, fun k h _ => noted k h⟩
    · exact ⟨rfl, fun k h _ => noted k h⟩

theorem sampleHeadroom_kept (s : State) : (sampleHeadroom s).light.inputs = s.light.inputs ∧
    ∀ k, k ≠ 0x7010_07 → k ≠ 0x1100_0C → (sampleHeadroom s).num k = s.num k := by
  unfold sampleHeadroom
  dsimp only
  split
  case isTrue => exact ⟨rfl, fun k h _ => State.num_setNum_other _ _ _ _ h⟩
  case isFalse => exact noteHeadroom_kept _ _ _

theorem setFeeds_kept (s : State) (i : Fin 2) (mw : List (Nat × Nat)) : (setFeeds s i mw).light.inputs = s.light.inputs ∧
    (setFeeds s i mw).num 0x7000_06 = s.num 0x7000_06 := by
  have feed : 0x7000_06 ≠ feedOid i := by unfold feedOid; split <;> decide
  unfold setFeeds
  dsimp only
  split
  case isTrue => exact ⟨rfl, rfl⟩
  case isFalse =>
    obtain ⟨inputs, nums⟩ := sampleHeadroom_kept (s.setBlob (feedOid i)
      (mw.foldl (fun (b : Bytes) e => b.take (4 * e.1) ++ leBytes 4 e.2 ++ b.drop (4 * e.1 + 4)) (s.blob (feedOid i))))
    exact ⟨inputs, (nums _ (by decide) (by decide)).trans
      (congrArg Val.asNum (State.val_setVal_other _ _ _ _ feed))⟩

theorem inputOf_setFeed (s : State) (i j : Fin 2) (feed : Fin 8) (mw : Nat) : inputOf (setFeed s i feed mw) j = inputOf s j := by
  rw [inputOf, setFeed, (setFeeds_kept s i _).1, inputOf]

theorem lightEnable_setFeed (s : State) (i j : Fin 2) (feed : Fin 8) (mw : Nat) :
    lightEnable (setFeed s i feed mw) j = lightEnable s j := by
  simp only [lightEnable, inputOf_setFeed]

/-- A maximum noted writes its own object alone. -/
theorem noteMax_kept (s : State) (oid v : Nat) : (noteMax s oid v).light = s.light ∧
    ∀ k, k ≠ oid → (noteMax s oid v).num k = s.num k := by
  unfold noteMax State.record
  split
  · exact ⟨rfl, fun _ _ => rfl⟩
  · split
    · exact ⟨rfl, fun k h => State.num_setNum_other _ _ _ _ h⟩
    · split
      · exact ⟨rfl, fun k h => State.num_setNum_other _ _ _ _ h⟩
      · exact ⟨rfl, fun _ _ => rfl⟩

/-! ### Interlocks and trips (R333, R334) -/

theorem inputOf_modInput (s : State) (i : Fin 2) (g : LightInput → LightInput) : inputOf (modInput s i g) i = g (inputOf s i) := by
  simp [inputOf, modInput, modLight]

/-- Opening or closing the interlock leaves the light-enable line to the state of the input. -/
theorem lightEnable_modInput_closed (s : State) (i : Fin 2) (b : Bool) :
    lightEnable (modInput s i fun x => { x with closed := b }) i = lightEnable s i := by
  simp only [lightEnable, inputOf_modInput]

theorem tripInput_enabled {s : State} {i : Fin 2} (on : lightEnable s i = true) (feed cause : Nat) :
    tripInput s i feed cause = Tripped s i feed cause := by
  simp only [tripInput, on, Bool.not_true, Bool.false_eq_true, if_false]

theorem tripInput_disabled {s : State} {i : Fin 2} (off : lightEnable s i = false) (feed cause : Nat) :
    tripInput s i feed cause = s := by
  simp only [tripInput, off, Bool.not_false, if_true]

theorem execInterlockClosed_opened {i : Fin 2} {s : State} (opened : (inputOf s i).state = .opened) (lit : s.node ≠ .safe) :
    execInterlockClosed i s = Next (setInput (modInput s i fun x => { x with closed := true }) i .waiting) := by
  have lit' : (modInput s i fun x => { x with closed := true }).node ≠ .safe := lit
  simp only [execInterlockClosed, inputOf_modInput, opened, if_true, takeLight, lit', if_false]

theorem execInterlockClosed_stays {i : Fin 2} {s : State} (other : (inputOf s i).state ≠ .opened ∨ s.node = .safe) :
    execInterlockClosed i s = Next (modInput s i fun x => { x with closed := true }) := by
  refine congrArg Next ?_
  simp only [inputOf_modInput]
  rcases other with state | dark
  · exact if_neg state
  · split
    · exact if_pos dark
    · rfl

section ReturnPower

variable {i : Fin 2} {feed : Fin 8} {x rise : BitVec 32} {s : State}

/-- The limits are read as they stood: RETURN_MAX is another object. -/
theorem returnTrips_noteMax : returnTrips (noteMax s 0x7000_05 x.toNat) x.toNat rise.toNat = true ↔
    flt (s.num 0x7000_07) rise.toNat = true ∨ flt 0xC1600000 x.toNat = true := by
  rw [returnTrips, (noteMax_kept s 0x7000_05 x.toNat).2 0x7000_07 (by decide), Bool.or_eq_true]
  rfl

theorem lightEnable_noteMax : lightEnable (noteMax s 0x7000_05 x.toNat) i = lightEnable s i := by
  simp only [lightEnable, inputOf, (noteMax_kept s 0x7000_05 x.toNat).1]

theorem execReturnPowerTrip_trips (above : flt (s.num 0x7000_07) rise.toNat = true ∨ flt 0xC1600000 x.toNat = true)
    (on : lightEnable s i = true) :
    execReturnPowerTrip i feed ⟨x, rise⟩ s = Next (Tripped (noteMax s 0x7000_05 x.toNat) i feed.val 2) := by
  have trips := returnTrips_noteMax.2 above
  exact congrArg Next ((if_pos trips).trans (tripInput_enabled (lightEnable_noteMax.trans on) _ _))

theorem execReturnPowerTrip_notes
    (calm : ¬ (flt (s.num 0x7000_07) rise.toNat = true ∨ flt 0xC1600000 x.toNat = true) ∨ lightEnable s i = false) :
    execReturnPowerTrip i feed ⟨x, rise⟩ s = Next (noteMax s 0x7000_05 x.toNat) := by
  refine congrArg Next ?_
  rcases calm with below | off
  · exact if_neg fun trips => below (returnTrips_noteMax.1 trips)
  · split
    · exact tripInput_disabled (lightEnable_noteMax.trans off) _ _
    · rfl

end ReturnPower

/-! ### Feeds (R326-R328, R333) -/

section Feeds

variable {i : Fin 2} {feed : Fin 8} {x : BitVec 32} {s : State}

theorem execFeedOverPower_trips (on : lightEnable s i = true) (number : isNan x.toNat = false)
    (above : fle x.toNat 0x42AA0000 = false) :
    execFeedOverPower i feed x s = Next (Tripped (setFeed s i feed x.toNat) i feed.val 3) := by
  have above' : fle x.toNat mw85 = false := above
  have on' := (lightEnable_setFeed s i i feed x.toNat).trans on
  simp only [execFeedOverPower, number, above', Bool.or_self, Bool.false_eq_true, if_false, tripInput_enabled on']

theorem execFeedOverPower_within (within : fle x.toNat 0x42AA0000 = true) :
    execFeedOverPower i feed x s = Next (setFeed s i feed x.toNat) := by
  have within' : fle x.toNat mw85 = true := within
  simp only [execFeedOverPower, within', Bool.or_true, if_true]

theorem execFeedLow_weak (state : (inputOf s i).state = .ready ∨ (inputOf s i).state = .low)
    (weak : fle (s.num 0x7000_06) x.toNat = false) :
    execFeedLow i feed x s = Next (settleLight (setInput (modInput (setFeed s i feed x.toNat) i fun y =>
      { y with weak := withBit y.weak feed.val true }) i .low)) := by
  have least : (setFeed s i feed x.toNat).num 0x7000_06 = s.num 0x7000_06 := (setFeeds_kept s i _).2
  refine if_pos ⟨?_, ?_⟩
  · rw [inputOf_setFeed]
    exact state
  · rw [least, weak]
    rfl

theorem execFeedLow_other (ready : (inputOf s i).state ≠ .ready) (low : (inputOf s i).state ≠ .low) :
    execFeedLow i feed x s = Next (setFeed s i feed x.toNat) := by
  refine if_neg fun both => ?_
  rw [inputOf_setFeed] at both
  exact both.1.elim ready low

theorem execFeedValid_all {mw : Vector (BitVec 32) 8} {u : State}
    (fed : u = setFeeds s i ((List.finRange 8).map fun n => (n.val, mw[n].toNat)))
    (state : (inputOf u i).state = .waiting ∨ (inputOf u i).state = .low)
    (valid : ∀ p ∈ mw.toList, isNan p.toNat = false ∧ fle (u.num 0x7000_06) p.toNat = true ∧ fle p.toNat 0x42A00000 = true) :
    execFeedValid i mw s = Next (settleLight (setInput (modInput u i fun x => { x with weak := 0 }) i .ready)) := by
  have all : (mw.toList.all fun p => feedValid u p.toNat) = true := by
    refine List.all_eq_true.2 fun p mem => ?_
    obtain ⟨number, least, most⟩ := valid p mem
    rw [feedValid, number, least, mw80, most]
    rfl
  simp only [execFeedValid, ← fed, state, all, and_self, if_true]

end Feeds

/-! ### Failover of a bus source (R330) -/

theorem execSourceFailover_on {bus : Fin 64} {db : BitVec 32} {s : State}
    (on : s.light.amps[sourceIn (s.num 0x7010_02) bus.val].testBit bus.val = true) :
    execSourceFailover bus db s =
      (let u := settleLight (modLight s fun l =>
        { l with dead := withBit l.dead (64 * (sourceIn (s.num 0x7010_02) bus.val).val + bus.val) true })
       let d := u.drawNat (pathsOn u).length
       if pathsOn u = [] then Next u else Next (noteHeadroom d.2 ((pathsOn u).getD d.1 0) db.toNat)) := by
  simp only [execSourceFailover, sourceActive, on, if_true, List.isEmpty_iff]

/-- Settles O46: what is noted first leaves the inputs and the limits as they were, so each trip is judged on the state before. -/
theorem lightInputs : Obligations.LightInputs := by
  refine ⟨fun i s => ?_, fun i feed x rise s => ⟨execReturnPowerTrip_trips, execReturnPowerTrip_notes⟩,
    fun i feed x s => ⟨execFeedOverPower_trips, execFeedOverPower_within, execFeedLow_weak, execFeedLow_other⟩,
    fun i mw s => ?_, fun bus db s => ?_⟩
  · exact ⟨fun on => congrArg Next (tripInput_enabled ((lightEnable_modInput_closed s i false).trans on) _ _),
      fun off => congrArg Next (tripInput_disabled ((lightEnable_modInput_closed s i false).trans off) _ _),
      execInterlockClosed_opened, execInterlockClosed_stays⟩
  · intro u state valid
    change execFeedValid i mw s = _
    have fed : u = setFeeds s i ((List.finRange 8).map fun n => (n.val, mw[n].toNat)) := rfl
    exact execFeedValid_all fed state valid
  · exact ⟨fun on => ⟨fun none_ => (execSourceFailover_on on).trans (if_pos none_),
      fun some_ => (execSourceFailover_on on).trans (if_neg some_)⟩, fun off => if_neg (Bool.eq_false_iff.1 off)⟩

end Sys2Proof.Machine
end

section
/-! PROOFS. Lock loops, line identity and relocks (R336, R340-R346, R354). -/

namespace Sys2Proof.Machine

/-! ### A ring's loop written -/

/-- A heater code written leaves every facet. -/
@[simp] theorem facetN_setOut (s : State) (key code f : Nat) : facetN (setOut s key code) f = facetN s f := rfl

/-- Which rows carry logical rows is not read from the loops. -/
theorem carries_setRing (x : Facet) (row lane : Nat) (l : RingLoop) (p : Nat) : carries (setRing x row lane l) p = carries x p := rfl

theorem facetN_wrongLine (s : State) (f row lane line g : Nat) : facetN (wrongLine s f row lane line) g = facetN s g := by
  obtain ⟨_, _, frame⟩ := (s.inc (fam 0x7100_07 f)).raise_frame 0x7014 f (leBytes 2 row ++ leBytes 1 lane ++ leBytes 1 line)
  rw [wrongLine, frame]
  rfl

theorem loseLock_eq (s : State) (f : FacetId) (row lane ident line : Nat) :
    loseLock s f.val row lane ident line =
      (let t := modFacet s f.val fun x => setRing x row lane
        { ringLoop (facetN s f.val) row lane with loop := 3, ident := ident, line := line, rounds := 0 }
       if carries (facetN s f.val) row then startRelock t f.val 1 true else t) := by
  simp only [loseLock, facetN_modFacet, carries_setRing]

/-! ### Loss of lock (R336) -/

section LossOfLock

variable {f : FacetId} {row : Fin 520} {lane : Fin 128} {e0 e1 code : BitVec 10} {s : State}

/-- Two successive errors beyond LOCK_LIMIT, or a heater code at an end of its range. -/
theorem lost_iff : (decide (s.num 0x7020_03 < e0.toNat) && decide (s.num 0x7020_03 < e1.toNat) || codeAtEnd code.toNat) = true ↔
    s.num 0x7020_03 < e0.toNat ∧ s.num 0x7020_03 < e1.toNat ∨ code.toNat = 0 ∨ code.toNat = 1023 := by
  simp [codeAtEnd]

theorem execLossOfLock_lost (fit : (facetN s f.val).degraded = false)
    (closed : (ringLoop (facetN s f.val) row.val lane.val).loop = 2 ∨ (ringLoop (facetN s f.val) row.val lane.val).loop = 4)
    (lost : s.num 0x7020_03 < e0.toNat ∧ s.num 0x7020_03 < e1.toNat ∨ code.toNat = 0 ∨ code.toNat = 1023) :
    execLossOfLock f (row, lane) ⟨e0, e1, code⟩ s =
      Next (loseLock (setOut s (ringKey f.val row.val lane.val) code.toNat) f.val row.val lane.val 0 0) := by
  refine if_neg ?_
  rw [fit, lost_iff.2 lost]
  rcases closed with loop | loop <;> simp [loop]

theorem execLossOfLock_kept (kept : ¬ (s.num 0x7020_03 < e0.toNat ∧ s.num 0x7020_03 < e1.toNat ∨ code.toNat = 0 ∨
    code.toNat = 1023)) : execLossOfLock f (row, lane) ⟨e0, e1, code⟩ s = Next s := by
  refine if_pos ?_
  rw [Bool.eq_false_iff.2 fun lost => kept (lost_iff.1 lost)]
  simp

end LossOfLock

/-! ### Line identity (R340, R341) -/

theorem identify_own (own : Nat) (k : Fin 64) (v : Int) (same : k.val = own) : identify own [(k, v)] = .confirmed := by
  simp [identify, same]

theorem identify_noOwn {own : Nat} {levels : List (Fin 64 × Int)} (other : ∀ e ∈ levels, e.1.val ≠ own) :
    identify own levels = .unidentified := by
  have none_ : (levels.filter fun e => decide (own ≤ e.1.val + 2) && decide (e.1.val ≤ own + 2)).find?
      (fun e => e.1.val == own) = none := by
    refine List.find?_eq_none.2 fun e mem => ?_
    simpa using other e (List.mem_of_mem_filter mem)
  simp only [identify, none_]

section Identity

variable {f : FacetId} {row : Fin 520} {lane : Fin 128} {levels : List (Fin 64 × Int)} {code : BitVec 10} {s : State}
  (fit : (facetN s f.val).degraded = false) (locked : (facetN s f.val).lock = .locked) (calm : (facetN s f.val).dipping = false)
  (closed : (ringLoop (facetN s f.val) row.val lane.val).loop = 2)

include fit locked calm closed

theorem execIdentityScan_judged : execIdentityScan f row lane ⟨levels, code⟩ s =
    match identify (lane.val % 64) levels with
    | .confirmed => Next (confirmRing s f.val row.val lane.val code.toNat)
    | .wrongLine k => Next (recoverRing s f.val row.val lane.val 2 k.val)
    | .unidentified => Next (recoverRing s f.val row.val lane.val 3 0xFF) := by
  refine (if_neg (by simp [fit, locked, calm, closed])).trans ?_
  rfl

theorem execIdentityScan_confirmed (low : code.toNat ≠ 0) (high : code.toNat ≠ 1023)
    (own : identify (lane.val % 64) levels = .confirmed) : execIdentityScan f row lane ⟨levels, code⟩ s =
      Next (modFacet (setOut s (ringKey f.val row.val lane.val) code.toNat) f.val fun x =>
        setRing x row.val lane.val
          { ringLoop (facetN s f.val) row.val lane.val with loop := 2, ident := 1, rounds := 0 }) := by
  have inside : codeAtEnd code.toNat = false := by simp [codeAtEnd, low, high]
  rw [execIdentityScan_judged fit locked calm closed, own]
  simp only [confirmRing, inside, Bool.false_eq_true, if_false, closed]
  rfl

theorem execIdentityScan_unidentified (first : (ringLoop (facetN s f.val) row.val lane.val).rounds = 0)
    (other : ∀ e ∈ levels, e.1.val ≠ lane.val % 64) : execIdentityScan f row lane ⟨levels, code⟩ s =
      (let t := modFacet (setOut (wrongLine s f.val row.val lane.val 0xFF) (ringKey f.val row.val lane.val) 512) f.val fun x =>
        setRing x row.val lane.val
          { ringLoop (facetN s f.val) row.val lane.val with loop := 4, ident := 3, line := 63, rounds := 1 }
       Next (if carries (facetN s f.val) row.val then stopFacet t f.val else t)) := by
  rw [execIdentityScan_judged fit locked calm closed, identify_noOwn other]
  simp only [recoverRing, first, Nat.not_succ_le_zero, if_false, if_true, facetN_modFacet, carries_setRing, facetN_setOut,
    facetN_wrongLine, Nat.zero_add]
  rfl

end Identity

/-! ### The end of a relock (R342-R346) -/

/-- The recovered rings told, each with its wrong line or FFh. -/
def recovered (s : State) (f : Nat) (rings : List (Fin 520 × Fin 128 × Option (Fin 64))) : State :=
  rings.foldl (fun s r => (s.inc (fam 0x7100_07 f)).raise 0x7014 f
    (leBytes 2 r.1.val ++ leBytes 1 r.2.1.val ++ leBytes 1 ((r.2.2.map Fin.val).getD 0xFF))) s

theorem foldl_eq_recovered {f : Nat} {g : State → Fin 520 × Fin 128 × Option (Fin 64) → State}
    (line : ∀ s row lane l, g s (row, lane, some l) = wrongLine s f row.val lane.val l.val)
    (noLine : ∀ s row lane, g s (row, lane, none) = wrongLine s f row.val lane.val 0xFF)
    (s : State) (rings : List (Fin 520 × Fin 128 × Option (Fin 64))) : rings.foldl g s = recovered s f rings := by
  have step : g = fun s r => (s.inc (fam 0x7100_07 f)).raise 0x7014 f
      (leBytes 2 r.1.val ++ leBytes 1 r.2.1.val ++ leBytes 1 ((r.2.2.map Fin.val).getD 0xFF)) := by
    funext s r
    obtain ⟨row, lane, _ | l⟩ := r
    · exact noLine s row lane
    · exact line s row lane l
  rw [step, recovered]

section Relocks

variable {f : FacetId} {micros rounds : Nat} {acquired : List (Fin 520 × Fin 128 × BitVec 10)}
  {rings : List (Fin 520 × Fin 128 × Option (Fin 64))} {k : Relock} {s : State}
  (runs : (facetN s f.val).optic.relock = some k) (fit : (facetN s f.val).degraded = false)
  (dark : (facetN s f.val).lock ≠ .dark) (starting : (facetN s f.val).lock ≠ .starting)
  (calm : (facetN s f.val).dipping = false)

include runs fit dark starting calm

theorem execRelockComplete_unchecked (few : rounds ≤ 2) (due : micros ≤ s.num 0x7020_05 + 92 * rounds)
    (unchecked : k.checked = false) : execRelockComplete f micros rounds ⟨acquired, rings⟩ s = Next s := by
  simp only [execRelockComplete, runs]
  rw [if_neg (by simp [fit, dark, starting, calm]), if_pos ⟨few, by simpa using due, by simp [unchecked]⟩]

/-- A relock that is checked, or whose end is bad, tells its rings and ends. -/
theorem execRelockComplete_ends
    (ends : rounds ≤ 2 → micros ≤ s.num 0x7020_05 + 92 * rounds → k.checked = true) :
    execRelockComplete f micros rounds ⟨acquired, rings⟩ s =
      (let u := recovered s f.val rings
       if 2 < rounds then Next (relockFailed u f.val 5)
       else if decide (s.num 0x7020_05 + 92 * rounds < micros) then
        Next (relockFailed (u.drawNat 6).2 f.val ((u.drawNat 6).1 + 2))
       else if acquired.any fun a => codeAtEnd a.2.2.toNat then
        Next (loseEnds (takeCodes u f.val acquired) f.val acquired)
       else Next (relockDone (takeCodes u f.val acquired) f.val micros k.triggers)) := by
  have going : ¬ (rounds ≤ 2 ∧ (!decide (s.num 0x7020_05 + 92 * rounds < micros)) = true ∧ (!k.checked) = true) := by
    rintro ⟨few, due, unchecked⟩
    have due' : micros ≤ s.num 0x7020_05 + 92 * rounds := by simpa using due
    simp [ends few due'] at unchecked
  simp only [execRelockComplete, runs]
  rw [if_neg (by simp [fit, dark, starting, calm]), if_neg going,
    foldl_eq_recovered (f := f.val) (fun _ _ _ _ => rfl) (fun _ _ _ => rfl)]

theorem execRelockComplete_rounds (many : 2 < rounds) : execRelockComplete f micros rounds ⟨acquired, rings⟩ s =
    Next (relockFailed (recovered s f.val rings) f.val 5) := by
  rw [execRelockComplete_ends runs fit dark starting calm fun few => by omega]
  exact if_pos many

variable (few : rounds ≤ 2)

include few

theorem execRelockComplete_late (late : s.num 0x7020_05 + 92 * rounds < micros) :
    execRelockComplete f micros rounds ⟨acquired, rings⟩ s = Next (relockFailed ((recovered s f.val rings).drawNat 6).2 f.val
      (((recovered s f.val rings).drawNat 6).1 + 2)) := by
  rw [execRelockComplete_ends runs fit dark starting calm fun _ due => by omega]
  exact (if_neg (by omega)).trans (if_pos (decide_eq_true late))

theorem execRelockComplete_checked (due : micros ≤ s.num 0x7020_05 + 92 * rounds) (checked : k.checked = true) :
    execRelockComplete f micros rounds ⟨acquired, rings⟩ s =
      if acquired.any fun a => codeAtEnd a.2.2.toNat then
        Next (loseEnds (takeCodes (recovered s f.val rings) f.val acquired) f.val acquired)
      else Next (relockDone (takeCodes (recovered s f.val rings) f.val acquired) f.val micros k.triggers) := by
  rw [execRelockComplete_ends runs fit dark starting calm fun _ _ => checked]
  exact (if_neg (by omega)).trans (if_neg (by simpa using due))

end Relocks

theorem codeAtEnd_any {acquired : List (Fin 520 × Fin 128 × BitVec 10)} :
    (acquired.any fun a => codeAtEnd a.2.2.toNat) = true ↔ ∃ a ∈ acquired, a.2.2.toNat = 0 ∨ a.2.2.toNat = 1023 := by
  simp only [List.any_eq_true, codeAtEnd, Bool.or_eq_true, beq_iff_eq]

/-! ### The row check (R344, R354) -/

theorem mem_checkFails (x : Facet) (codes : List (Fin 12 × Fin 516 × Int)) (p : Nat) : p ∈ checkFails x codes ↔
    ∃ c ∈ codes, c.2.2 ≠ checkCode c.1.val c.2.1.val ∧ carrier x c.2.1.val = some p := by
  simp only [checkFails, List.mem_dedup, List.mem_filterMap, List.mem_filter, bne_iff_ne, and_assoc]

section RowCheck

variable {f : FacetId} {codes : List (Fin 12 × Fin 516 × Int)} {k : Relock} {s : State}

theorem execRowCheckComplete_relock (runs : (facetN s f.val).optic.relock = some k) (fit : (facetN s f.val).degraded = false)
    (dark : (facetN s f.val).lock ≠ .dark) (starting : (facetN s f.val).lock ≠ .starting)
    (calm : (facetN s f.val).dipping = false) : execRowCheckComplete f codes s = Next (relockCheck s f.val k codes) := by
  have dark' : ((facetN s f.val).lock == .dark) = false := beq_eq_false_iff_ne.2 dark
  simp only [execRowCheckComplete, runs, fit, dark', calm, starting, Bool.or_self, Bool.false_eq_true, if_false]

theorem judgeCheck_passed {x : Facet} {repeated : Bool} (clean : checkFails x codes = []) : judgeCheck x codes repeated = .passed :=
  if_pos clean

theorem judgeCheck_again {x : Facet} (bad : checkFails x codes ≠ []) (few : (checkFails x codes).length ≤ 2)
    (spares : (checkFails x codes).length ≤ freeSpares x) : judgeCheck x codes false = .again (checkFails x codes) :=
  (if_neg bad).trans (if_pos ⟨few, spares, rfl⟩)

theorem judgeCheck_failed {x : Facet} {repeated : Bool} (fails : 2 < (checkFails x codes).length ∨
    (checkFails x codes ≠ [] ∧ (freeSpares x < (checkFails x codes).length ∨ repeated = true))) :
    judgeCheck x codes repeated = .failed := by
  have bad : checkFails x codes ≠ [] := fails.elim (fun many none_ => by simp [none_] at many) And.left
  refine (if_neg bad).trans (if_neg fun h => ?_)
  obtain ⟨few, spares, once⟩ := h
  rcases fails with many | ⟨_, none_ | again⟩
  · omega
  · omega
  · simp [again] at once

end RowCheck

/-- Settles O47: each row by the case of its readings; the row check by the verdict on the rows whose codes differ. -/
theorem locksAndRelocks : Obligations.LocksAndRelocks := by
  refine ⟨fun f row lane e0 e1 code s => ⟨fun fit closed lost => ?_, execLossOfLock_kept⟩,
    fun f row lane levels code s fit locked calm => ⟨fun closed low high own => ?_, fun closed first other => ?_,
      fun k v => identify_own _ k v⟩,
    fun f micros rounds acquired rings k s runs fit dark starting calm =>
      ⟨execRelockComplete_rounds runs fit dark starting calm, execRelockComplete_late runs fit dark starting calm,
        fun few due checked inside => ?_, fun few due checked ends => ?_,
        execRelockComplete_unchecked runs fit dark starting calm⟩,
    fun f codes k s => ?_, mem_checkFails, fun f codes s none_ inPlace cal locked fit calm => ?_⟩
  · intro t
    refine (execLossOfLock_lost fit closed lost).trans (congrArg Next ?_)
    exact loseLock_eq _ f row.val lane.val 0 0
  · exact execIdentityScan_confirmed fit locked calm closed low high own
  · exact execIdentityScan_unidentified fit locked calm closed first other
  · have none_ : ¬ (acquired.any fun a => codeAtEnd a.2.2.toNat) = true := fun ends => by
      obtain ⟨a, mem, low | high⟩ := codeAtEnd_any.1 ends
      · exact (inside a mem).1 low
      · exact (inside a mem).2 high
    exact (execRelockComplete_checked runs fit dark starting calm few due checked).trans (if_neg none_)
  · exact (execRelockComplete_checked runs fit dark starting calm few due checked).trans (if_pos (codeAtEnd_any.2 ends))
  · intro x rows runs fit dark starting calm
    have step : exec (.rowCheckComplete f codes) s = _ := execRowCheckComplete_relock runs fit dark starting calm
    refine ⟨fun clean => ?_, fun bad few spares once => ?_, fun fails => ?_⟩
    · rw [step, relockCheck, judgeCheck_passed clean]
    · rw [step, relockCheck, once, judgeCheck_again bad few spares]
    · rw [step, relockCheck, judgeCheck_failed fails]
  · change execRowCheckComplete f codes s = _
    simp [execRowCheckComplete, none_, inPlace, cal, locked, fit, calm]

end Sys2Proof.Machine
end

section
/-! PROOFS. Calibration and the region heaters (R75, R338, R348-R354). -/

namespace Sys2Proof.Machine

/-! ### Regions (R338, R348) -/

section Regions

variable {f : FacetId} {r : Fin 16} {c : BitVec 32} {s u : State} (read : setRegion s f.val r.val c.toNat = u)

include read

theorem execThermalStop_within (near : fle (abs32 (sub32 c.toNat (u.num 0x7020_02))) (u.num 0x7020_04) = true) :
    execThermalStop f r c s = Next u := by
  simp only [execThermalStop, read]
  rw [near, Bool.or_true, Bool.true_or, Bool.true_or, if_pos rfl, ite_self]

theorem execThermalStop_stops (fit : (facetN u f.val).degraded = false) (dark : (facetN u f.val).lock ≠ .dark)
    (starting : (facetN u f.val).lock ≠ .starting) (lit : u.node ≠ .safe) (number : isNan c.toNat = false)
    (far : fle (abs32 (sub32 c.toNat (u.num 0x7020_02))) (u.num 0x7020_04) = false)
    (low : outTarget u (heaterKey f.val r.val) ≠ 0) (high : outTarget u (heaterKey f.val r.val) ≠ 16383) :
    execThermalStop f r c s = Next (startRelock ((List.range 16).foldl (fun s k => freeHeater s (heaterKey f.val k))
      ((u.inc (fam 0x7100_06 f.val)).raise 0x7017 f.val (leBytes 1 r.val ++ leBytes 4 (sub32 c.toNat (u.num 0x7020_02)))))
      f.val 2 false) := by
  simp only [execThermalStop, read]
  rw [if_neg (by simp [fit, dark, starting, lit]), if_neg (by simp [number, far, low, high])]

end Regions

/-! ### Calibration at start-up (R349) -/

section Startup

variable {f : FacetId} {rows : List (Fin 520)} {heaters : List (Fin 520 × Fin 128 × BitVec 10)}
  {codes : List (Fin 12 × Fin 516 × Int)} {k : Relock} {s : State}
  (runs : (facetN s f.val).optic.relock = some k) (fit : (facetN s f.val).degraded = false)
  (starting : (facetN s f.val).lock = .starting) (calm : (facetN s f.val).dipping = false) (once : k.checkRepeated = false)
  (node : s.node = .configuring) (lit : facetLit s f.val = true) (power : facetPowered s f.val = true)
  (there : s.power.lost.testBit f.val = false)

include runs fit starting calm once node lit power there

theorem execStartupCalibration_failed (n : Fin 2) : execStartupCalibration f (some n) ⟨rows, heaters, codes⟩ s =
    Next (startFailed (takeCodes s f.val heaters) f.val (n.val + 1)) := by
  simp only [execStartupCalibration, runs]
  rw [if_neg (by simp [fit, starting, calm, once, node, lit, power, there])]

theorem execStartupCalibration_found (inside : ∀ a ∈ heaters, a.2.2.toNat ≠ 0 ∧ a.2.2.toNat ≠ 1023) :
    execStartupCalibration f none ⟨rows, heaters, codes⟩ s =
      (let u := calibrated (retireRows (modFacet (takeCodes s f.val heaters) f.val fun x => allLoops x 2 1) f.val
        (rows.map Fin.val)) f.val
       if (facetN u f.val).degraded then Next (startFailed u f.val 3) else Next (startCheck u f.val k codes)) := by
  have none_ : ¬ (heaters.any fun a => codeAtEnd a.2.2.toNat) = true := fun ends => by
    obtain ⟨a, mem, low | high⟩ := codeAtEnd_any.1 ends
    · exact (inside a mem).1 low
    · exact (inside a mem).2 high
  simp only [execStartupCalibration, runs]
  rw [if_neg (by simp [fit, starting, calm, once, node, lit, power, there]), if_neg none_]

end Startup

/-! ### Rolling calibration (R350-R354) -/

section Rolling

variable {f : FacetId} {p : Nat} {s : State} (fit : (facetN s f.val).degraded = false) (locked : (facetN s f.val).lock = .locked)
  (calm : (facetN s f.val).dipping = false) (swapped : (facetN s f.val).swapping = false)
  (idle : (facetN s f.val).optic.cal = none)
  (due : s.num 0x7020_01 * 30720000 / max (calRows (facetN s f.val)).length 1 ≤ s.since (facetN s f.val).optic.calStart)
  (next : nextInCycle (calRows (facetN s f.val)) (facetN s f.val).optic.calLast = some p)

include fit locked calm swapped idle due next

theorem execRollingCalStart_spare (spare : 516 ≤ (rowAt (facetN s f.val) p).logical) :
    execRollingCalStart f s = Next (calStart s f.val p none) := by
  have alone : needsStandIn (facetN s f.val) p = false := decide_eq_false (Nat.not_lt.2 spare)
  simp only [execRollingCalStart, next, alone]
  rw [if_neg (by simp [fit, locked, calm, swapped, idle, due]), Bool.not_false, if_pos rfl]

variable (used : (rowAt (facetN s f.val) p).logical < 516)

include used

theorem execRollingCalStart_standIn {q : Nat} (found : lowestIdle (facetN s f.val) = some q) : execRollingCalStart f s =
    Next (calStart (modFacet s f.val fun y => { y with optic := { y.optic with calPaused := false } }) f.val p (some q)) := by
  have stands : needsStandIn (facetN s f.val) p = true := decide_eq_true used
  simp only [execRollingCalStart, next, stands, found]
  rw [if_neg (by simp [fit, locked, calm, swapped, idle, due]), Bool.not_true, if_neg Bool.false_ne_true]

theorem execRollingCalStart_pauses (none_ : lowestIdle (facetN s f.val) = none)
    (new : (facetN s f.val).optic.calPaused = false)
    (fits : ∀ q ∈ calRows (facetN s f.val), (rowAt (facetN s f.val) q).role ≠ .unfit) : execRollingCalStart f s =
      Next ((modFacet s f.val fun y => { y with optic := { y.optic with calPaused := true } }).raise 0x701A f.val []) := by
  have stands : needsStandIn (facetN s f.val) p = true := decide_eq_true used
  have unfit : (calRows (facetN s f.val)).filter (fun q => (rowAt (facetN s f.val) q).role == .unfit) = [] :=
    List.filter_eq_nil_iff.2 fun q mem => by simpa using fits q mem
  have nothing : nextInCycle [] (facetN s f.val).optic.calLast = none := rfl
  simp only [execRollingCalStart, next, stands, none_, unfit, nothing, new]
  rw [if_neg (by simp [fit, locked, calm, swapped, idle, due]), Bool.not_true, if_neg Bool.false_ne_true,
    if_neg Bool.false_ne_true]

end Rolling

theorem execStandInReload_due {f : FacetId} {c : CalRun} {s : State} (runs : (facetN s f.val).optic.cal = some c)
    (pending : c.pending = true) (late : 307200 ≤ s.since c.since) (idle : seqIdle s f.val = true)
    (free : (facetN s f.val).shadow = none) (passes : passesRun (facetN s f.val) = true)
    (swapped : (facetN s f.val).swapping = false) : execStandInReload f s =
      Next (settleRuns ((modFacet s f.val fun x => calReach (calArm x)).inc (fam 0x3700_03 f.val)) f.val) := by
  have late' : frameTicks ≤ s.since c.since := late
  simp only [execStandInReload, runs]
  rw [if_pos (by simp [pending, late', idle, free, passes, swapped])]

section Complete

variable {f : FacetId} {step : Option (Fin 6)} {nonZero : Bool} {codes : Vector (BitVec 10) 128} {c : CalRun} {s : State}
  (runs : (facetN s f.val).optic.cal = some c) (fit : (facetN s f.val).degraded = false) (effect : c.inEffect = true)
  (returning : c.returning = false) (locked : (facetN s f.val).lock = .locked) (calm : (facetN s f.val).dipping = false)

include runs fit effect returning locked calm

/-- A calibration passes as step 0; a failure of the step is told, and its second ends the calibration. -/
theorem execCalibrationComplete_step {n : Nat} {v : State}
    (code : step.elim (if nonZero && !needsStandIn (facetN s f.val) c.row then 6 else 0) (fun k => k.val + 1) = n)
    (ended : (if n = 0 then calPass s f.val c codes
      else if c.failedOnce then
        calFail ((s.inc (fam 0x7100_0A f.val)).raise 0x7019 f.val (leBytes 2 c.row ++ leBytes 1 n)) f.val c
      else modFacet ((s.inc (fam 0x7100_0A f.val)).raise 0x7019 f.val (leBytes 2 c.row ++ leBytes 1 n)) f.val fun x =>
        { x with optic := { x.optic with cal := some { c with failedOnce := true, since := s.up } } }) = v)
    (rolling : (facetN v f.val).optic.inPlace = false) :
    execCalibrationComplete f step nonZero codes s = Next v := by
  have up : ((s.inc (fam 0x7100_0A f.val)).raise 0x7019 f.val (leBytes 2 c.row ++ leBytes 1 n)).up = s.up := by
    obtain ⟨_, _, frame⟩ := (s.inc (fam 0x7100_0A f.val)).raise_frame 0x7019 f.val (leBytes 2 c.row ++ leBytes 1 n)
    rw [frame]
    rfl
  rw [← up] at ended
  cases step with
  | none =>
    obtain rfl : (if nonZero && !needsStandIn (facetN s f.val) c.row then 6 else 0) = n := code
    simp only [execCalibrationComplete, runs]
    rw [if_neg (by simp [fit, effect, returning, locked, calm])]
    rw [ended, if_neg (by simp [rolling])]
  | some k =>
    obtain rfl : k.val + 1 = n := code
    simp only [execCalibrationComplete, runs]
    rw [if_neg (by simp [fit, effect, returning, locked, calm])]
    rw [ended, if_neg (by simp [rolling])]

theorem execCalibrationComplete_passed (none_ : step = none)
    (fitted : nonZero = false ∨ (rowAt (facetN s f.val) c.row).logical < 516)
    (rolling : (facetN (calPass s f.val c codes) f.val).optic.inPlace = false) :
    execCalibrationComplete f step nonZero codes s = Next (calPass s f.val c codes) := by
  refine execCalibrationComplete_step runs fit effect returning locked calm (n := 0) ?_ (if_pos rfl) rolling
  rw [none_]
  refine if_neg ?_
  rcases fitted with clean | used
  · simp [clean]
  · simp [needsStandIn, used]

end Complete

/-- The step that a failed calibration is told with: step 6 where a spare's codes are not all zero. -/
theorem calibrationStep_failed {f : FacetId} {step : Option (Fin 6)} {nonZero : Bool} {c : CalRun} {s : State} {k : Fin 6}
    (fails : step = some k ∨ (step = none ∧ nonZero = true ∧ 516 ≤ (rowAt (facetN s f.val) c.row).logical ∧ k = 5)) :
    step.elim (if nonZero && !needsStandIn (facetN s f.val) c.row then 6 else 0) (fun k => k.val + 1) = k.val + 1 := by
  rcases fails with same | ⟨none_, marked, spare, last⟩
  · rw [same, Option.elim_some]
  · have alone : needsStandIn (facetN s f.val) c.row = false := decide_eq_false (Nat.not_lt.2 spare)
    rw [none_, Option.elim_none, marked, alone, last]
    rfl

/-! ### Overdue calibration (R75, R354) -/

section Overdue

variable {f : FacetId} {s : State} (fit : (facetN s f.val).degraded = false) (locked : (facetN s f.val).lock = .locked)

include fit locked

theorem execCalOverdue_paused (paused : (facetN s f.val).optic.calPaused = true)
    (new : (facetN s f.val).optic.overdueRaised = false) (old : 3 * s.num 0x7020_01 ≤ 2 * oldestCal s f.val)
    (young : oldestCal s f.val < 2 * s.num 0x7020_01) : execCalOverdue f s = Next ((modFacet s f.val fun y =>
      { y with optic := { y.optic with overdueRaised := true } }).raise 0x701B f.val (leBytes 4 (oldestCal s f.val))) := by
  simp only [execCalOverdue]
  rw [if_neg (by simp [fit, locked]), if_neg fun h => Nat.not_lt.2 h.1 young, if_pos ⟨paused, old, by simp [new]⟩]

theorem execCalOverdue_inPlace (told : (facetN s f.val).optic.calPaused = false ∨ (facetN s f.val).optic.overdueRaised = true)
    (old : 2 * s.num 0x7020_01 ≤ oldestCal s f.val) (rolling : (facetN s f.val).optic.inPlace = false) : execCalOverdue f s =
      Next (inPlaceDone (saveRowMap (modFacet (stopFacet s f.val) f.val fun y =>
        let y := abandonCal y
        { y with optic := { y.optic with inPlace := true } }) f.val) f.val) := by
  simp only [execCalOverdue]
  rw [if_neg (by simp [fit, locked]), if_pos ⟨old, by simp [rolling]⟩, if_neg (by rcases told with h | h <;> simp [h])]

end Overdue

/-- Settles O48: each row by the state of the facet's locks and of its calibration. -/
theorem calibrationAndHeaters : Obligations.CalibrationAndHeaters := by
  refine ⟨fun f r c s => ⟨execThermalStop_stops rfl, execThermalStop_within rfl, rfl⟩,
    fun f failed rows heaters codes k s runs fit starting calm once node lit power there => ?_,
    fun f p s fit locked calm swapped idle due next => ⟨execRollingCalStart_spare fit locked calm swapped idle due next,
      fun q used => execRollingCalStart_standIn fit locked calm swapped idle due next used,
      execRollingCalStart_pauses fit locked calm swapped idle due next⟩,
    fun f c s => execStandInReload_due,
    fun f step nonZero codes c s runs fit effect returning locked calm rolling => ?_,
    fun f s fit locked => ⟨execCalOverdue_paused fit locked, execCalOverdue_inPlace fit locked⟩⟩
  · refine ⟨fun n failed_ => ?_, fun none_ inside => ?_⟩
    · subst failed_
      exact execStartupCalibration_failed runs fit starting calm once node lit power there n
    · subst none_
      have found := execStartupCalibration_found (rows := rows) (codes := codes) runs fit starting calm once node lit power there
        inside
      refine ⟨fun degraded => found.trans (if_pos degraded), fun fits clean => (found.trans (if_neg (by simp [fits]))).trans ?_,
        fun fits many => (found.trans (if_neg (by simp [fits]))).trans ?_⟩
      · rw [startCheck, judgeCheck_passed clean]
      · rw [startCheck, judgeCheck_failed (.inl many)]
        rfl
  · have complete {n : Nat} {v : State} := execCalibrationComplete_step (n := n) (v := v) (step := step) (nonZero := nonZero)
      (codes := codes) runs fit effect returning locked calm
    refine ⟨execCalibrationComplete_passed runs fit effect returning locked calm, fun k fails => ?_⟩
    intro u
    refine ⟨fun first => ?_, fun again ended => ?_⟩
    · refine complete (calibrationStep_failed fails) ((if_neg (Nat.succ_ne_zero _)).trans (if_neg (by simp [first]))) ?_
      rw [facetN_modFacet]
      have kept : facetN u f.val = facetN s f.val := facetN_of_facets raise_facets
      rw [kept]
      exact rolling
    · exact complete (calibrationStep_failed fails) ((if_neg (Nat.succ_ne_zero _)).trans (if_pos again)) ended

end Sys2Proof.Machine
end

section
/-! PROOFS. Memory units and the patrol scrub (R364-R371, R377, R378, R504). -/

namespace Sys2Proof.Machine

/-! ### Retirement and training (R368-R371, R504) -/

section Retirement

variable {n : PairId} {unit : Nat} {s : State} (exists_ : unit < 549317) (free : s.maint.retiring[n] = none)
  (waits : unit ∈ s.maint.waiting[n])

include exists_ free waits

theorem execUnitRetireStart_spare (spares : s.num (fam 0x4500_05 n.val) ≠ 0) :
    execUnitRetireStart n unit s =
      (let left := s.num (fam 0x4500_05 n.val)
       let u := (modMaint s fun m => { m with retiring := m.retiring.set n (some (unit, 16384 - left)),
                                              waiting := m.waiting.set n ((m.waiting[n]).erase unit) }).setSaved
        (fam 0x4500_05 n.val) (left - 1)
       Next (if left = 1025 then u.raise 0x4052 n.val (leBytes 1 0 ++ leBytes 1 n.val ++ leBytes 2 1024) else u)) := by
  have last : (s.num (fam 0x4500_05 n.val) - 1 = 1024) = (s.num (fam 0x4500_05 n.val) = 1025) := propext (by omega)
  simp only [execUnitRetireStart]
  rw [if_neg (Nat.not_le.2 exists_), if_neg (by rw [free, List.contains_iff_mem.2 waits]; decide), if_neg spares]
  simp only [last]

theorem execUnitRetireStart_none (spares : s.num (fam 0x4500_05 n.val) = 0) :
    execUnitRetireStart n unit s = Next (qualifyUnit (modMaint s fun m =>
      { m with waiting := m.waiting.set n ((m.waiting[n]).erase unit) }) n.val unit) := by
  simp only [execUnitRetireStart]
  rw [if_neg (Nat.not_le.2 exists_), if_neg (by rw [free, List.contains_iff_mem.2 waits]; decide), if_pos spares]

end Retirement

/-- A stack whose rails are good, out of service, in a device that is not Sealed, takes the result of its training. -/
theorem execHbmTrainingDone_eq {n : PairId} {lanes : Nat} {s : State} (rails : ∀ r ∈ stackRails n.val, railGood s r = true)
    (out : s.unitUp 3 n.val = false) (node : s.node ≠ .sealed) (trained : Bool) :
    execHbmTrainingDone n trained lanes s =
      (let u := if lanes = 0 then s else s.addSaved (fam 0x4500_09 n.val) lanes
       if trained then Next (u.setUnits 3 (withBit (u.num 0x0020_03) n.val true))
       else
        let v := u.faultDegraded.raise 0xB011 n.val []
        Next ((pairFacets n.val).foldl (fun s f => modFacet s f fun (x : Facet) => { x with degraded := true })
          (loseFacets v ((pairFacets n.val).filter fun f => v.facetUp f)))) := by
  have good : (stackRails n.val).all (railGood s) = true := List.all_eq_true.2 rails
  simp only [execHbmTrainingDone]
  rw [if_neg (by simp [good, out, node])]

/-! ### The patrol scrub (R377, R378) -/

/-- The place of the scrub is no error. -/
theorem scrubNext_errs (s : State) (m : MemKind) (unit : Nat) : (scrubNext s m unit).maint.errs = s.maint.errs := by
  cases m with
  | hbm =>
    simp only [scrubNext]
    split <;> rfl
  | shelf =>
    simp only [scrubNext]
    split <;> rfl
  | _ => rfl

/-- What the scrub does with a word: nothing to a clean one, the correction and the notes of the others. -/
def scrubEffect (u : State) (m : MemKind) (unit address : Nat) : ReadOutcome → Host.Outcome State Fault Refusal
  | .clean => Next u
  | .corrected k => Next (noteCorrected (dropErr u (memBase m unit + address)) m unit address k.val true)
  | .reread => Next (noteReread (dropErr u (memBase m unit + address)) m unit address)
  | .uncorrectable =>
    let bad := addErr (dropErr u (memBase m unit + address)) (memBase m unit + address) .uncorrectable
    match m with
    | .hbm => Next (scrubHbm bad unit address)
    | .shelf => Next (noteShelfBad bad unit address 5 0xFFFF)
    | _ => Next (scrubAcc bad unit address)

section Scrub

variable {m : MemKind} {unit : Fin 32} {address : Nat} {o : ReadOutcome} {s : State}
  (ok : scrubOk m unit.val address o = true)

include ok

theorem execPatrolScrub_elsewhere (other : m = .staging ∨ m = .vectorStore ∨ address ≠ scrubAt s m unit.val) :
    execPatrolScrub m unit address o s = Next s := by
  have skip : (!scrubbed m || address != scrubAt s m unit.val) = true := by
    rcases other with rfl | rfl | moved
    · rfl
    · rfl
    · rw [bne_iff_ne.2 moved, Bool.or_true]
  simp only [execPatrolScrub, ok, skip, Bool.not_true, Bool.false_eq_true, if_false, if_true]

variable (staging : m ≠ .staging) (store : m ≠ .vectorStore) (here : address = scrubAt s m unit.val)

include staging store here

/-- The scrub at its place: what it finds in the word is the older of two errors, else what the word has come to. -/
theorem execPatrolScrub_found {seen : ReadOutcome}
    (found : seen = (let old := sparseGet (fun _ => ReadOutcome.clean) s.maint.errs (memBase m unit.val + address)
      if old = .uncorrectable ∨ o = .clean then old else o)) :
    execPatrolScrub m unit address o s = scrubEffect (scrubNext s m unit.val) m unit.val address seen := by
  have place : (!scrubbed m || address != scrubAt s m unit.val) = false := by
    rw [here, bne_self_eq_false, Bool.or_false]
    cases m with
    | staging => exact absurd rfl staging
    | vectorStore => exact absurd rfl store
    | _ => rfl
  rw [← scrubNext_errs s m unit.val] at found
  subst found
  simp only [execPatrolScrub, ok, place, Bool.not_true, Bool.false_eq_true, if_false]
  split <;> rename_i same <;> rw [same]
  case h_4 => cases m <;> rfl
  all_goals rfl

end Scrub

theorem scrubNext_hbm_on {unit : Nat} {s : State} (more : s.num (fam 0x4500_07 unit) + 32 < 36000000000) :
    scrubNext s .hbm unit = s.setNum (fam 0x4500_07 unit) (s.num (fam 0x4500_07 unit) + 32) := by
  have on : decide (memBytes .hbm ≤ scrubAt s .hbm unit + wordBytes .hbm) = false := decide_eq_false (Nat.not_le.2 more)
  simp only [scrubNext, on, Bool.false_eq_true, if_false]
  rfl

theorem scrubNext_hbm_wraps {unit : Nat} {s : State} (last : s.num (fam 0x4500_07 unit) + 32 = 36000000000) :
    scrubNext s .hbm unit = (s.setNum (fam 0x4500_07 unit) 0).inc (fam 0x4500_06 unit) := by
  have wraps : decide (memBytes .hbm ≤ scrubAt s .hbm unit + wordBytes .hbm) = true := decide_eq_true (Nat.le_of_eq last.symm)
  simp only [scrubNext, wraps, if_true]

/-- Settles O49: a unit by the spares left, a scrubbed word by what it is found to hold. -/
theorem memoryUnitsAndScrub : Obligations.MemoryUnitsAndScrub := by
  refine ⟨fun n unit s => ⟨fun none_ => if_pos none_, execUnitRetireStart_spare, execUnitRetireStart_none⟩,
    fun n unit spare r retiring => ?_, fun n s => rfl, fun m unit address o s => ?_,
    fun unit s _ => ⟨scrubNext_hbm_on, scrubNext_hbm_wraps⟩,
    fun n lanes s rails out node => ⟨execHbmTrainingDone_eq rails out node true, execHbmTrainingDone_eq rails out node false⟩⟩
  · change execUnitRetired n r = _
    simp only [execUnitRetired, retiring] <;> rfl
  · intro run w old seen u fixed bad
    refine ⟨fun bad_ => if_pos (by simp [bad_]), execPatrolScrub_elsewhere, fun ok staging store here => ?_⟩
    have step : run = _ := execPatrolScrub_found ok staging store here (seen := seen) rfl
    refine ⟨fun clean => ?_, fun k corrected => ?_, fun reread => ?_, fun lost => ?_⟩
    · rw [step, clean]
      rfl
    · rw [step, corrected]
      refine ⟨fun kind => ?_, fun kind => ?_, fun kind => ?_⟩ <;> subst kind <;> rfl
    · rw [step, reread]
      rfl
    · rw [step, lost]
      refine ⟨fun kind => ?_, fun kind => ?_, fun kind => ?_⟩ <;> subst kind <;> rfl

end Sys2Proof.Machine
end

section
/-! PROOFS. Rails, throttling, loss of power and dips (R493, R497, R498, R511-R528, R601). -/

namespace Sys2Proof.Machine

/-! ### Throttling (R525) -/

section Throttling

variable {g : Fin 6} {unit : Fin 8} {t : Throttle} {s : State} (only : s.power.throttles = [t]) (group : t.group = g.val)
  (same : t.unit = unit.val)

include only group same

theorem modPower_erase_only :
    modPower s (fun p => { p with throttles := p.throttles.erase t }) = modPower s fun p => { p with throttles := [] } := by
  simp [modPower, only]

theorem execThrottleEnforced_due (new : t.enforced = false) (due : stampBefore s.now t.enforceAt = false) :
    execThrottleEnforced g unit s =
      (let u := modPower s fun p => { p with throttles := [] }
       if stillHot u g.val unit.val then
        let v := setCaps (modPower u fun p => { p with throttles := [{ t with enforced := true }] })
        let v := recertify v ((facetsIn (governs g.val unit.val)).map (tasksOn v)).flatten.dedup 4 false true
        Next (settleAllFacets (v.raise 0x8022 0xFF (leBytes 4 (governs g.val unit.val) ++ leBytes 1 (v.num 0x8400_04))))
       else Next u) := by
  have found : s.power.throttles.find? (fun t =>
      t.group == g.val && t.unit == unit.val && !t.enforced && !stampBefore s.now t.enforceAt) = some t := by
    simp [only, group, same, new, due]
  have first : modPower (modPower s fun p => { p with throttles := [] }) (fun p =>
        { p with throttles := p.throttles ++ [{ t with enforced := true }] }) =
      modPower (modPower s fun p => { p with throttles := [] }) fun p => { p with throttles := [{ t with enforced := true }] } := rfl
  simp only [execThrottleEnforced, found, modPower_erase_only only group same, group, same, first]
  cases hot : stillHot (modPower s fun p => { p with throttles := [] }) g.val unit.val
  · rfl
  · rfl

theorem execThrottleReleased_cool (enforced : t.enforced = true) (cool : s.num 0x8400_01 ≤ t.cool) :
    execThrottleReleased g unit s = Next ((setCaps (modPower s fun p => { p with throttles := [] })).raise 0x8023 0xFF
      (leBytes 4 (governs g.val unit.val))) := by
  have found : s.power.throttles.find? (fun t =>
      t.group == g.val && t.unit == unit.val && t.enforced && s.num 0x8400_01 ≤ t.cool) = some t := by
    simp [only, group, same, enforced, cool]
  simp only [execThrottleReleased, found, modPower_erase_only only group same, group, same]

end Throttling

/-- Settles O50: a rail that rises, the only request of a unit, a stack's report. -/
theorem railsAndThrottling : Obligations.RailsAndThrottling := by
  refine ⟨fun r fails volts s rises => ⟨if_pos (.inl rises), if_pos rises⟩,
    fun g unit t s only group same => ⟨fun new due cold => ?_, fun new due hot => ?_, execThrottleReleased_cool only group same⟩,
    fun n c s lit runs => if_neg fun h => h.elim lit (by simp [runs])⟩
  · exact (execThrottleEnforced_due only group same new due).trans (if_neg (by simp [cold]))
  · exact (execThrottleEnforced_due only group same new due).trans (if_pos hot)

/-! ### Loss of power (R493, R516, R601) -/

theorem execPowerFail_held {s : State} (high : s.power.failLow = false) (held : s.sysHeld = true) :
    execPowerFail s = Next (modPower s fun p => { p with failLow := true }) := by
  simp only [execPowerFail, high, held, Bool.false_eq_true, if_false, if_true]

theorem execPowerFail_sealed {s : State} (high : s.power.failLow = false) (runs : s.sysHeld = false) (node : s.node = .sealed) :
    execPowerFail s = Next { modPower s (fun p => { p with failLow := true, failing := true }) with sysHeld := true } := by
  rw [execPowerFail, if_neg (by simp [high]), if_neg (by simp [runs]), if_pos node]

theorem execPowerFail_running {s : State} (high : s.power.failLow = false) (runs : s.sysHeld = false) (node : s.node ≠ .sealed) :
    execPowerFail s =
      (let u := modPower { s with quiesce := 0 } fun p => { p with failLow := true, failing := true, failOwed := true }
       let u := settleLight ((List.range 32).foldl stopFacet (u.tasks.foldl (fun s t => abortTask s t.num .held 256) u))
       let u := ((jAppend u (mkEntry 11 0 1 0 (leBytes 8 s.stamp))).getD u).drawNat 1001
       Next { saveLife (((u.2.addSaved 0xB200_01 1).setSaved 0xB200_02 s.stamp).setSaved 0xB200_03 u.1) with sysHeld := true }) := by
  rw [execPowerFail, if_neg (by simp [high]), if_neg (by simp [runs]), if_neg node]

theorem execPowerReturn_low {s : State} (low : s.power.failLow = true) : execPowerReturn s =
    (let u := modPower s fun p => { p with failLow := false }
     Next (if s.power.failing then restartDevice u 2 else u)) := by
  rw [execPowerReturn, if_neg (by simp [low])]
  split <;> rfl

/-! ### Dips (R497, R498, R518) -/

theorem dipPasses_modPower (s : State) (g : Power → Power) (n : Nat) : dipPasses (modPower s g) n = dipPasses s n := rfl

/-- The state with the dipping rail marked, for rails alone. -/
def railDips (s : State) : Supply → State
  | .rail r => (setRail s r.val 3).inc (fam 0x8100_04 r.val)
  | _ => s

theorem execSupplyDip_begins {v : Supply} {s : State} (power : s.power.failing = false) (lit : s.node ≠ .safe)
    (watched : railWatched s v = true) (new : s.dipping (supplyNum v) = false) : execSupplyDip v s =
      (let u := railDips s v
       Next ((dipPasses u (supplyNum v)).foldl (fun s f =>
        let t := modFacet (stopFacet s f) f fun (x : Facet) => { x with dipping := true }
        if supplyNum v = 39 ∨ supplyNum v = 40 ∨ loopsHeld u f = true then t else modFacet t f holdLoops)
        (modPower u fun p => { p with dips := p.dips ++ [(supplyNum v, u.up)] }))) := by
  have going : ¬ (s.power.failing = true ∨ s.node = .safe ∨ (!railWatched s v) = true ∨ s.dipping (supplyNum v) = true) := by
    simp [power, lit, watched, new]
  have holds (u : State) (f : Nat) (t w : State) : (if (dipLoops (supplyNum v) && !loopsHeld u f) = true then w else t) =
      if supplyNum v = 39 ∨ supplyNum v = 40 ∨ loopsHeld u f = true then t else w := by
    by_cases lc0 : supplyNum v = 39
    · simp [dipLoops, lc0]
    · by_cases lc1 : supplyNum v = 40
      · simp [dipLoops, lc1]
      · cases held : loopsHeld u f <;> simp [dipLoops, lc0, lc1]
  cases v <;> simp only [execSupplyDip, if_neg going, holds] <;> rfl

/-- The state with the rail good again, for rails alone. -/
def railRises (s : State) : Supply → State
  | .rail r => setRail s r.val 2
  | _ => s

theorem execDipEnd_ends {v : Supply} {micros : Nat} {lost : List (FacetId × Fin 520 × Fin 128)} {s : State}
    (power : s.power.failing = false) (dips : s.dipping (supplyNum v) = true) : execDipEnd v micros lost s =
      Next (modPower (releaseAcks (dipOver (((railRises s v).inc 0xB200_04).raiseTo 0xB200_05 (micros % 2 ^ 32)).faultRetried
        (supplyNum v) (ceilDiv (micros * 768) 25) lost)) fun p => { p with long := p.long.filter fun k => k != supplyNum v }) := by
  have going : ¬ (s.power.failing = true ∨ (!s.dipping (supplyNum v)) = true) := by simp [power, dips]
  cases v <;> simp only [execDipEnd, if_neg going] <;> rfl

theorem execLongDip_late {v : Supply} {d : Nat × Nat} {s : State} (power : s.power.failing = false)
    (found : (s.power.dips.find? fun d => d.1 == supplyNum v) = some d) (new : supplyNum v ∉ s.power.long)
    (late : s.num 0xB200_08 ≤ s.since d.2 * 25 / 768) : execLongDip v s =
      (let u := ((modPower s fun p => { p with long := p.long ++ [supplyNum v] }).inc 0xB200_06).raise 0xB031 0xFF
        (leBytes 1 (supplyNum v) ++ leBytes 4 (s.since d.2 * 25 / 768))
       let on := ((dipPasses u (supplyNum v)).map (tasksOn u)).flatten.dedup
       let w := ((on.filterMap (findTask u)).filter fun t => t.cls == .fill).foldl (fun s t => abortTask s t.num .replay 256) u
       Next (settleAllFacets (recertify w on 2 false false))) := by
  have new' : ¬ s.power.long.contains (supplyNum v) = true := fun h => new (List.contains_iff_mem.1 h)
  simp only [execLongDip, found]
  rw [if_neg]
  rintro (failing | long | short)
  · simp [power] at failing
  · exact new' long
  · omega

theorem execResetLevelCrossing_failing {v : Supply} {s : State} (watched : railWatched s v = true)
    (power : s.power.failing = true) : execResetLevelCrossing v s = Next (s.inc 0xB200_07) := by
  have failing : (s.inc 0xB200_07).power.failing = true := power
  simp only [execResetLevelCrossing]
  rw [if_neg (by simp [watched]), if_pos failing]

/-- A crossing outside the power-fail sequence ends the dip of its supply, and its dies are lost. -/
def crossed (w : State) : Supply → State
  | .rail r =>
    if r.val < 2 then restartDevice w 2
    else if r.val < 4 then { restartDevice w 4 with ring := { (restartDevice w 4).ring with remoteReset := 0 } }
    else loseRail (setRail w r.val 4) r.val
  | .digital f => loseDomain w f.val true
  | .analogue f => loseDomain w f.val false

theorem execResetLevelCrossing_crossed {v : Supply} {s : State} (watched : railWatched s v = true)
    (power : s.power.failing = false) :
    execResetLevelCrossing v s = Next (crossed (dipOver (s.inc 0xB200_07) (supplyNum v) 0 []) v) := by
  have running : ¬ (s.inc 0xB200_07).power.failing = true := by simp [power]
  have seen : ¬ (!railWatched s v) = true := by simp [watched]
  cases v with
  | rail r =>
    simp only [execResetLevelCrossing]
    rw [if_neg seen, if_neg running, crossed]
    split
    · rfl
    · split <;> rfl
  | digital f =>
    simp only [execResetLevelCrossing]
    rw [if_neg seen, if_neg running, crossed]
  | analogue f =>
    simp only [execResetLevelCrossing]
    rw [if_neg seen, if_neg running, crossed]

/-- Settles O52: each row outside what stops it, with its supply's case. -/
theorem powerLossAndDips : Obligations.PowerLossAndDips := by
  refine ⟨fun s => execPowerFail_held, fun s high runs => ⟨execPowerFail_sealed high runs, execPowerFail_running high runs⟩,
    fun s => execPowerReturn_low, fun v s power lit watched new => ?_, fun v micros lost s power dips => ?_,
    fun v d s power found new late => execLongDip_late power found new late,
    fun v s watched => ⟨execResetLevelCrossing_failing watched, fun power => ?_⟩⟩
  · refine (execSupplyDip_begins power lit watched new).trans ?_
    cases v <;> rfl
  · refine (execDipEnd_ends power dips).trans ?_
    cases v <;> rfl
  · have step : exec (.resetLevelCrossing v) s = _ := execResetLevelCrossing_crossed watched power
    refine ⟨fun r rail low => ?_, fun r rail mid high => ?_, fun r rail high => ?_, fun f digital => ?_, fun f analogue => ?_⟩
    · rw [step, rail, crossed, if_pos low]
    · rw [step, rail, crossed, if_neg (Nat.not_lt.2 mid), if_pos high]
    · rw [step, rail, crossed, if_neg (by omega), if_neg (Nat.not_lt.2 high)]
    · rw [step, digital, crossed]
    · rw [step, analogue, crossed]

end Sys2Proof.Machine
end

section
/-! PROOFS. Resets, Safe, saved hours, trim images and relocation (R39, R413, R429, R434, R486, R499, R553, R597, R600). -/

namespace Sys2Proof.Machine

/-! ### A restart (R413, R429, R600) -/

/-- The restore of a restarted state writes its objects and events alone: the reset cause, the port mask, and what it restores. -/
theorem restore_frame (f : State) (kept : Nat → Bool) (cause : Nat) (wf : sparseWf dfltOf f.objs = true) :
    ∃ o e, refreshPorts ((applySaved f kept).setNum 0x1000_05 cause) = { f with objs := o, events := e } ∧
      (refreshPorts ((applySaved f kept).setNum 0x1000_05 cause)).num 0x1000_05 = cause ∧
      ∀ k, kept k = false → k ≠ 0x1000_05 → k ≠ 0x1100_0C → k ≠ 0x0020_05 →
        (refreshPorts ((applySaved f kept).setNum 0x1000_05 cause)).num k = f.num k := by
  obtain ⟨o, restored, owf, others⟩ := applySaved_frame f kept wf
  rw [restored]
  obtain ⟨o', e', frame, same⟩ := setUnits_frame (({ f with objs := o } : State).setNum 0x1000_05 cause) 5
    (((List.finRange 4).map fun p =>
        if peerUp (({ f with objs := o } : State).setNum 0x1000_05 cause) p then 2 ^ p.val else 0).foldl (· + ·) 0 +
      ((List.finRange 2).map fun p =>
        if portUp (({ f with objs := o } : State).setNum 0x1000_05 cause) p then 2 ^ (4 + p.val) else 0).foldl (· + ·) 0)
  refine ⟨o', e', frame, (same 0x1000_05 (by decide) (by decide)).trans (State.num_setNum_self _ _ _ owf),
    fun k free cause_ dropped ports => (same k dropped ports).trans ((State.num_setNum_other _ _ _ _ cause_).trans ?_)⟩
  exact congrArg Val.asNum (others k free)

/-- The states of the rails are kept over a restart, and the restore does not write them. -/
theorem rail_kept : ∀ r : Fin 41, keptOid false (fam 0x8100_01 r.val) = true ∧
    (fam 0x8100_01 r.val / 256 == 0x1100) = false ∧ fam 0x8100_01 r.val ≠ 0x1000_05 ∧ fam 0x8100_01 r.val ≠ 0x1100_0C ∧
    fam 0x8100_01 r.val ≠ 0x0020_05 := by
  decide +kernel

/-- What a restart other than that of LNK begins with: Sealed and without work, with what lies in MRAM, flash and the rails. -/
structure BeginsAnew (s f : State) : Prop where
  node : f.node = .sealed
  tasks : f.tasks = []
  sessions : f.sessions = []
  requests : f.requests = []
  contexts : f.contexts = []
  mem : f.mem = []
  store : f.store = s.store
  own : f.journal.own = s.journal.own
  life : f.life = s.life
  pending : f.pending = s.pending
  objs : f.objs = s.objs.filter fun e => keptOid false e.1

theorem restartDevice_restores (s : State) : ∃ f kept, BeginsAnew s f ∧ (∀ k, (k / 256 == 0x1100) = false → kept k = false) ∧
    restartDevice s 2 = refreshPorts ((applySaved f kept).setNum 0x1000_05 2) := by
  unfold restartDevice
  refine ⟨_, _, ?_, ?_, if_neg ?_⟩
  case refine_3 => decide
  case refine_1 => exact ⟨rfl, rfl, rfl, rfl, rfl, rfl, rfl, rfl, rfl, rfl, rfl⟩
  case refine_2 =>
    intro k other
    rw [other, Bool.false_and]

theorem restartDevice_reset {s : State} (canonical : Canonical s) : ∃ t, restartDevice s 2 = t ∧ t.node = .sealed ∧
    t.num 0x1000_05 = 2 ∧ t.tasks = [] ∧ t.sessions = [] ∧ t.requests = [] ∧ t.contexts = [] ∧ t.mem = [] ∧ t.store = s.store ∧
    t.journal.own = s.journal.own ∧ t.life = s.life ∧ t.pending = s.pending ∧
    ∀ r : Fin 41, railState t r.val = railState s r.val := by
  obtain ⟨f, kept, anew, rails, step⟩ := restartDevice_restores s
  have wf : sparseWf dfltOf f.objs = true := anew.objs ▸ sparseWf_filter dfltOf s.objs _ canonical.2
  obtain ⟨o, e, frame, cause, others⟩ := restore_frame f kept 2 wf
  refine ⟨_, step, ?_, cause, ?_, ?_, ?_, ?_, ?_, ?_, ?_, ?_, ?_, fun r => ?_⟩
  case refine_11 =>
    obtain ⟨keeps, free, cause_, dropped, ports⟩ := rail_kept r
    refine (others _ (rails _ free) cause_ dropped ports).trans (congrArg Val.asNum ?_)
    rw [State.val, anew.objs]
    exact sparseGet_filter dfltOf s.objs (keptOid false) _ keeps
  all_goals rw [frame]
  · exact anew.node
  · exact anew.tasks
  · exact anew.sessions
  · exact anew.requests
  · exact anew.contexts
  · exact anew.mem
  · exact anew.store
  · exact anew.own
  · exact anew.life
  · exact anew.pending

/-! ### Saved hours (R39) -/

theorem hourTicks_eq : hourTicks = 110592000000 := rfl

theorem num_addSaved_self {s : State} {oid : Nat} (n : Nat) (wf : sparseWf dfltOf s.objs = true) (h : oid ≠ 0x1100_0C)
    (h2 : oid ≠ 0x1010_02) (h3 : oid ≠ 0x1010_03) :
    (s.addSaved oid n).num oid = (s.num oid + n) % 2 ^ (objTy oid).bits :=
  (State.num_save_other _ _ _ h h2 h3).trans (State.num_add_self _ _ _ wf)

theorem num_addSaved_other (s : State) {oid k : Nat} (n : Nat) (other : k ≠ oid) (h : k ≠ 0x1100_0C)
    (h2 : k ≠ 0x1010_02) (h3 : k ≠ 0x1010_03) : (s.addSaved oid n).num k = s.num k :=
  (State.num_save_other _ _ _ h h2 h3).trans (State.num_add_other _ _ _ _ other)

theorem State.addSaved_wf {s : State} {oid n : Nat} (wf : sparseWf dfltOf s.objs = true) :
    sparseWf dfltOf (s.addSaved oid n).objs = true :=
  State.save_wf _ _ (State.add_wf _ _ _ wf)

theorem saveLife_num {s : State} (wf : sparseWf dfltOf s.objs = true) :
    (saveLife s).num 0x0030_01 = (s.num 0x0030_01 + s.life.powered / hourTicks) % 2 ^ 32 ∧
    (saveLife s).num 0x0030_02 = (s.num 0x0030_02 + s.life.serving / hourTicks) % 2 ^ 32 ∧
    (saveLife s).num 0x0030_05 = (s.num 0x0030_05 + s.life.light / hourTicks) % 2 ^ 32 := by
  have saved (t : State) (k : Nat) (h : k ≠ 0x1100_0C) (h2 : k ≠ 0x1010_02) (h3 : k ≠ 0x1010_03) :
      (t.save 0x0030_04).num k = t.num k := State.num_save_other _ _ _ h h2 h3
  have bits : (objTy 0x0030_01).bits = 32 ∧ (objTy 0x0030_02).bits = 32 ∧ (objTy 0x0030_05).bits = 32 := by decide +kernel
  obtain ⟨b1, b2, b5⟩ := bits
  refine ⟨?_, ?_, ?_⟩
  · refine (saved _ _ (by decide) (by decide) (by decide)).trans ?_
    rw [num_addSaved_other _ _ (by decide) (by decide) (by decide) (by decide),
      num_addSaved_other _ _ (by decide) (by decide) (by decide) (by decide),
      num_addSaved_self _ wf (by decide) (by decide) (by decide), b1]
  · refine (saved _ _ (by decide) (by decide) (by decide)).trans ?_
    rw [num_addSaved_other _ _ (by decide) (by decide) (by decide) (by decide),
      num_addSaved_self _ (State.addSaved_wf wf) (by decide) (by decide) (by decide),
      num_addSaved_other _ _ (by decide) (by decide) (by decide) (by decide), b2]
  · refine (saved _ _ (by decide) (by decide) (by decide)).trans ?_
    rw [num_addSaved_self _ (State.addSaved_wf (State.addSaved_wf wf)) (by decide) (by decide) (by decide),
      num_addSaved_other _ _ (by decide) (by decide) (by decide) (by decide),
      num_addSaved_other _ _ (by decide) (by decide) (by decide) (by decide), b5]

/-- What is left of an hour goes on. -/
theorem saveLife_life (s : State) : (saveLife s).life =
    { powered := s.life.powered % hourTicks, serving := s.life.serving % hourTicks, light := s.life.light % hourTicks,
      savedAt := s.up } := by
  have records : RecordsOnly s ((((s.addSaved 0x0030_01 (s.life.powered / hourTicks)).addSaved 0x0030_02
      (s.life.serving / hourTicks)).addSaved 0x0030_05 (s.life.light / hourTicks)).save 0x0030_04) :=
    (((RecordsOnly.addSaved _ _ _).trans (RecordsOnly.addSaved _ _ _)).trans (RecordsOnly.addSaved _ _ _)).trans
      (RecordsOnly.save _ _)
  obtain ⟨_, _, _, _, frame⟩ := records
  simp only [saveLife]
  rw [frame]

/-! ### Trim images (R553) -/

/-- Of lists that each hold one pair's images, the images of a pair are those of its own list. -/
theorem filter_pair_flatten {l : Nat → List TrimImage} (own : ∀ m, ∀ t ∈ l m, t.pair = m) (n : Fin 8) :
    (((List.range 8).map l).flatten.filter fun t => t.pair == n.val) = l n.val := by
  have part (m : Nat) : ((l m).filter fun t => t.pair == n.val) = if m = n.val then l m else [] := by
    split
    case isTrue same =>
      exact List.filter_eq_self.2 fun t mem => by simp [own m t mem, same]
    case isFalse other =>
      exact List.filter_eq_nil_iff.2 fun t mem => by simp [own m t mem, other]
  have pairs : List.range 8 = [0, 1, 2, 3, 4, 5, 6, 7] := rfl
  simp only [List.filter_flatten, List.map_map, Function.comp_def, part, pairs]
  obtain ⟨n, small⟩ := n
  interval_cases n <;> simp

theorem drop_last_toList {α : Type} (l : List α) : l.drop (l.length - 1) = l.getLast?.toList := by
  induction l using List.reverseRecOn with
  | nil => rfl
  | append_singleton l a _ => simp

/-- The images of a pair after a save: the last of before, and the new one. -/
def trimsKept (s : State) (n : Nat) : List TrimImage :=
  let old := s.analog.trims.filter fun t => t.pair == n
  old.drop (old.length - 1) ++
    [{ pair := n, setpoint := s.num 0x7020_02, codes := trimCodes s n, stamp := s.stamp, whole := true }]

theorem trimsKept_pair (s : State) (m : Nat) (t : TrimImage) (mem : t ∈ trimsKept s m) : t.pair = m := by
  rcases List.mem_append.1 mem with old | new
  · exact beq_iff_eq.1 (List.mem_filter.1 (List.mem_of_mem_drop old)).2
  · rw [List.mem_singleton.1 new]

theorem execTrimSave_due {s : State} (node : s.node = .serving) (runs : sysRuns s = true)
    (due : s.analog.trimAt + 110592000000 ≤ servingTicks s) : ∃ t, execTrimSave s = Next t ∧ t.analog.trimAt = servingTicks s ∧
    ∀ n : Fin 8, (t.analog.trims.filter fun x => x.pair == n.val) =
      (s.analog.trims.filter fun x => x.pair == n.val).getLast?.toList ++
        [{ pair := n.val, setpoint := s.num 0x7020_02, codes := trimCodes s n.val, stamp := s.stamp, whole := true }] := by
  have going : ¬ (s.node ≠ .serving ∨ (!sysRuns s) = true ∨ servingTicks s < s.analog.trimAt + hourTicks) := by
    rw [hourTicks_eq]
    simp [node, runs, due]
  refine ⟨_, if_neg going, rfl, fun n => ?_⟩
  refine (filter_pair_flatten (l := trimsKept s) (trimsKept_pair s) n).trans ?_
  rw [trimsKept, drop_last_toList]

/-! ### Relocation (R486) -/

/-- While entries are appended: the form is kept, every live entry of before is where it was, the positions copied so far are such
entries' positions, and their entries stand at new ones. -/
structure Relocating (old : List (Nat × JEntry)) (a : State × List Nat) : Prop where
  wf : sparseWf jNone a.1.journal.own.entries = true
  kept : ∀ e ∈ old, e ∈ a.1.journal.own.entries
  copied : ∀ e ∈ old, e.1 ∈ a.2 → ∃ p, (p, e.2) ∈ a.1.journal.own.entries ∧ p ∉ old.map Prod.fst
  moved : ∀ p ∈ a.2, p ∈ old.map Prod.fst

section Relocation

variable {old : List (Nat × JEntry)} (live : ∀ e ∈ old, e.2.live = true) (some_ : ∀ e ∈ old, e.2 ≠ jNone 0)
  (keys : (old.map Prod.fst).Nodup)

include live some_ keys

theorem Relocating.append {a : State × List Nat} (inv : Relocating old a) {e : Nat × JEntry} (mem : e ∈ old) {t : State}
    (appended : jAppend a.1 e.2 = some t) : Relocating old (t, a.2 ++ [e.1]) := by
  obtain ⟨wf, keeps, new⟩ := jAppend_keeps a.1 t e.2 inv.wf appended
  refine ⟨wf, fun x hx => keeps x (inv.kept x hx) (live x hx), fun x hx pos => ?_, fun p hp => ?_⟩
  · rcases List.mem_append.1 pos with before | now
    · obtain ⟨p, there, apart⟩ := inv.copied x hx before
      exact ⟨p, keeps _ there (live x hx), apart⟩
    · have same : x = e := List.inj_on_of_nodup_map keys hx mem (List.mem_singleton.1 now)
      obtain ⟨p, there, free⟩ := new (some_ e mem)
      refine ⟨p, same ▸ there, fun held => ?_⟩
      obtain ⟨y, hy, rfl⟩ := List.mem_map.1 held
      have taken : jHeld a.1.journal.own y.1 = true :=
        List.any_eq_true.2 ⟨y, inv.kept y hy, by simp [live y hy]⟩
      rw [taken] at free
      cases free
  · rcases List.mem_append.1 hp with before | now
    · exact inv.moved p before
    · rw [List.mem_singleton.1 now]
      exact List.mem_map_of_mem mem

theorem Relocating.foldl {f : State × List Nat → Nat × JEntry → State × List Nat}
    (step : ∀ a e, f a e = (jAppend a.1 e.2).elim a fun s => (s, a.2 ++ [e.1])) (l : List (Nat × JEntry)) (sub : ∀ e ∈ l, e ∈ old)
    {a : State × List Nat} (inv : Relocating old a) : Relocating old (l.foldl f a) := by
  induction l generalizing a with
  | nil => exact inv
  | cons e l ih =>
    refine ih (fun x hx => sub x (List.mem_cons_of_mem _ hx)) ?_
    rw [step]
    cases appended : jAppend a.1 e.2 with
    | none => exact inv
    | some t => exact inv.append live some_ keys (sub e List.mem_cons_self) appended

omit live some_ keys in
/-- The entries that name the positions moved keep every live entry. -/
theorem foldl_jAppend_keeps (g : Nat × Nat → JEntry) (runs : List (Nat × Nat)) {s : State}
    (wf : sparseWf jNone s.journal.own.entries = true) {x : Nat × JEntry} (mem : x ∈ s.journal.own.entries)
    (alive : x.2.live = true) : x ∈ (runs.foldl (fun s r => (jAppend s (g r)).getD s) s).journal.own.entries := by
  induction runs generalizing s with
  | nil => exact mem
  | cons r runs ih =>
    cases appended : jAppend s (g r) with
    | none =>
      simp only [List.foldl_cons, appended, Option.getD_none]
      exact ih wf mem
    | some t =>
      obtain ⟨wf', keeps, _⟩ := jAppend_keeps s t _ wf appended
      simp only [List.foldl_cons, appended, Option.getD_some]
      exact ih wf' (keeps x mem alive)

end Relocation

theorem execJournalRelocate_keeps (n : Nat) {s : State} (runs : sysRuns s = true)
    (wf : sparseWf jNone s.journal.own.entries = true) : ∃ t, execJournalRelocate n s = Next t ∧
    ∀ e ∈ s.journal.own.entries, e.2.live = true → ∃ p, (p, e.2) ∈ t.journal.own.entries := by
  have canonical := wf
  simp only [sparseWf, Bool.and_eq_true, List.all_eq_true, decide_eq_true_eq] at canonical
  let old := s.journal.own.entries.filter fun e => e.2.live
  have live : ∀ e ∈ old, e.2.live = true := fun e mem => (List.mem_filter.1 mem).2
  have some_ : ∀ e ∈ old, e.2 ≠ jNone 0 := fun e mem => canonical.2 e (List.mem_of_mem_filter mem)
  have keys : (old.map Prod.fst).Nodup :=
    (keys_nodup _ none canonical.1).1.sublist (List.Sublist.map _ List.filter_sublist)
  have start : Relocating old (s, []) :=
    ⟨wf, fun e mem => List.mem_of_mem_filter mem, fun _ _ none_ => absurd none_ List.not_mem_nil,
      fun _ none_ => absurd none_ List.not_mem_nil⟩
  unfold execJournalRelocate
  rw [if_neg (by simp [runs])]
  dsimp only
  generalize result : List.foldl _ (s, []) _ = r
  have inv : Relocating old r := result ▸ Relocating.foldl live some_ keys (fun a e => by cases jAppend a.1 e.2 <;> rfl) _
    (fun e mem => List.mem_mergeSort.1 (List.mem_of_mem_take mem)) start
  obtain ⟨u, moved⟩ := r
  refine ⟨_, rfl, fun e mem alive => ?_⟩
  have here : e ∈ old := List.mem_filter.2 ⟨mem, alive⟩
  have dropped : sparseWf jNone (modJournal u fun j => { j with own := jDrop j.own moved }).journal.own.entries = true :=
    sparseWf_filter jNone _ _ inv.wf
  have stays (p : Nat) (there : (p, e.2) ∈ u.journal.own.entries) (apart : p ∉ moved) :
      (p, e.2) ∈ (modJournal u fun j => { j with own := jDrop j.own moved }).journal.own.entries :=
    List.mem_filter.2 ⟨there, by simpa using apart⟩
  by_cases pos : e.1 ∈ moved
  case pos =>
    obtain ⟨p, there, apart⟩ := inv.copied e here pos
    exact ⟨p, foldl_jAppend_keeps _ _ dropped (stays p there fun h => apart (inv.moved p h)) alive⟩
  case neg => exact ⟨e.1, foldl_jAppend_keeps _ _ dropped (stays e.1 (inv.kept e here) pos) alive⟩

/-! ### The reference clock and Safe (R429, R434, R499, R597) -/

theorem portUp_enterSafe {s : State} (cause : Nat) (lit : s.node ≠ .safe) (p : RingPort) :
    portUp (enterSafe s cause) p = portUp s p := by
  have other : ∀ p : RingPort, fam 0x1110_01 p.val ∉ [0x1100_0C, 0x1000_02, 0x1000_04, 0x1000_06, 0x1000_08, 0x1010_02,
      0x1010_03, 0x1F00_02, 0x7010_07, 0xB000_06, 0xB000_07, 0xB000_08] := by decide
  rw [portUp, num_enterSafe s cause _ lit (other p), portUp]

/-- Settles O53: a restart by what it begins with, Safe by what it turns off, a relocation by the entries held while it copies. -/
theorem resetsAndSaves : Obligations.ResetsAndSaves := by
  refine ⟨fun s canonical clock => ?_, fun s stopped => ⟨if_neg (by simp [stopped]), if_pos (by simp [stopped])⟩,
    fun s canonical clock lit => ?_, fun s => rfl, fun s canonical held lit => ?_, fun s canonical runs due => ?_,
    fun s node runs due => execTrimSave_due node runs due, fun n s runs wf => execJournalRelocate_keeps n runs wf⟩
  · obtain ⟨t, step, rest⟩ := restartDevice_reset canonical
    exact ⟨t, (if_pos clock).trans (congrArg Next step), rest⟩
  · intro u
    obtain ⟨node, stopped, amps, outs, tasks, line, _⟩ := enterSafe_off { s with refclk := false } 4 lit
    have step : exec .refclkLoss s = Next (portsDown u) := if_neg (by simp [clock])
    have cause : u.num 0x1000_04 = 4 := enterSafe_cause { s with refclk := false } 4 lit canonical.2
    have ports (p : RingPort) : portUp u p = portUp s p := portUp_enterSafe (s := { s with refclk := false }) 4 lit p
    exact ⟨step, stopped.trans rfl, node, cause, amps, outs, tasks, line, ports⟩
  · obtain ⟨node, _, amps, outs, _, line, convs⟩ := enterSafe_off s 1 lit
    have step : exec .supervisorMismatch s = Next (enterSafe s 1) := if_neg (by simp [held])
    exact ⟨_, step, node, enterSafe_cause s 1 lit canonical.2, amps, outs, line, convs⟩
  · have due' : hourTicks ≤ s.since s.life.savedAt := due
    obtain ⟨powered, serving, light⟩ := saveLife_num canonical.2
    have step : exec .lifeDataSave s = Next (saveLife s) := if_pos ⟨runs, due'⟩
    refine ⟨_, step, powered, serving, light, ?_⟩
    rw [saveLife_life]
    exact ⟨rfl, rfl, rfl, rfl⟩

end Sys2Proof.Machine
end

section
/-! PROOFS. Conversions, urgent requests and calibration commands (R542-R549, R560). -/

namespace Sys2Proof.Machine

/-! ### Writes whose effect may refuse -/

/-- An accepted write of an object other than NODE_COMMAND is answered with what its effect gives. -/
theorem deliverWrite_result {s t : State} {x : Xfer} {index sub r : Nat} {b : Bytes} {codes : Option (Vector Int 16)} {base : Nat}
    {ty : Ty} {persist : Bool} {v : Val} (good : Accepted s x index sub b) (row : defRow index sub = some (base, ty, persist))
    (value : toVal ty b = v)
    (effect : ∀ count k acc expert dflt,
      applyWrite (heard s) index sub ⟨base, count, k, ty, acc, expert, persist, dflt⟩ v codes = (r, t))
    (stays : index ≠ 0x1001) : deliverWrite s x index sub b codes = sendResp t x.val r index sub 0 [] := by
  obtain ⟨free, judged⟩ := good
  obtain ⟨⟨_, count, k, _, acc, expert, _, dflt⟩, def_, same⟩ := Option.map_eq_some_iff.1 row
  obtain ⟨rfl, rfl, rfl⟩ := by simpa using same
  rw [deliverWrite_unused free, writeObject_accepted judged def_, value, effect]
  exact restartAfter_of_ne (.inl stays)

/-! ### Converters (R542-R544) -/

/-- What CONVERSION_COMPLETE asks of its converter, its operands and the analogue supply. -/
theorem conversion_guard {s : State} {c : Fin 4} {channel : Byte} {code : Int} {k : Conversion} (runs : convRuns s c = true)
    (same : k.channel = channel.toNat) (steady : ∀ d ∈ s.power.dips, d.1 ≠ 1) (least : -8388608 ≤ code)
    (most : code ≤ 8388607) :
    ¬ ((!convRuns s c) = true ∨ k.channel ≠ channel.toNat ∨ s.power.dips.any (fun d => d.1 == 1) = true ∨
      code < -8388608 ∨ 8388607 < code) := by
  have level : s.power.dips.any (fun d => d.1 == 1) = false :=
    List.any_eq_false.2 fun d mem => by simpa using steady d mem
  rw [runs, level]
  simp [same, least, most]

section
variable {s : State} {c : Fin 4} {channel : Byte} {code : Int} {ov : Bool} {k : Conversion}
  (converts : converting (passSkipped c 130 s) c = some k) (runs : convRuns s c = true) (same : k.channel = channel.toNat)
  (steady : ∀ d ∈ s.power.dips, d.1 ≠ 1) (least : -8388608 ≤ code) (most : code ≤ 8388607)
include converts runs same steady least most

theorem conversion_of_test (test : k.test = true) : execConversionComplete c channel code ov s =
    Next (newLoop (storeResult (passSkipped c 130 s) c k code ov) c) := by
  simp only [execConversionComplete, converts]
  rw [if_neg (conversion_guard runs same steady least most), if_pos test]

theorem conversion_of_urgent (plain : k.test = false) (urgent : k.entry = none) : execConversionComplete c channel code ov s =
    Next (storeResult (passSkipped c 130 s) c k code ov) := by
  simp only [execConversionComplete, converts]
  rw [if_neg (conversion_guard runs same steady least most), if_neg (by simp [plain]), urgent]

theorem conversion_of_entry (plain : k.test = false) {i : Nat} {e : SeqEntry} (entry : k.entry = some i)
    (found : (tableOf (passSkipped c 130 s) c)[i]? = some e) : execConversionComplete c channel code ov s =
    Next (if (passSkipped c 130 s).analog.convs[c].step + 1 < e.count then
        modConv (storeResult (passSkipped c 130 s) c k code ov) c fun (v : Conv) => { v with step := v.step + 1 }
      else endEntry (storeResult (passSkipped c 130 s) c k code ov) c) := by
  simp only [execConversionComplete, converts]
  rw [if_neg (conversion_guard runs same steady least most), if_neg (by simp [plain]), entry]
  simp only [found]
  exact (apply_ite Next _ _ _).symm

end

/-! ### Urgent requests (R546, R560) -/

section
variable {s : State} {c : Fin 4} {r : UrgentReq}

/-- A request that no other waits before runs, and is counted. -/
theorem pushUrgent_first (foreign : r.own = false) (empty : s.analog.convs[c].urgent = [])
    (takes : s.analog.convs[c].stopped = false) (idle : s.analog.convs[c].urgentRunning = false) :
    pushUrgent s c r = some (modConv (s.inc (fam 0x9000_08 c.val)) c fun y =>
      { y with urgent := [r], urgentRunning := true }) := by
  simp only [pushUrgent, empty, takes, idle, foreign]
  rfl

theorem pushUrgent_refused (full : s.analog.convs[c].stopped = true ∨ 4 ≤ s.analog.convs[c].urgent.length) :
    pushUrgent s c r = none := by
  rw [pushUrgent, if_pos]
  rw [Bool.or_eq_true, decide_eq_true_eq]
  exact full.symm

theorem urgentOf_foreign {v : Nat} (reads : urgentOf v = some r) : r.own = false := by
  simp only [urgentOf] at reads
  split at reads
  · cases reads
  · cases reads
    rfl

/-- The converter of a request is what its two lowest bits name. -/
theorem urgentRequest_pushed {v : Nat} (reads : urgentOf v = some r) :
    urgentRequest s v = (pushUrgent s ⟨v % 4, Nat.mod_lt _ (by decide)⟩ r).elim (false, s.setNum 0x9030_02 (3 * 2 ^ 40))
      fun t => (true, t.setNum 0x9030_02 (1 * 2 ^ 40)) := by
  have named : (⟨bitsOf v 1 0, Nat.mod_lt _ (by decide)⟩ : Fin 4) = ⟨v % 4, Nat.mod_lt _ (by decide)⟩ := by
    simp [bitsOf]
  simp only [urgentRequest, reads]
  rw [named]
  cases pushUrgent s ⟨v % 4, Nat.mod_lt _ (by decide)⟩ r <;> rfl

end

/-- A written request is answered with 0 where it is taken, with 5 else. -/
theorem execUrgent_accepted {s : State} {x : Xfer} {v : BitVec 16} (good : Accepted s x 0x9030 1 (leBytes 2 v.toNat)) :
    execUrgent x v s = Next (sendResp (urgentRequest (heard s) v.toNat).2 x.val
      (if (urgentRequest (heard s) v.toNat).1 then 0 else 5) 0x9030 1 0 []) :=
  congrArg Next (deliverWrite_result good (base := 0x9030) (ty := .u16) (persist := false) (by decide +kernel)
    (congrArg Val.num (leNat_leBytes_two v)) (fun _ _ _ _ _ => rfl) (by decide))

/-! ### Calibration commands (R549, R613) -/

section
variable {s : State} {codes : Vector Int 16}

theorem calRefused_none (node : s.node = .configuring ∨ s.node = .quiesced)
    (channel : s.num 0x9040_01 % 256 < 24 ∨ (170 ≤ s.num 0x9040_01 % 256 ∧ s.num 0x9040_01 % 256 < 202))
    (gain : s.num 0x9040_01 / 1024 % 8 ≤ 5) : calRefused s = none := by
  have channel' : calChannel s = s.num 0x9040_01 % 256 := by simp [calChannel, bitsOf]
  have gain' : calGain s = s.num 0x9040_01 / 1024 % 8 := by simp [calGain, bitsOf]
  have indexed : calIndex (calChannel s) ≠ none := by
    rw [channel', calIndex]
    split
    · simp
    · rw [if_pos (by omega)]
      simp
  rw [calRefused, if_neg (by tauto), if_neg (by simp [indexed, gain', gain])]

theorem calZero_allowed (allowed : calRefused s = none) : calZero s codes =
    (0, modAnalog s fun a => { a with zeroed := some (s.num 0x9040_01, codes.toList.foldl (· + ·) 0) }) := by
  simp [calZero, allowed]

theorem calFullScale_noZero (allowed : calRefused s = none) (none_ : s.analog.zeroed = none) : calFullScale s codes = (6, s) := by
  simp [calFullScale, allowed, none_]

theorem calClear_allowed (allowed : calRefused s = none) : calClear s = (0, putCal s (s.num 0x9040_01 % 256) 0 0) := by
  simp [calClear, allowed, calChannel, bitsOf]

end

/-- How a calibration command's result is answered (R613). -/
def calAnswer (r : Nat × State) : Nat × State := (result613 r.1 2, r.2)

/-- A calibration command written: CAL_RESULT takes what the command gives, and the answer says whether it is 0. -/
theorem deliverCalibration {s t : State} {x : Xfer} {n : Byte} {r : Nat} {codes : Option (Vector Int 16)}
    (good : Accepted s x 0x9040 3 [n]) (runs : calCommand (heard s) n.toNat codes = (r, t)) :
    deliverWrite s x 0x9040 3 [n] codes = sendResp t x.val r 0x9040 3 0 [] :=
  deliverWrite_result good (base := 0x9040) (ty := .u8) (persist := false) (v := .num n.toNat) (by decide +kernel) rfl
    (fun _ _ _ _ _ => runs) (by decide)

/-- Settles O54: a conversion by what converts, a request by whether its converter takes it, each command by what allows it. -/
theorem conversionsAndCalibration : Obligations.ConversionsAndCalibration := by
  unfold Obligations.ConversionsAndCalibration
  refine ⟨?conversion, ?urgent, ?calibration⟩
  case conversion =>
    intro c channel code ov k s u converts runs same steady least most t
    exact ⟨conversion_of_test converts runs same steady least most, conversion_of_urgent converts runs same steady least most,
      fun i e plain => conversion_of_entry converts runs same steady least most plain⟩
  case urgent =>
    intro x v r s good reads h c
    refine ⟨fun empty takes idle => (execUrgent_accepted good).trans ?_, fun full => (execUrgent_accepted good).trans ?_⟩
    · have pushed : urgentRequest h v.toNat = (true, (modConv (h.inc (fam 0x9000_08 c.val)) c fun y =>
          { y with urgent := [r], urgentRunning := true }).setNum 0x9030_02 (1 * 2 ^ 40)) := by
        rw [urgentRequest_pushed reads, pushUrgent_first (s := h) (c := c) (urgentOf_foreign reads) empty takes idle]
        rfl
      rw [pushed]
      rfl
    · have refused : urgentRequest h v.toNat = (false, h.setNum 0x9030_02 (3 * 2 ^ 40)) := by
        rw [urgentRequest_pushed reads, pushUrgent_refused (s := h) (c := c) full]
        rfl
      rw [refused]
      rfl
  case calibration =>
    intro x codes s node h ch channel gain
    have allowed : calRefused h = none := calRefused_none node channel gain
    have zero : calDone (calZero h codes) = _ := congrArg calDone (calZero_allowed allowed)
    have clear : calDone (calClear h) = _ := congrArg calDone (calClear_allowed allowed)
    refine ⟨fun good => congrArg Next (deliverCalibration good (congrArg calAnswer zero)),
      fun good none_ => congrArg Next (deliverCalibration good
        (congrArg (calAnswer ∘ calDone) (calFullScale_noZero (codes := codes) allowed none_))),
      fun good t scaled => congrArg Next (deliverCalibration good (congrArg (calAnswer ∘ calDone) scaled)),
      fun good => congrArg Next (deliverCalibration good (congrArg calAnswer clear))⟩

end Sys2Proof.Machine
end

section
/-! PROOFS. The boot, its seal, attestation, and images in service (R429, R570-R588). -/

namespace Sys2Proof.Machine

/-! ### The boot (R571-R573) -/

/-- A boot whose self-check fails ends in Safe with cause 3. -/
theorem execBoot_checkFailed {s : State} (ready : bootReady s = true) (noReset : s.ring.remoteReset = 0) (testsOk : Bool)
    (lines : List (PairId × Nat)) (facets : BitVec 32) :
    execBoot false testsOk lines facets s = Next (enterSafe (bootBegun s) 3) := by
  have quiet := (bootBegun_remoteReset s).trans noReset
  unfold bootBegun at *
  simp [execBoot, ready, quiet]

/-! ### The seal (R575-R579) -/

/-- An event moves neither the clock nor the start of the boot. -/
theorem since_startedAt_raise (s : State) (code unit : Nat) (data : Bytes) :
    (s.raise code unit data).since (s.raise code unit data).boot.startedAt = s.since s.boot.startedAt := by
  obtain ⟨objs, events, frame⟩ := State.raise_frame s code unit data
  rw [frame]
  rfl

/-- DEBUG_ALLOWED (R577): DEBUG_PERMIT of the image and DEBUG_REQUEST. -/
def sealDebug (s : State) : Bool := (fieldAt s.boot.running 13 1).testBit 0 && s.num 0xC000_0B == 1

/-- What the seal writes: itself, the protection objects and the measurements, with DEBUG_ENABLED where R577 allows it. -/
def sealed (s : State) : State :=
  let m := measurements s (sealDebug s)
  let u := (((((s.setNum 0xC010_01 1).setNum 0xC010_02 (if sealDebug s then 1 else 0)).setBlob 0xC010_03
    (sealWindows (fwSeal s.boot.running))).setBlob 0xC010_04 (sealMap (fwSeal s.boot.running))).setBlob 0xC010_05
    ((m.drop 128).take 64)).setBlob 0xC030_06 m
  if sealDebug s then u.raise 0xC014 0xFF [] else u

theorem since_startedAt_sealed (s : State) : (sealed s).since (sealed s).boot.startedAt = s.since s.boot.startedAt := by
  unfold sealed
  cases sealDebug s
  · rfl
  · exact since_startedAt_raise _ 0xC014 0xFF []

theorem execSealWrite_written {s : State} {src : Nat} {fromNext slow : Bool}
    (candidate : s.boot.candidate = some (src, fromNext, slow)) (node : s.node = .sealed) (runs : src ≠ 3)
    (powered : s.power.failLow = false) (awake : s.sysHeld = false) :
    execSealWrite s = Next (enterConfiguring (modBoot ((sealed s).setNum 0xC000_09 (s.since s.boot.startedAt / 30720)) fun b =>
      { b with candidate := none })) := by
  rw [← since_startedAt_sealed s]
  simp only [execSealWrite, candidate]
  rw [if_neg (by simp [node, runs, powered, awake])]
  rfl

/-! ### Attestation and images (R580-R584) -/

theorem execReportSigned_signing {s : State} {nonce : Bytes} (signing : s.boot.signing = some nonce) (up : inService s = true) :
    execReportSigned s = Next (((modBoot s fun b => { b with signing := none }).setBlob 0xC030_02 (reportBody s nonce ++
      (Config.identitySign (reportBody s nonce) ++ List.replicate 512 0#8).take 512)).setNum 0xC030_03 2) := by
  simp only [execReportSigned, signing]
  rw [if_neg (by simp [up])]

section
variable {s : State} {t : Nat} {b : Bytes} (staged : s.boot.staging = some (t, b)) (awake : s.sysHeld = false)
  (lit : s.node ≠ .safe)
include staged awake lit

theorem execImageStaged_flashFailed (slot : t ≠ 2) : execImageStaged false s =
    Next ((modBoot s fun x => { x with staging := none }).setNum 0xC020_03 3) := by
  simp only [execImageStaged, staged]
  rw [if_neg (by simp [awake, lit]), if_pos (by simp [slot])]

/-- An image in its slot is judged: its cause is shown, or it is accepted and told. -/
theorem execImageStaged_programmed {ok : Bool} (written : t = 2 ∨ ok = true) {w : State}
    (placed : w = (modBoot (modBoot s fun x => { x with staging := none }) fun x =>
      { x with images := x.images.setIfInBounds t (some b) }).setNum 0xC020_04 b.length) :
    execImageStaged ok s = Next ((fwCause w (some b)).elim
      ((w.setNum 0xC020_03 2).raise 0xC012 0xFF (leBytes 1 t ++ leBytes 4 (fwVersion b)))
      fun c => w.setNum 0xC020_03 (16 + c)) := by
  subst placed
  simp only [execImageStaged, staged]
  rw [if_neg (by simp [awake, lit]), if_neg (by rintro ⟨slot, failed⟩; rcases written with rfl | rfl <;> simp at *)]
  generalize fwCause _ _ = cause
  cases cause <;> rfl

end

/-! ### COMMIT (R584) -/

section
variable {s : State}

theorem commitImage_raises (newer : s.num 0xC000_07 < fwSvn s.boot.running) : commitImage s =
    ((s.setNum 0xC000_02 (s.num 0xC000_01)).setNum 0xC000_07 (fwSvn s.boot.running)).raise 0xC013 0xFF
      (leBytes 1 (s.num 0xC000_07) ++ leBytes 1 (fwSvn s.boot.running)) := if_pos newer

theorem commitImage_keeps (old : fwSvn s.boot.running ≤ s.num 0xC000_07) :
    commitImage s = s.setNum 0xC000_02 (s.num 0xC000_01) := if_neg (Nat.not_lt.2 old)

end

/-- A written COMMIT with its state. -/
theorem execCommit_accepted {s t : State} {x : Xfer} {v : Byte} (good : Accepted s x 0xC000 10 [v])
    (effect : (if v.toNat = 0 then (0, heard s) else if (heard s).num 0xC000_01 = 2 then (3, heard s)
      else (0, commitImage (heard s))) = (0, t)) : execCommit x v s = Answered t x 0xC000 10 :=
  congrArg Next (deliverWrite_result good (base := 0xC000) (ty := .b) (persist := false) (v := .num v.toNat)
    (by decide +kernel) rfl (fun _ _ _ _ _ => effect) (by decide))

/-- Settles O57: a boot by what its choice finds, the seal by what it writes, an image by where it stands, COMMIT by the floor. -/
theorem bootAndImages : Obligations.BootAndImages := by
  unfold Obligations.BootAndImages
  refine ⟨?boot, ?sealWrite, ?staging, fun nonce s => execReportSigned_signing, ?image, ?commit⟩
  case boot =>
    intro b lines facets s node awake clock closed noReset u r named
    have ready := bootReady_of_candidate node awake clock (.inl closed)
    have fresh : (s.boot.candidate == some fallbackBoot) = false := by rw [closed]; rfl
    refine ⟨execBoot_checkFailed ready noReset b lines facets, ?_⟩
    rcases found : r.2 with _ | ⟨src, k⟩
    · rw [exec_boot, execBoot_noImage ready noReset b lines facets found]
      rfl
    · rw [exec_boot, execBoot_image ready noReset b lines facets false fresh src k found, bootCause_first]
      rfl
  case sealWrite =>
    intro src fromNext slow s candidate node runs powered awake
    exact ⟨fun late => execBootTimeout_due candidate node runs powered awake late,
      execSealWrite_written candidate node runs powered awake⟩
  case staging =>
    intro x v s h
    exact ⟨fun good => congrArg Next (deliverWrite_result good (base := 0xC030) (ty := .blob) (persist := false) (v := .bytes v)
        (by decide +kernel) rfl (fun _ _ _ _ _ => rfl) (by decide)),
      fun good => congrArg Next (deliverWrite_result good (base := 0xC020) (ty := .blob) (persist := false) (v := .bytes v)
        (by decide +kernel) rfl (fun _ _ _ _ _ => rfl) (by decide))⟩
  case image =>
    intro ok t b s staged awake lit u w
    refine ⟨execImageStaged_flashFailed staged awake lit, fun written => ?_⟩
    have judged := execImageStaged_programmed staged awake lit written (w := w) rfl
    refine judged.trans ?_
    cases fwCause w (some b) <;> rfl
  case commit =>
    intro x v s good h
    refine ⟨fun zero => execCommit_accepted good (if_pos zero), fun one slot newer => ?_, fun one slot old => ?_⟩
    · exact execCommit_accepted good ((if_neg one).trans ((if_neg slot).trans (congrArg (Prod.mk 0) (commitImage_raises newer))))
    · exact execCommit_accepted good ((if_neg one).trans ((if_neg slot).trans (congrArg (Prod.mk 0) (commitImage_keeps old))))

end Sys2Proof.Machine
end
